-- ==== Sys2Proof/Word.lean ====
section
/-! DEFINITION. The plain widths the manual uses: register words, bytes, stored number formats (R165). -/

namespace Sys2Proof

/-- One byte of memory. -/
abbrev Byte := BitVec 8

/-- A 32-bit register word (R523). -/
abbrev Word := BitVec 32

/-- An FP32 pattern (R165). -/
abbrev F32 := BitVec 32

/-- A BF16 pattern (R165). -/
abbrev BF16 := BitVec 16

/-- A global ID or a result index (R59, R60). -/
abbrev Gid := BitVec 64

/-- The 48-bit epoch (R27). -/
abbrev Epoch := BitVec 48

end Sys2Proof
end

