-- ==== Sys2Proof/Syntax.lean ====
section
/-! DEFINITION. The commands: one constructor per row of the table of operations and events, with its operands. -/

namespace Sys2Proof

/-- Blocks that hold SH fields (R39, R525). -/
inductive Blk where
  | global
  | kstack (k : Nat)
  | port (p : Nat)
  | link
  | security
  deriving DecidableEq, Repr

/-- Engine kinds that run slices (01_stitch.md, R31). -/
inductive Engine where
  | matrix | vector | tile | sorter | nbIssue
  deriving DecidableEq, Repr

/-- What a slice runs (R103, R134, R155, R202, R237, R281, R307). `job` is a job number, `pass` a pass number. -/
inductive SliceKind where
  | routeWalk (job n : Nat)
  | tableBuild (job n : Nat)
  | rebuild (job n : Nat)
  | sketchPass (pass lo n : Nat)
  | codePass (pass lo n : Nat)
  | sideSlice (pass slot lo n : Nat)
  | localSelect (job n : Nat)
  | rerank (job n : Nat)
  | fanIn (job n : Nat)
  | insertEncode (job : Nat)
  | mainFold (job lo n : Nat)
  | sideFold (job lo n : Nat)
  | routeCopy (job n : Nat)
  | gemm (job group row0 rows k0 kn : Nat)
  | vectorOp (job lo n : Nat)
  | kvProject (job group k0 kn : Nat)
  | rotateWrite (job lo n : Nat)
  | fused (job head range page0 pages : Nat)
  | combine (job lo n : Nat)
  | merge (job lo n : Nat)
  | sortOwners (job lo n : Nat)
  | pooling (job n : Nat)
  | lookupCombine (job lo n : Nat)
  | stepApply (table n : Nat)
  | nbPool (k n : Nat)
  | nbApply (k table n : Nat)
  | nbRun (job lo n : Nat)
  | awl (block : Nat)
  deriving DecidableEq, Repr

/-- What the node reads at a stitch boundary (R452, R309): die and stack temperatures in degrees C, input power
averaged over 1 ms in W, and the servo's correction of the coming stitch in CCLK cycles (R25). -/
structure BoundaryIn where
  dieC : Nat
  stackC : List Nat
  powerW : Nat
  corr : Int
  deriving DecidableEq, Repr

/-- A search share request (R109), its packed PROBES unpacked. -/
structure ShareReq where
  collector : Nat
  context : Nat
  compEpoch : Nat
  epoch : Nat
  share : Nat
  coll : Nat
  probes : List Nat
  k : Nat
  depth : Nat
  rerankOff : Bool
  escalate : Bool
  sketchMax : Option Nat
  qvec : List BF16
  deriving DecidableEq, Repr

/-- Flags of a search completion or partial (R111, R114). -/
structure SFlags where
  tied : Bool := false
  escalated : Bool := false
  listClipped : Bool := false
  routeShort : Bool := false
  slowPath : Bool := false
  rerouted : Bool := false
  notLocal : Bool := false
  deriving DecidableEq, Repr

/-- An entry of a search partial (R111). -/
structure PartEntry where
  gid : Gid
  pair : Gid
  dist : F32
  deriving DecidableEq, Repr

/-- A search partial (R111). `status` is a completion status code. -/
structure PartialMsg where
  collector : Nat
  context : Nat
  share : Nat
  epoch : Nat
  holder : Nat
  status : Nat
  flags : SFlags
  entries : List PartEntry
  codesScored : Nat
  rerankReads : Nat
  deriving DecidableEq, Repr

/-- An attention partial (R227). -/
structure AttnMsg where
  status : Nat
  slot : Nat
  layer : Nat
  shard : Nat
  src : Nat
  qpos : Nat
  ntok : Nat
  epoch : Nat
  m : List F32
  l : List F32
  o : List (List F32)
  deriving DecidableEq, Repr

/-- A lookup share request (R264): entries are (row, bag, weight). -/
structure LookupReq where
  requester : Nat
  context : Nat
  epoch : Nat
  table : Nat
  slot : Nat
  weighted : Bool
  entries : List (Nat × Nat × F32)
  deriving DecidableEq, Repr

/-- A lookup partial (R265): per bag its number, the indices summed and the FP32 sum. -/
structure LookupPart where
  requester : Nat
  context : Nat
  epoch : Nat
  owner : Nat
  status : Nat
  slowPath : Bool
  entries : List (Nat × Nat × List F32)
  deriving DecidableEq, Repr

/-- A parity delta (R407, R441): the difference of one 4 KB sector and its poison mask. -/
structure ParityMsg where
  group : Nat
  stripe : Nat
  member : Nat
  sector : Nat
  oldSeq : Nat
  newSeq : Nat
  diff : List Byte
  mask : Nat
  deriving DecidableEq, Repr

/-- A frame of the Quosharak fabric as received (R382). `kind` 0 data, 1 acknowledgement, 2 control. -/
structure Frame where
  src : Nat
  dst : Nat
  queue : Nat
  msgNo : Nat
  msgLen : Nat
  idx : Nat
  len : Nat
  deriving DecidableEq, Repr

/-- March of one stack (R482-R484): coverage in 1/65,536, duration in ms, rows repaired, pseudo-channels beyond repair. -/
structure StackTest where
  stack : Nat
  coverage : Nat
  ms : Nat
  rows : Nat
  pcs : List Nat
  deriving DecidableEq, Repr

/-- Memory test of Vamp SRAM and the stack caches (R483-R485): `ok` within the spare rows, `dirOk` the directory arrays. -/
structure SramTest where
  coverage : Nat
  ms : Nat
  rows : Nat
  ways : Nat
  ok : Bool
  dirOk : Bool
  deriving DecidableEq, Repr

/-- A self-test wave's results (R482-R485): blocks tested and those that failed, by the order of R467; duration in ms; memory
tests; flash channels with their results (1 pass, 2 pass on retest, 3 fail); whether the stitch timer and the security unit
work. -/
structure WaveIn where
  blocks : List Nat
  failed : List Nat
  ms : Nat
  marches : List StackTest
  sram : Option SramTest
  channels : List (Nat × Nat)
  unitOk : Bool
  deriving DecidableEq, Repr

/-- The commands. -/
inductive Instr where
  -- 01 stitch, commits, registers, time
  /-- R30 -/
  | stitchBoundary (inp : BoundaryIn)
  /-- R43 -/
  | commitAtRelease
  /-- R40: a D0 register write of COMMIT = 1 -/
  | commitWrite (agent dom : Nat) (b : Blk)
  /-- R41: a D0 register write of COMMIT = 0 -/
  | commitWithdraw (agent dom : Nat) (b : Blk)
  /-- R42 -/
  | holdSet (agent dom : Nat)
  /-- R42 -/
  | holdClear (agent dom : Nat)
  /-- R43 -/
  | atEnSet (agent dom : Nat)
  /-- R38, R41: `off` is a shadow address -/
  | shadowWrite (agent dom off data : Nat)
  /-- R523 -/
  | regWr (agent dom off data : Nat)
  /-- R524 -/
  | lowRegisterRead (agent dom off : Nat)
  /-- R522 -/
  | heldRegisterMessage
  /-- R23: offset from network time in ns as the servo finds it, and network seconds since T0 -/
  | syncMessage (offsetNs : Int) (seconds : Nat)
  /-- R23: measured delay of a port in ns -/
  | peerDelayMessage (port delayNs : Nat)
  /-- R26 -/
  | syncLoss
  /-- R26: estimated error in ns -/
  | holdoverLimitExceeded (errorNs : Nat)
  /-- R546: the second of network time -/
  | ppsPulse (second : Nat)
  -- 01 slices
  /-- R31: a slice, the block it is offered and the CCLK cycle at which it would start -/
  | sliceAdmit (kind : SliceKind) (idx start : Nat)
  /-- R35: slice number -/
  | overrun (sid : Nat)
  /-- R37 -/
  | overrunLimit (e : Engine) (idx : Nat)
  /-- R33 -/
  | admitWaitExpiry (job : Nat)
  -- 03 query path; `dom ring` name the work ring whose next descriptor is taken
  /-- R80 -/
  | search (dom ring : Nat)
  /-- R79 -/
  | abort (dom ring : Nat)
  /-- R86 -/
  | routeWalk (sid : Nat)
  /-- R180 -/
  | tableBuild (sid : Nat)
  /-- R183 -/
  | escalatedRebuild (sid : Nat)
  /-- R93 -/
  | probeHold (coll part : Nat)
  /-- R98 -/
  | sketchPass (sid : Nat)
  /-- R95 -/
  | codePass (sid : Nat)
  /-- R97 -/
  | sideSlice (sid : Nat)
  /-- R104 -/
  | localSelect (sid : Nat)
  /-- R105 -/
  | rerankReadIssue (job : Nat)
  /-- R343: job and candidate; `step` is the recovery step that succeeded, 5 for none -/
  | planeRead (job cand channel step retries : Nat)
  /-- R344 -/
  | thresholdAdjust (channel lun bin : Nat) (up : Bool)
  /-- R106 -/
  | rerank (sid : Nat)
  /-- R110 -/
  | shareRequest (src : Nat) (req : ShareReq)
  /-- R112 -/
  | partialMsg (msg : PartialMsg)
  /-- R113 -/
  | fanInMerge (sid : Nat)
  /-- R399: the n-th waiting search share, or lookup share -/
  | shareWaitTimeout (lookup : Bool) (n : Nat)
  -- 05 updates
  /-- R139 -/
  | insert (dom ring : Nat)
  /-- R143 -/
  | delete (dom ring : Nat)
  /-- R139 -/
  | insertEncode (sid : Nat)
  /-- R141 -/
  | batchCommit
  /-- R150 -/
  | compact (dom ring : Nat)
  /-- R155 -/
  | mainFold (sid : Nat)
  /-- R155 -/
  | sideFold (sid : Nat)
  /-- R152 -/
  | layoutSwap (job : Nat)
  /-- R153 -/
  | layoutRelease (coll part : Nat)
  /-- R157 -/
  | version (dom ring : Nat)
  /-- R156 -/
  | versionCurrent (coll : Nat)
  /-- R156 -/
  | slotRelease (coll : Nat)
  /-- R159 -/
  | routeEdit (dom ring : Nat)
  /-- R160 -/
  | routeCopy (sid : Nat)
  -- 07 engines
  /-- R197 -/
  | gemm (dom ring : Nat)
  /-- R194 -/
  | elementWiseMap (dom ring : Nat)
  /-- R194 -/
  | rowReduction (dom ring : Nat)
  /-- R203 -/
  | gemmSlice (sid : Nat)
  /-- R202 -/
  | vectorSlice (sid : Nat)
  -- 08 attention
  /-- R218 -/
  | attend (dom ring : Nat)
  /-- R220 -/
  | kvProjection (sid : Nat)
  /-- R222 -/
  | rotateAndWrite (sid : Nat)
  /-- R226 -/
  | fusedAttention (sid : Nat)
  /-- R227 -/
  | combine (sid : Nat)
  /-- R232 -/
  | attnMerge (dom ring : Nat)
  /-- R234: `mergeSlot` is the slot the partial is tagged for (R231) -/
  | attnPartial (mergeSlot : Nat) (msg : AttnMsg)
  /-- R233 -/
  | merge (sid : Nat)
  /-- R253: page, failed block, and whether the second decode passed -/
  | skiveReread (page block : Nat) (ok : Bool)
  -- 10 embeddings
  /-- R263 -/
  | lookup (dom ring : Nat)
  /-- R264 -/
  | sortByOwner (sid : Nat)
  /-- R265 -/
  | lookupShare (src : Nat) (req : LookupReq)
  /-- R265 -/
  | pooling (sid : Nat)
  /-- R267 -/
  | lookupPartial (msg : LookupPart)
  /-- R266 -/
  | lookupCombine (sid : Nat)
  /-- R270 -/
  | embUpdate (dom ring : Nat)
  /-- R270: a gradient row from `src` for a step -/
  | gradientRow (src table step row : Nat) (g : List F32)
  /-- R272 -/
  | stepClose (dom ring : Nat)
  /-- R272 -/
  | stepCloseAt (table : Nat)
  /-- R273 -/
  | sealSend (table : Nat)
  /-- R273 -/
  | sealMsg (src table step : Nat)
  /-- R274 -/
  | stepApply (sid : Nat)
  /-- R277 -/
  | hotSet (dom ring : Nat)
  /-- R278 -/
  | hotRefresh (table : Nat)
  /-- R279 -/
  | embVersion (dom ring : Nat)
  /-- R279 -/
  | embSwap (table : Nat)
  -- 11 near-bank; `k u` name a K-stack index and a unit
  /-- R301 -/
  | nbPooling (sid : Nat)
  /-- R302 -/
  | nbApply (sid : Nat)
  /-- R304 -/
  | nbRun (dom ring : Nat)
  /-- R305 -/
  | nbRunSlice (sid : Nat)
  /-- R294; `err` is what the unit finds in the line it loads: 0 clean, 1 corrected, 2 uncorrectable (R312) -/
  | nop (k u : Nat)
  | endI (k u : Nat)
  | set (k u : Nat)
  | ldw (k u : Nat)
  | lde (k u : Nat)
  | ld (k u err : Nat)
  | st (k u : Nat)
  | add (k u : Nat)
  | mul (k u : Nat)
  | fma (k u : Nat)
  | act (k u : Nat)
  | lacc (k u err : Nat)
  | loop (k u : Nat)
  | br (k u : Nat)
  /-- R298: a beat arrives at a unit -/
  | laceBeat (k u train : Nat) (vals : List F32) (poison : Bool)
  /-- R310 -/
  | bankRefresh (k u : Nat)
  /-- R311 -/
  | forcedPreemption (k u : Nat)
  -- 12 tiers and flash
  /-- R326 -/
  | migration
  /-- R324: the page's data lands; blocks of a coded group that failed to decode twice, poisoned 4 KB sectors -/
  | pageLanded (page : Nat) (badSectors : List Nat)
  /-- R324 -/
  | writebackDurable (page : Nat)
  /-- R334 -/
  | wbFlush (sector : Nat)
  /-- R329 -/
  | willneed (dom ring : Nat)
  | cold (dom ring : Nat)
  | pin (dom ring : Nat)
  | unpin (dom ring : Nat)
  | sync (dom ring : Nat)
  | discard (dom ring : Nat)
  | setHint (dom ring : Nat)
  /-- R349 -/
  | journalRead (dom ring : Nat)
  /-- R347 -/
  | journalFlush
  /-- R341: run number, superblock that takes it -/
  | runDurable (run sb : Nat)
  /-- R407 -/
  | parityDelta (src : Nat) (msg : ParityMsg)
  /-- R342: superblock, sectors needing soft decoding or worse, of those the ones rebuilt from parity -/
  | superblockVerify (sb : Nat) (weak rebuilt : List Nat)
  /-- R345 -/
  | garbageCollection (shank : Nat)
  /-- R346 -/
  | wearLevelling (shank : Nat)
  | readDisturb (sb : Nat)
  | patrolRead (sb : Nat) (soft : Bool)
  | programFail (sb channel : Nat) (erase : Bool)
  /-- R350: superblocks of a Shank, and GB of user capacity -/
  | mapRebuild (sbTotal userGb : Nat)
  /-- R350: set, torn runs found, sectors that cannot be read -/
  | setReady (set torn : Nat) (bad : List Nat)
  -- 13 coherence: agent, transaction, line address, domain
  /-- `dirErr`: the line's directory entry is found uncorrectable (R435). -/
  | rdShared (agent txn line dom : Nat) (dirErr : Bool)
  | rdOwn (agent txn line dom : Nat) (dirErr : Bool)
  | rdOnce (agent txn line dom : Nat)
  | wrInv (agent txn line dom : Nat) (data : List Byte)
  | wrPtl (agent txn line dom : Nat) (mask : Nat) (data : List Byte)
  | wrBack (agent txn line dom : Nat) (data : List Byte) (poison : Bool)
  | evict (agent txn line dom : Nat)
  | wrHint (agent txn line dom target : Nat) (data : List Byte)
  | rspI (agent line attempt : Nat)
  | rspS (agent line attempt : Nat)
  | rspFwd (agent line attempt : Nat) (data : List Byte) (poison : Bool)
  | rspDirty (agent line attempt : Nat) (data : List Byte) (poison : Bool)
  | rspDecline (agent line attempt : Nat)
  /-- R365 -/
  | snoopLate (agent line : Nat)
  /-- R375: a D0 register write of AGENT_KILL -/
  | agentKill (agent dom target : Nat)
  /-- R377: a D0 register write of AGENT_REVIVE -/
  | agentRevive (agent dom target : Nat)
  /-- R376 -/
  | reclaimWalkEnd
  /-- R372 -/
  | ringWatchRead (dom ring : Nat)
  /-- R356 -/
  | linkTraining
  | linkTrained (wide : Bool)
  | retrainTimeout
  | partnerLoss
  /-- R357 -/
  | flitReplay
  | laneFault (lane : Nat)
  -- 14 fabric
  /-- R420 -/
  | portUp (port : Nat)
  /-- R385 -/
  | portDown (port : Nat)
  /-- R443 -/
  | fabricLaneFault (port lane : Nat)
  /-- R386 -/
  | dataFrame (port : Nat) (f : Frame)
  /-- R387 -/
  | acknowledgement (dst queue msgNo idx : Nat)
  | retx (dst queue msgNo idx : Nat)
  /-- R415: time in units of 10 ps from the boundary -/
  | egressSelect (port t : Nat)
  /-- R421 -/
  | gateEntry (port t : Nat)
  /-- R423 -/
  | guardBand (port queue t : Nat)
  /-- R413 -/
  | timeMessage (port t bytes : Nat)
  /-- R389 -/
  | joinReq
  | assign (addr comp join : Nat)
  | refuseJoin (code : Nat)
  /-- R390 -/
  | joinEpoch
  /-- R393 -/
  | declareFailed (node epoch : Nat)
  /-- R395: byte offset in the map slot and the bytes written there -/
  | mapWrite (offset : Nat) (data : List Byte)
  | mapActivate (epoch : Nat)
  | mapActivation
  /-- R409 -/
  | rebuild (group member : Nat)
  | rebuilt
  -- 16 faults
  /-- R443: source kind and index -/
  | retirement (kind idx : Nat)
  /-- R323 -/
  | remapCopyDone (stack : Nat)
  /-- R445 -/
  | d2dLaneFault (shank lane : Nat)
  /-- R436: outcome of a scrub read of a line: 0 clean, 1 corrected, 2 recurs, 3 uncorrectable; bytes corrected -/
  | scrub (line stack pc outcome bytes : Nat)
  /-- R454 -/
  | awlSlice (sid : Nat) (pass : Bool)
  /-- R453 -/
  | eyeMeasurement (wymer : Bool) (lane mv mui : Nat)
  | opticalPoll (module power : Nat) (low : Bool)
  /-- R451 -/
  | droop
  /-- R463 -/
  | wedged (kind idx : Nat)
  /-- R459 -/
  | pldmResend
  /-- R464: length of the low pulse in ns -/
  | nodeReset (pulseNs : Nat)
  -- 17 start-up
  /-- R474 -/
  | resetRelease
  /-- R480: whether both die-to-die links trained, channels found ACTIVE -/
  | trainingDone (d2dOk : Bool) (channels : List Nat)
  /-- R482 -/
  | bistWave (w : WaveIn)
  | waveSplit (powerW : Nat)
  /-- R484 -/
  | retestWave (block : Nat) (pass : Bool)
  /-- R487 -/
  | halfSole1
  | halfSole2
  /-- R474 -/
  | full
  -- 20 module hardware
  /-- R539 -/
  | modEnAssert
  | rampDone
  | modEnDeassert
  | railOutOfBand
  /-- R537: duration below 57 V in ns -/
  | inputUndervoltage (ns : Nat)
  /-- R542 -/
  | hardwareThermalShutdown (dieC stackC : Nat)
  -- 18, 19 Cobbler and mailbox
  /-- R513 -/
  | attestReady
  | getInfo
  | slotWrite
  | slotTry
  | retireRead
  | retireClear
  | keyGen
  | keyImport
  | keyLoad
  | keyErase
  | imageKeyProvision
  | imageKeyRevoke
  | secFloorRaise
  /-- R511: seconds since the last quote -/
  | attest (sinceS : Nat)
  | attestCertCmd
  -- rows that stand at the table's end
  /-- R383 -/
  | portTraining (port : Nat)
  /-- R441: units of 4,096 bytes with their poison masks, at a node address -/
  | reconstructionCopy (src addr : Nat) (units : List (List Byte × Nat))
  /-- R409: source vectors for STALE sectors: sector address and bytes -/
  | journalTransfer (src : Nat) (vectors : List (Nat × List Byte))
  /-- R271 -/
  | dropReport (table step row : Nat)
  /-- R278 -/
  | hotRowFetch (table slot row : Nat) (data : List Byte)
  /-- R459 -/
  | eventAcknowledgement (seq : Nat)
  /-- R460: 0 management port, 1 SMBus; MCTP message type and body -/
  | mctpMessage (viaSmbus : Bool) (mtype : Nat) (body : List Byte)
  /-- R459 -/
  | managementPortDown (down : Bool)
  deriving DecidableEq, Repr

end Sys2Proof
end

