-- ==== Sys2Proof/Config.lean ====
section
/-! DEFINITION. What one part or one run fixes and the manual leaves open: every constant here is opaque, so no
statement can rest on a value of it. The assumption log names each one. -/

namespace Sys2Proof

/-- Module serial number, fused (R527). -/
opaque Config.serial : BitVec 64

/-- Free order of FP32 additions (R179): seed, place, step. Log entry 11. -/
opaque Config.sumPick : Nat → Nat → Nat → Nat

/-- Sign of a NaN that an invalid FP32 operation produces (IEEE 754 leaves it open). Log entry 12. -/
opaque Config.nanSign : F32 → F32 → Bool

/-- Offset, in units in the last place, of a function the manual bounds (R194, R290, R558). Log entry 13. -/
opaque Config.ulpPick : Nat → F32 → Nat

/-- GELU (tanh form), sigmoid and exp (R194, R290), whose exact values are real numbers. Log entry 13. -/
opaque Config.realFn : Nat → F32 → F32

/-- The rotation angle's cosine and sine (R221). Log entry 13. -/
opaque Config.rotaryCos : Nat → Nat → F32 → F32
opaque Config.rotarySin : Nat → Nat → F32 → F32

/-- Free bytes where the manual calls contents undefined (R200, R206, R316). Log entry 14. -/
opaque Config.freeByte : Nat → Nat → BitVec 8

/-- SHAKE256-256 digest of a byte string (R506, R507, R513). Log entry 15. -/
opaque Config.shake256 : List (BitVec 8) → BitVec 256

/-- XMSS verification of a message under a 68-byte key with a 2,500-byte signature (R475). Log entry 15. -/
opaque Config.xmssVerify : List (BitVec 8) → List (BitVec 8) → List (BitVec 8) → Bool

/-- The attestation key's signature with one leaf over a quote (R513), 2,820 bytes. Log entry 15. -/
opaque Config.xmssSign : Nat → List (BitVec 8) → List (BitVec 8)

/-- AES key wrap under the node's wrapping key, and its inverse (R501). Log entry 15. -/
opaque Config.keyWrap : BitVec 512 → Nat → BitVec 640
opaque Config.keyUnwrap : BitVec 640 → Option (BitVec 512 × Nat)

/-- The on-die random source (R515): the n-th draw. Log entry 15. -/
opaque Config.randomKey : Nat → BitVec 512

/-- Digest of the vendor's image key in slot 0 (R506). Log entry 15. -/
opaque Config.vendorSlotDigest : BitVec 256

/-- Vendor signature check of a FIRMWARE section (R475 check 5) and its version (R527). Log entry 15. -/
opaque Config.firmwareOk : List (BitVec 8) → Bool
opaque Config.firmwareVersion : List (BitVec 8) → BitVec 16

/-- The traversal cache in the NOR passes its check (R510, R513). Log entry 15. -/
opaque Config.cacheOk : List (BitVec 8) → Bool

/-- Length in bytes of the certificate of the attestation key (R510, R532). Log entry 15. -/
opaque Config.certLen : Nat

/-- A byte of GET_INFO's output, whose layout the manual does not give (R532): FW_VERSION, SLOT_USED, REC_SEQ, ACTIVE, TRY,
byte. Log entry 30. -/
opaque Config.infoByte : Nat → Nat → Nat → Nat → Bool → Nat → BitVec 8

/-- Instruction words of the node's own patterns SGD, MOMENTUM and ADAGRAD (R296): entry, word. Log entry 16. -/
opaque Config.builtinWord : Nat → Nat → BitVec 32

/-- Directory set of a line (R360 gives the count of sets, not the hash). Log entry 17. -/
opaque Config.dirSet : Nat → Nat

/-- Code of a coherent message's class in an ACCESS_ERROR's DETAIL (R458 gives no numbers). Log entry 22. -/
opaque Config.msgClass : Nat → Nat

/-- The fine pool has room (R326, R336 give no entry size). Log entry 23. -/
opaque Config.fineRoom : Nat → Bool

/-- Whether an LDW word of a software pattern names a vector register (R293 and R294 give it no bit). Log entry 27. -/
opaque Config.ldwVector : Nat → Bool

/-- Node that holds a shard of the KV cache that a merge slot gathers (R234 names it, no rule says how the node knows):
sequence slot, shard. Log entry 28. -/
opaque Config.shardNode : Nat → Nat → Nat

/-- Channel, among its Shank's 16, that holds a sector of a superblock (R336, R337 leave it open). Log entry 29. -/
opaque Config.channelOf : Nat → Nat → Nat

/-- What training finds on a flash channel (R353): TARGETS less 1 in bits [2:0], LUNS less 1 in bit 3, PLANES in bit 4; and
the event class of a target left unused, which R552 does not name. Log entry 31. -/
opaque Config.channelShape : Nat → BitVec 8
opaque Config.targetClass : BitVec 8

/-- Choice among candidates the manual treats alike (R326 equal counts, R155 tiles). Log entry 18. -/
opaque Config.pick : Nat → Nat → Nat

end Sys2Proof
end

