-- ==== Sys2Proof/Machine/Bits.lean ====
section
/-! DEFINITION. Bit fields and byte order: bit 0 is the least significant (R9), multi-byte values little-endian (R166). -/

namespace Sys2Proof

/-- Field of `width` bits from bit `lo`. -/
def fieldOf (w lo width : Nat) : Nat := (w >>> lo) % 2 ^ width

/-- `w` with the field of `width` bits from `lo` replaced by `v`. -/
def fieldPut (w lo width v : Nat) : Nat :=
  w - (fieldOf w lo width <<< lo) + ((v % 2 ^ width) <<< lo)

/-- One bit as a truth value. -/
def bitOf (w i : Nat) : Bool := (w >>> i) % 2 == 1

/-- Little-endian value of a byte string. -/
def leNat : List Byte → Nat
  | [] => 0
  | b :: t => b.toNat + 256 * leNat t

/-- The `n` little-endian bytes of a value. -/
def leBytes : Nat → Nat → List Byte
  | 0, _ => []
  | n + 1, v => BitVec.ofNat 8 v :: leBytes n (v / 256)

/-- `1` for true. -/
def b2n (b : Bool) : Nat := if b then 1 else 0

/-- Ceiling of a quotient. -/
def cdiv (a b : Nat) : Nat := if b = 0 then 0 else (a + b - 1) / b

/-- Bits below `i` as a list of numbers where set. -/
def bitsSet (w n : Nat) : List Nat := (List.range n).filter (bitOf w)

/-- Number of set bits among the low `n`. -/
def popcount (w n : Nat) : Nat := (bitsSet w n).length

/-- Two's complement of a signed value in `n` bits. -/
def signedBits (n : Nat) (i : Int) : Nat := (i % (2 ^ n : Nat)).toNat

/-- Signed reading of `n` bits. -/
def bitsSigned (n w : Nat) : Int := if w % 2 ^ n < 2 ^ (n - 1) then (w % 2 ^ n : Nat) else (w % 2 ^ n : Nat) - (2 ^ n : Nat)

/-- CRC-32C, Castagnoli, reflected (R246): one bit step. -/
def crcStep (c : Nat) : Nat := if c % 2 = 1 then (c / 2) ^^^ 0x82F63B78 else c / 2

/-- One byte of CRC-32C. -/
def crcByte (c : Nat) (b : Byte) : Nat :=
  crcStep (crcStep (crcStep (crcStep (crcStep (crcStep (crcStep (crcStep (c ^^^ b.toNat))))))))

/-- CRC-32C of a byte string: initial value and final XOR of all ones (R246). -/
def crc32c (bs : List Byte) : Nat := (bs.foldl crcByte 0xFFFFFFFF) ^^^ 0xFFFFFFFF

end Sys2Proof
end

