-- ==== Sys2Proof/Machine/Float.lean ====
section
/-! DEFINITION. Number formats and their arithmetic (06_narrow_formats.md R165-R178): exact values as sign, magnitude
and power of two; one rounding to nearest, ties to even (R167); no flushing of subnormals (R168). -/

namespace Sys2Proof

/-- The exact value of a floating-point pattern: (-1)^s * m * 2^e. -/
inductive FVal where
  | nan (s : Bool)
  | inf (s : Bool)
  | fin (s : Bool) (m : Nat) (e : Int)
  deriving DecidableEq, Repr

/-- How a format spends its all-ones exponent and what a value too large becomes (R165, R169, R170). -/
inductive FKind where
  | ieee          -- infinities and NaNs; overflow gives infinity
  | ieeeSat       -- infinities and NaNs; finite overflow saturates (FP8 E5M2)
  | satNan        -- one NaN pattern, no infinity (FP8 E4M3)
  | satOnly       -- no special values (FP4 E2M1)
  deriving DecidableEq, Repr

/-- A binary format: exponent bits, fraction bits, bias. -/
structure FFmt where
  eb : Nat
  mb : Nat
  bias : Int
  kind : FKind
  deriving DecidableEq, Repr

def fp32 : FFmt := { eb := 8, mb := 23, bias := 127, kind := .ieee }
def bf16 : FFmt := { eb := 8, mb := 7, bias := 127, kind := .ieee }
def e4m3 : FFmt := { eb := 4, mb := 3, bias := 7, kind := .satNan }
def e5m2 : FFmt := { eb := 5, mb := 2, bias := 15, kind := .ieeeSat }
def e2m1 : FFmt := { eb := 2, mb := 1, bias := 1, kind := .satOnly }

/-- Bits of the largest finite magnitude (R165). -/
def FFmt.maxFin (f : FFmt) : Nat :=
  match f.kind with
  | .ieee | .ieeeSat => (2 ^ f.eb - 1) * 2 ^ f.mb - 1
  | .satNan => 2 ^ (f.eb + f.mb) - 2
  | .satOnly => 2 ^ (f.eb + f.mb) - 1

/-- The exact value a pattern stands for. -/
def FFmt.decode (f : FFmt) (w : Nat) : FVal :=
  let s := bitOf w (f.eb + f.mb)
  let x := fieldOf w f.mb f.eb
  let fr := fieldOf w 0 f.mb
  let special := x = 2 ^ f.eb - 1
  let num := if x = 0 then FVal.fin s fr (1 - f.bias - f.mb) else .fin s (2 ^ f.mb + fr) ((x : Int) - f.bias - f.mb)
  match f.kind with
  | .ieee | .ieeeSat => if special then (if fr = 0 then .inf s else .nan s) else num
  | .satNan => if special ∧ fr = 2 ^ f.mb - 1 then .nan s else num
  | .satOnly => num

/-- `m * 2^sh` to the nearest integer, ties to even; `sh` may be negative. -/
def rneShift (m : Nat) (sh : Int) : Nat :=
  if 0 ≤ sh then m <<< sh.toNat
  else
    let k := (-sh).toNat
    let q := m >>> k
    let r := m % 2 ^ k
    let half := 2 ^ (k - 1)
    if r > half ∨ (r = half ∧ q % 2 = 1) then q + 1 else q

/-- Length in bits. -/
def bitLen (m : Nat) : Nat := if m = 0 then 0 else m.log2 + 1

/-- Magnitude bits of `m * 2^e` rounded into the format, before any overflow rule (R167). -/
def FFmt.roundMag (f : FFmt) (m : Nat) (e : Int) : Nat :=
  if m = 0 then 0
  else
    let emin := 1 - f.bias
    let top := e + (bitLen m : Int) - 1
    let q := max top emin - f.mb
    ((q - (emin - f.mb)).toNat <<< f.mb) + rneShift m (e - q)

/-- The NaN pattern the node writes (R170). -/
def FFmt.nanBits (f : FFmt) (s : Bool) : Nat :=
  let body := match f.kind with
    | .ieee => (2 ^ f.eb - 1) * 2 ^ f.mb + 2 ^ (f.mb - 1)
    | .ieeeSat | .satNan => 2 ^ (f.eb + f.mb) - 1
    | .satOnly => 0
  b2n s * 2 ^ (f.eb + f.mb) + body

/-- Narrow an exact value into the format; the flag says the element clipped (R169, R170). -/
def FFmt.encode (f : FFmt) (v : FVal) : Nat × Bool :=
  let sg (s : Bool) := b2n s * 2 ^ (f.eb + f.mb)
  match v with
  | .nan s => (f.nanBits s, false)
  | .inf s =>
    match f.kind with
    | .ieee | .ieeeSat => (sg s + (2 ^ f.eb - 1) * 2 ^ f.mb, false)
    | .satNan | .satOnly => (sg s + f.maxFin, true)
  | .fin s m e =>
    let b := f.roundMag m e
    if b ≤ f.maxFin then (sg s + b, false)
    else match f.kind with
      | .ieee => (sg s + (2 ^ f.eb - 1) * 2 ^ f.mb, false)
      | _ => (sg s + f.maxFin, true)

/-- The exact value of an FP32 pattern. -/
def F32.val (x : F32) : FVal := fp32.decode x.toNat

/-- FP32 from an exact value, one rounding. -/
def F32.ofVal (v : FVal) : F32 := BitVec.ofNat 32 (fp32.encode v).1

def F32.isNan (x : F32) : Bool := match x.val with | .nan _ => true | _ => false
def F32.isFinite (x : F32) : Bool := match x.val with | .fin .. => true | _ => false

/-- Exact sum of two finite values; an exact zero sum of unlike signs is +0 under round to nearest. -/
def FVal.addFin (s1 : Bool) (m1 : Nat) (e1 : Int) (s2 : Bool) (m2 : Nat) (e2 : Int) : FVal :=
  let e := min e1 e2
  let a : Int := (if s1 then -1 else 1) * ((m1 <<< (e1 - e).toNat : Nat) : Int)
  let b : Int := (if s2 then -1 else 1) * ((m2 <<< (e2 - e).toNat : Nat) : Int)
  let t := a + b
  if t = 0 then .fin (s1 && s2) 0 e else .fin (decide (t < 0)) t.natAbs e

/-- Exact value of a sum; `bad` gives the sign of a new NaN. -/
def FVal.add (bad : Bool) : FVal → FVal → FVal
  | .nan s, _ => .nan s
  | _, .nan s => .nan s
  | .inf s, .inf t => if s = t then .inf s else .nan bad
  | .inf s, _ => .inf s
  | _, .inf t => .inf t
  | .fin s m e, .fin t n k => FVal.addFin s m e t n k

/-- Exact value of a product. -/
def FVal.mul (bad : Bool) : FVal → FVal → FVal
  | .nan s, _ => .nan s
  | _, .nan s => .nan s
  | .inf s, .inf t => .inf (s != t)
  | .inf s, .fin t m _ => if m = 0 then .nan bad else .inf (s != t)
  | .fin s m _, .inf t => if m = 0 then .nan bad else .inf (s != t)
  | .fin s m e, .fin t n k => .fin (s != t) (m * n) (e + k)

def FVal.neg : FVal → FVal
  | .nan s => .nan (!s)
  | .inf s => .inf (!s)
  | .fin s m e => .fin (!s) m e

/-- FP32 operations, each rounded once (R167). -/
def F32.add (x y : F32) : F32 := F32.ofVal (x.val.add (Config.nanSign x y) y.val)
def F32.mul (x y : F32) : F32 := F32.ofVal (x.val.mul (Config.nanSign x y) y.val)
def F32.neg (x : F32) : F32 := x ^^^ 0x80000000#32
def F32.sub (x y : F32) : F32 := F32.add x (F32.neg y)
/-- Fused multiply-add, one rounding (R178, R194). -/
def F32.fma (x y z : F32) : F32 :=
  F32.ofVal ((x.val.mul (Config.nanSign x y) y.val).add (Config.nanSign y z) z.val)

/-- Quotient of magnitudes with a sticky bit, as `q * 2^e`. -/
def quotMag (m n : Nat) (e : Int) : Nat × Int :=
  let sh := 64 + bitLen n
  let t := m <<< sh
  (2 * (t / n) + (if t % n = 0 then 0 else 1), e - sh - 1)

/-- Correctly rounded FP32 quotient. -/
def F32.div (x y : F32) : F32 :=
  F32.ofVal <| match x.val, y.val with
    | .nan s, _ => .nan s
    | _, .nan s => .nan s
    | .inf _, .inf _ => .nan (Config.nanSign x y)
    | .inf s, .fin t _ _ => .inf (s != t)
    | .fin s _ e, .inf t => .fin (s != t) 0 e
    | .fin s m e, .fin t n k =>
      if n = 0 then (if m = 0 then .nan (Config.nanSign x y) else .inf (s != t))
      else let q := quotMag m n (e - k); .fin (s != t) q.1 q.2

/-- Correctly rounded FP32 reciprocal square root of a positive value; the corners as R290 gives for rsqrt. -/
def F32.rsqrtExact (x : F32) : F32 :=
  F32.ofVal <| match x.val with
    | .nan s => .nan s
    | .inf s => if s then .nan (Config.nanSign x x) else .fin false 0 0
    | .fin s m e =>
      if m = 0 then .inf s
      else if s then .nan (Config.nanSign x x)
      else
        let e2 := if e % 2 = 0 then e else e - 1
        let m2 := if e % 2 = 0 then m else 2 * m
        let t := (1 <<< (128 + 2 * bitLen m2)) / m2
        let r := Nat.sqrt t
        .fin false (2 * r + 1) (-(e2 / 2) - (64 + bitLen m2 : Int) - 1)

/-- Order of distance values (R121): a key that grows with the value, the zeros equal; NaN has none. -/
def F32.key (x : F32) : Option Int :=
  if x.isNan then none
  else
    let m : Int := ((x.toNat % 2 ^ 31 : Nat) : Int)
    some (if bitOf x.toNat 31 then -m else m)

/-- Strictly nearer under R121; comparisons with NaN are false. -/
def F32.lt (x y : F32) : Bool :=
  match x.key, y.key with
  | some a, some b => decide (a < b)
  | _, _ => false

def F32.le (x y : F32) : Bool :=
  match x.key, y.key with
  | some a, some b => decide (a ≤ b)
  | _, _ => false

/-- `x` moved by `n` units in the last place, away from and toward zero, for the bounded functions (R194, R290). -/
def F32.nudge (x : F32) (bound : Nat) (tag : Nat) (arg : F32) : F32 :=
  if !x.isFinite || x.toNat % 2 ^ 31 = 0 then x
  else
    let k := Config.ulpPick tag arg % (2 * bound + 1)
    let m := x.toNat % 2 ^ 31
    BitVec.ofNat 32 (x.toNat - m + (m + k - min bound (m + k)))

/-- 1 / A within 2 ULP (R194). -/
def F32.recip (x : F32) : F32 := (F32.div 0x3F800000#32 x).nudge 2 0 x

/-- Reciprocal square root within `bound` ULP (R194, R290, R558). -/
def F32.rsqrt (bound : Nat) (x : F32) : F32 := (F32.rsqrtExact x).nudge bound 1 x

/-- The functions on real values: a NaN gives a NaN (R194, R290); otherwise a free value. -/
def F32.real (tag : Nat) (x : F32) : F32 :=
  match x.val with
  | .nan s => BitVec.ofNat 32 (fp32.nanBits s)
  | _ => Config.realFn tag x

/-- FP32 of a natural number, rounded once. -/
def F32.ofNat (n : Nat) : F32 := F32.ofVal (.fin false n 0)

/-- Nearest integer, ties to even, of a finite FP32 value (R167, R558); `none` when not finite. -/
def F32.toInt (x : F32) : Option Int :=
  match x.val with
  | .fin s m e => let n : Int := (rneShift m e : Nat); some (if s then -n else n)
  | _ => none

/-- Clamp a rounded value into 0..top (R91); a value that is not finite goes to the end of its sign. -/
def F32.toClamped (x : F32) (top : Nat) : Nat :=
  match x.val with
  | .fin .. => match x.toInt with
    | some i => if i < 0 then 0 else min i.toNat top
    | none => 0
  | .inf s => if s then 0 else top
  | .nan _ => top

/-- BF16 widened exactly (R290). -/
def BF16.wide (x : BF16) : F32 := F32.ofVal (bf16.decode x.toNat)

/-- BF16 from FP32, one rounding; overflow gives infinity (R169). -/
def F32.toBf16 (x : F32) : BF16 := BitVec.ofNat 16 (bf16.encode x.val).1

/-- FP32 sum with a free order of additions (R179): each step adds two entries that the free choice names. -/
def sumSteps (seed place : Nat) : Nat → List F32 → F32
  | _, [] => 0#32
  | _, [x] => x
  | 0, x :: _ => x
  | n + 1, x :: y :: t =>
    let l := x :: y :: t
    let i := Config.sumPick seed place (2 * n) % l.length
    let rest := l.eraseIdx i
    let j := Config.sumPick seed place (2 * n + 1) % rest.length
    sumSteps seed place n (F32.add (l.getD i 0#32) (rest.getD j 0#32) :: rest.eraseIdx j)

/-- Sum of FP32 values in the unspecified order (R179); an empty sum is +0.0. -/
def f32Sum (seed place : Nat) (l : List F32) : F32 := sumSteps seed place l.length l

/-- Dot product: BF16 products are exact in FP32 (R178), summed in the unspecified order. -/
def dot (seed place : Nat) (a b : List F32) : F32 := f32Sum seed place (List.zipWith F32.mul a b)

/-- Sum of squared differences (R55). -/
def sqDist (seed place : Nat) (a b : List F32) : F32 :=
  f32Sum seed place (List.zipWith (fun x y => let d := F32.sub x y; F32.mul d d) a b)

/-- The collection's distance between a query and a vector (R55): 0 squared L2, 1 inner product, 2 cosine. -/
def metricDist (metric seed place : Nat) (q x : List F32) : F32 :=
  if metric = 0 then sqDist seed place q x else F32.neg (dot seed place q x)

/-- Largest magnitude among finite values, as an FP32 pattern. -/
def maxMag (l : List F32) : F32 :=
  l.foldl (fun a x => let m := x &&& 0x7FFFFFFF#32; if F32.lt a m then m else a) 0#32

/-- `floor(log2)` of a positive finite FP32 value. -/
def F32.log2 (x : F32) : Int :=
  match x.val with
  | .fin _ m e => e + (bitLen m : Int) - 1
  | _ => 0

/-- `2^k` as an exact value times `x`. -/
def F32.scale2 (x : F32) (k : Int) : FVal :=
  match x.val with
  | .fin s m e => .fin s m (e + k)
  | v => v

/-- One MX block (R170, R172): scale byte, element patterns, clipped count, non-finite mark. -/
structure MxBlock where
  scale : Nat
  elems : List Nat
  clipped : Nat
  nonfinite : Bool
  deriving DecidableEq, Repr

/-- Quantize up to 32 values into an MX format; `emax` is 8, 15 or 2 (R172). -/
def mxQuantize (f : FFmt) (emax : Int) (l : List F32) : MxBlock :=
  if l.any (fun x => !x.isFinite) then
    { scale := 0xFF, elems := l.map (fun _ => 0), clipped := 0, nonfinite := true }
  else
    let a := maxMag l
    let k : Int := if a.toNat = 0 then 0 else max (-127) (min 127 (a.log2 - emax))
    let r := l.map (fun x => f.encode (x.scale2 (-k)))
    { scale := (k + 127).toNat, elems := r.map Prod.fst,
      clipped := (r.filter (fun p => p.2)).length, nonfinite := false }

/-- An MX element's value (R165, R170). -/
def mxDecode (f : FFmt) (scale w : Nat) : F32 :=
  if scale = 0xFF then BitVec.ofNat 32 (fp32.nanBits false)
  else F32.ofVal (match f.decode w with
    | .fin s m e => .fin s m (e + ((scale : Int) - 127))
    | v => v)

/-- Smallest BF16 at or above a positive exact value m * 2^e (R174 rounds its scale up). -/
def bf16Up (m : Nat) (e : Int) : BF16 :=
  let b := bf16.roundMag m e
  let back := bf16.decode b
  let less := match back with
    | .fin _ n k => let z := min e k; decide (n <<< (k - z).toNat < m <<< (e - z).toNat)
    | _ => false
  BitVec.ofNat 16 (if less then b + 1 else b)

/-- 2-bit symmetric quantization (R174, R170): BF16 scale, codes, non-finite mark. A tie takes the even code. -/
def twoBitQuantize (l : List F32) : BF16 × List Nat × Bool :=
  if l.any (fun x => !x.isFinite) then (BitVec.ofNat 16 (bf16.nanBits false), l.map (fun _ => 0), true)
  else match (maxMag l).val with
    | .fin _ m e =>
      if m = 0 then (0#16, l.map (fun _ => 2), false)
      else
        let q := quotMag (2 * m) 3 e
        let sc := bf16Up q.1 q.2
        let s := BF16.wide sc
        let code (x : F32) : Nat :=
          let big := F32.lt s (x &&& 0x7FFFFFFF#32)
          let tie := !big && (x &&& 0x7FFFFFFF#32) = s
          if bitOf x.toNat 31 && x.toNat % 2 ^ 31 ≠ 0 then (if big || tie then 0 else 1)
          else if big then 3 else 2
        (sc, l.map code, false)
    | _ => (0#16, l.map (fun _ => 2), false)

/-- A 2-bit symmetric element in half units of the scale: -3, -1, +1, +3 (R165). -/
def twoBitHalf (code : Nat) : Int := 2 * (code % 4 : Nat) - 3

/-- INT8 vector (R176, R170): FP32 scale A / 127 and round(x / scale). -/
def int8Quantize (l : List F32) : F32 × List Nat × Bool :=
  if l.any (fun x => !x.isFinite) then (BitVec.ofNat 32 (fp32.nanBits false), l.map (fun _ => 0), true)
  else
    let sc := F32.div (maxMag l) (F32.ofNat 127)
    let q (x : F32) : Nat :=
      if sc.toNat = 0 then 0
      else signedBits 8 (match (F32.div x sc).toInt with | some i => max (-127) (min 127 i) | none => 0)
    (sc, l.map q, false)

/-- An INT8 element decoded for rerank (R177): q * scale in FP32, rounded to BF16. -/
def int8Decode (scale : F32) (w : Nat) : BF16 :=
  let i := bitsSigned 8 w
  (F32.mul (F32.ofVal (.fin (decide (i < 0)) i.natAbs 0)) scale).toBf16

end Sys2Proof
end

