-- ==== Sys2Proof/Machine/RegMap.lean ====
section
/-! DEFINITION. The register map: every field of the manual's field maps with its place, access code and reset
(R11, R47-R49, R116, R137, R138, R163, R164, R189, R207, R208, R239, R257, R258, R282, R283, R317, R318, R352, R353,
R378-R380, R411, R412, R427-R429, R458, R465-R467, R492, R516-R518, R525-R531). -/

namespace Sys2Proof

/-- Place of a field: register address, low bit, width. -/
structure Fld where
  addr : Nat
  lo : Nat
  width : Nat
  deriving DecidableEq, Repr

/-- Access codes (R11). -/
inductive Acc where
  | rw | ro | w1c | sh | lk
  deriving DecidableEq, Repr

/-- One row of a field map: base address, arrays as (count, stride) with the outer first, bits, access, reset and the
range the map states. -/
structure Row where
  base : Nat
  dims : List (Nat × Nat)
  lo : Nat
  width : Nat
  acc : Acc
  reset : Nat
  rlo : Nat
  rhi : Nat
  deriving DecidableEq, Repr

/-! Fields `G` (R47, R116, R138, R163, R189, R208, R239, R282, R352, R411, R527). -/

namespace Reg.G
def PERIOD_US : Fld := ⟨0x100, 0, 8⟩
def BOUNDARY_CYCLES : Fld := ⟨0x100, 16, 10⟩
def SLICE_MARGIN : Fld := ⟨0x104, 0, 12⟩
def ADMIT_WAIT_MAX : Fld := ⟨0x104, 12, 8⟩
def OVERRUN_LIMIT : Fld := ⟨0x104, 20, 4⟩
def EPOCH_LO : Fld := ⟨0x110, 0, 32⟩
def EPOCH_HI : Fld := ⟨0x114, 0, 16⟩
def STITCH_PHASE : Fld := ⟨0x118, 0, 18⟩
def SYNC_STATE : Fld := ⟨0x120, 0, 3⟩
def HOLDOVER_SEEN : Fld := ⟨0x120, 8, 1⟩
def DETACHED_SEEN : Fld := ⟨0x120, 9, 1⟩
def LATE_COMMIT : Fld := ⟨0x120, 10, 1⟩
def OFFSET_NS : Fld := ⟨0x124, 0, 32⟩
def HOLDOVER_LIMIT_NS : Fld := ⟨0x128, 0, 16⟩
def COMMIT : Fld := ⟨0x130, 0, 1⟩
def HOLD : Fld := ⟨0x130, 1, 1⟩
def AT_EN : Fld := ⟨0x130, 2, 1⟩
def SHADOW_REJECT : Fld := ⟨0x130, 3, 1⟩
def COMMIT_AT_LO : Fld := ⟨0x134, 0, 32⟩
def COMMIT_AT_HI : Fld := ⟨0x138, 0, 16⟩
def COMMIT_EPOCH : Fld := ⟨0x13c, 0, 32⟩
def NPROBE_DEF : Fld := ⟨0x300, 0, 11⟩
def RERANK_DEF : Fld := ⟨0x300, 16, 13⟩
def PREFILTER_DEF : Fld := ⟨0x304, 0, 1⟩
def SKETCH_MAX_DEF : Fld := ⟨0x304, 8, 9⟩
def WALK_BEAM : Fld := ⟨0x308, 0, 8⟩
def WALK_VISITS : Fld := ⟨0x308, 8, 12⟩
def PROBE_HOLD : Fld := ⟨0x308, 20, 4⟩
def FANOUT_GRACE : Fld := ⟨0x308, 24, 8⟩
def PREFILTER_SRAM_MB : Fld := ⟨0x30c, 0, 8⟩
def CTX_FREE : Fld := ⟨0x310, 0, 10⟩
def ABORT_MISS : Fld := ⟨0x314, 0, 32⟩
def PREFILTER_SKIP : Fld := ⟨0x318, 0, 32⟩
def RERANK_NAN : Fld := ⟨0x31c, 0, 32⟩
def SORT_POOL_MB : Fld := ⟨0x320, 0, 6⟩
def COMPACT_TILES : Fld := ⟨0x340, 0, 8⟩
def COMPACT_MAX : Fld := ⟨0x340, 8, 8⟩
def TOMB_INDEX_MB : Fld := ⟨0x344, 0, 16⟩
def INSERTS_DONE : Fld := ⟨0x348, 0, 32⟩
def DELETES_DONE : Fld := ⟨0x34c, 0, 32⟩
def UPDATES_REFUSED : Fld := ⟨0x350, 0, 32⟩
def BATCH_LAG : Fld := ⟨0x354, 0, 32⟩
def COMPACT_ACTIVE : Fld := ⟨0x358, 0, 8⟩
def CLIP_LIMIT : Fld := ⟨0x360, 0, 16⟩
def SCALE_TAIL : Fld := ⟨0x364, 0, 12⟩
def TABLE_STAGE_MB : Fld := ⟨0x364, 16, 6⟩
def TABLES_OVER_LIMIT : Fld := ⟨0x368, 0, 32⟩
def QUERIES_ESCALATED : Fld := ⟨0x36c, 0, 32⟩
def ESC_SUPPRESSED : Fld := ⟨0x370, 0, 32⟩
def OFFSET_SAT : Fld := ⟨0x374, 0, 32⟩
def SCORE_SAT : Fld := ⟨0x378, 0, 32⟩
def MX_CLIP_BLOCKS : Fld := ⟨0x37c, 0, 32⟩
def FULLVEC_CLIP : Fld := ⟨0x380, 0, 32⟩
def NB_CLIP_LINES : Fld := ⟨0x384, 0, 32⟩
def NONFINITE_BLOCKS : Fld := ⟨0x388, 0, 32⟩
def ACC_SPILL_MB : Fld := ⟨0x390, 0, 6⟩
def SEQ_TABLE_BASE_LO : Fld := ⟨0x3a0, 0, 32⟩
def SEQ_TABLE_BASE_HI : Fld := ⟨0x3a4, 0, 20⟩
def SEQ_ACTIVE : Fld := ⟨0x3a8, 0, 10⟩
def ATTN_MERGE_KB : Fld := ⟨0x3ac, 0, 16⟩
def ATTN_PAGES_READ : Fld := ⟨0x3b0, 0, 32⟩
def ATTN_PAGES_SKIPPED : Fld := ⟨0x3b4, 0, 32⟩
def PREFETCH_ISSUED : Fld := ⟨0x3b8, 0, 32⟩
def PREFETCH_LATE : Fld := ⟨0x3bc, 0, 32⟩
def MERGE_ORPHAN : Fld := ⟨0x3c0, 0, 32⟩
def MERGE_DUP : Fld := ⟨0x3c4, 0, 32⟩
def EMB_TABLE_BASE_LO : Fld := ⟨0x400, 0, 32⟩
def EMB_TABLE_BASE_HI : Fld := ⟨0x404, 0, 20⟩
def HOT_MB : Fld := ⟨0x408, 0, 7⟩
def EMB_LOOKUPS : Fld := ⟨0x40c, 0, 32⟩
def HOT_HITS : Fld := ⟨0x410, 0, 32⟩
def HOT_SKIP : Fld := ⟨0x414, 0, 32⟩
def BAD_INDEX : Fld := ⟨0x418, 0, 32⟩
def UPD_LOST : Fld := ⟨0x41c, 0, 32⟩
def ROWS_APPLIED : Fld := ⟨0x420, 0, 32⟩
def LATE_CLOSE : Fld := ⟨0x424, 0, 1⟩
def ALLOC_STACKS : Fld := ⟨0x440, 0, 12⟩
def FREE_LOW_GB : Fld := ⟨0x444, 0, 8⟩
def FREE_HIGH_GB : Fld := ⟨0x444, 8, 8⟩
def MIG_PERIOD : Fld := ⟨0x448, 0, 8⟩
def PROMOTE_AT : Fld := ⟨0x448, 8, 8⟩
def MIG_SHARE : Fld := ⟨0x448, 16, 4⟩
def FLASH_STAGE_MB : Fld := ⟨0x44c, 0, 6⟩
def TIER_MAP_MB : Fld := ⟨0x450, 0, 16⟩
def FINE_POOL_MB : Fld := ⟨0x450, 16, 16⟩
def WB_MB : Fld := ⟨0x454, 0, 16⟩
def WB_FLUSH : Fld := ⟨0x454, 16, 16⟩
def JOURNAL_GB : Fld := ⟨0x458, 0, 16⟩
def JOURNAL_FLUSH : Fld := ⟨0x458, 16, 8⟩
def JOURNAL_DURABLE_LO : Fld := ⟨0x45c, 0, 32⟩
def JOURNAL_DURABLE_HI : Fld := ⟨0x460, 0, 16⟩
def GC_LOW : Fld := ⟨0x464, 0, 8⟩
def GC_URGENT : Fld := ⟨0x464, 8, 8⟩
def WEAR_GAP : Fld := ⟨0x464, 16, 16⟩
def READ_DISTURB_LIMIT : Fld := ⟨0x468, 0, 32⟩
def READ_RETRY_MAX : Fld := ⟨0x46c, 0, 8⟩
def PATROL_DAYS : Fld := ⟨0x46c, 8, 8⟩
def REBUILD_ORDER : Fld := ⟨0x470, 0, 32⟩
def SET_READY : Fld := ⟨0x474, 0, 8⟩
def REBUILD_DONE : Fld := ⟨0x474, 8, 1⟩
def MEM_SHORT : Fld := ⟨0x474, 9, 1⟩
def TIER_FULL : Fld := ⟨0x474, 10, 1⟩
def FREE_FRAMES : Fld := ⟨0x478, 0, 23⟩
def USER_GB : Fld := ⟨0x47c, 0, 16⟩
def FREE_SB_A : Fld := ⟨0x47c, 16, 8⟩
def FREE_SB_B : Fld := ⟨0x47c, 24, 8⟩
def PAGES_FETCHED : Fld := ⟨0x480, 0, 32⟩
def PAGES_EVICTED : Fld := ⟨0x484, 0, 32⟩
def MIG_CANCEL : Fld := ⟨0x488, 0, 32⟩
def PLACE_SPILL : Fld := ⟨0x48c, 0, 32⟩
def PAGES_STAGED : Fld := ⟨0x490, 0, 32⟩
def PARITY_REBUILDS : Fld := ⟨0x494, 0, 32⟩
def RUNS_TORN : Fld := ⟨0x498, 0, 32⟩
def VEC_REPLAYED : Fld := ⟨0x49c, 0, 32⟩
def REBUILD_MS : Fld := ⟨0x4a0, 0, 32⟩
def NODE_ADDR : Fld := ⟨0x4c0, 0, 14⟩
def MEMBER_STATE : Fld := ⟨0x4c0, 14, 2⟩
def JOIN_FAULT : Fld := ⟨0x4c0, 16, 4⟩
def COMP_ID : Fld := ⟨0x4c4, 0, 32⟩
def MAP_EPOCH : Fld := ⟨0x4c8, 0, 32⟩
def MAP_PREV_EPOCH : Fld := ⟨0x4cc, 0, 32⟩
def MAP_PENDING_EPOCH : Fld := ⟨0x4d0, 0, 32⟩
def MAP_LATE : Fld := ⟨0x4d4, 0, 1⟩
def MAP_LAG : Fld := ⟨0x4d4, 1, 1⟩
def QF_VID : Fld := ⟨0x4d8, 0, 12⟩
def RETX_US : Fld := ⟨0x4d8, 12, 8⟩
def RETX_MAX : Fld := ⟨0x4d8, 20, 4⟩
def RX_POOL_MB : Fld := ⟨0x4d8, 24, 6⟩
def MOVED_SENT : Fld := ⟨0x4dc, 0, 32⟩
def MOVED_REISSUED : Fld := ⟨0x4e0, 0, 32⟩
def FENCED_DROP : Fld := ⟨0x4e4, 0, 32⟩
def DEGRADED_SHARES : Fld := ⟨0x4e8, 0, 32⟩
def PARITY_PENDING : Fld := ⟨0x4ec, 0, 32⟩
def MAP_BASE_LO : Fld := ⟨0x4f0, 0, 32⟩
def MAP_BASE_HI : Fld := ⟨0x4f4, 0, 20⟩
def MAP_MB : Fld := ⟨0x4f4, 20, 12⟩
def CODE_AREA_LO : Fld := ⟨0x4f8, 0, 32⟩
def CODE_AREA_HI : Fld := ⟨0x4fc, 0, 20⟩
def PART_ID : Fld := ⟨0x0, 0, 16⟩
def STEPPING : Fld := ⟨0x0, 16, 8⟩
def SERIAL_LO : Fld := ⟨0x4, 0, 32⟩
def SERIAL_HI : Fld := ⟨0x8, 0, 32⟩
def FW_VERSION : Fld := ⟨0xc, 0, 16⟩
def COLL_TABLE_BASE_LO : Fld := ⟨0x10, 0, 32⟩
def COLL_TABLE_BASE_HI : Fld := ⟨0x14, 0, 20⟩
def SEARCH_STACKS : Fld := ⟨0x18, 0, 12⟩
def PTP_DOMAIN : Fld := ⟨0x1c, 0, 8⟩
def PORT_PRIO : Fld := ⟨0x1c, 8, 24⟩
def SEARCH_EN : Fld := ⟨0x20, 0, 1⟩
def EMB_EN : Fld := ⟨0x20, 1, 1⟩
def ATTN_EN : Fld := ⟨0x20, 2, 1⟩
def USER_ENGINE_EN : Fld := ⟨0x20, 3, 1⟩
end Reg.G

/-! Fields `Sorter` (R137, R530). -/

namespace Reg.Sorter
def ELEMENTS_LO (i : Nat) : Fld := ⟨0x700010 + 0x1000 * i, 0, 32⟩
def ELEMENTS_HI (i : Nat) : Fld := ⟨0x700014 + 0x1000 * i, 0, 32⟩
def DUP_DROP (i : Nat) : Fld := ⟨0x700018 + 0x1000 * i, 0, 32⟩
def NAN_DROP (i : Nat) : Fld := ⟨0x70001c + 0x1000 * i, 0, 32⟩
def NULL_DROP (i : Nat) : Fld := ⟨0x700020 + 0x1000 * i, 0, 32⟩
def EXT_PASSES (i : Nat) : Fld := ⟨0x700024 + 0x1000 * i, 0, 32⟩
def BOUND (i : Nat) : Fld := ⟨0x700028 + 0x1000 * i, 0, 10⟩
def COST_SCALE (i : Nat) : Fld := ⟨0x700030 + 0x1000 * i, 0, 9⟩
def STATE (i : Nat) : Fld := ⟨0x700034 + 0x1000 * i, 0, 2⟩
end Reg.Sorter

/-! Fields `Ver` (R164). -/

namespace Reg.Ver
def ROUTE_A_STATE (i : Nat) : Fld := ⟨0x10000 + 0x20 * i, 0, 2⟩
def ROUTE_B_STATE (i : Nat) : Fld := ⟨0x10000 + 0x20 * i, 2, 2⟩
def CB_A_STATE (i : Nat) : Fld := ⟨0x10000 + 0x20 * i, 4, 2⟩
def CB_B_STATE (i : Nat) : Fld := ⟨0x10000 + 0x20 * i, 6, 2⟩
def ROUTE_PINS_A (i : Nat) : Fld := ⟨0x10004 + 0x20 * i, 0, 16⟩
def ROUTE_PINS_B (i : Nat) : Fld := ⟨0x10004 + 0x20 * i, 16, 16⟩
def CB_PINS_A (i : Nat) : Fld := ⟨0x10008 + 0x20 * i, 0, 16⟩
def CB_PINS_B (i : Nat) : Fld := ⟨0x10008 + 0x20 * i, 16, 16⟩
def CB_REFS_A (i : Nat) : Fld := ⟨0x1000c + 0x20 * i, 0, 32⟩
def CB_REFS_B (i : Nat) : Fld := ⟨0x10010 + 0x20 * i, 0, 32⟩
def ROUTE_SWAP_EPOCH (i : Nat) : Fld := ⟨0x10014 + 0x20 * i, 0, 32⟩
def CB_SWAP_EPOCH (i : Nat) : Fld := ⟨0x10018 + 0x20 * i, 0, 32⟩
end Reg.Ver

/-! Fields `Core` (R207). -/

namespace Reg.Core
def COST_SCALE (i j : Nat) : Fld := ⟨0x600010 + 0x10000 * i + 0x1000 * j, 0, 9⟩
def STATE (i j : Nat) : Fld := ⟨0x600014 + 0x10000 * i + 0x1000 * j, 0, 2⟩
def SLICES_RUN (i j : Nat) : Fld := ⟨0x600018 + 0x10000 * i + 0x1000 * j, 0, 32⟩
def OVERRUNS (i j : Nat) : Fld := ⟨0x60001c + 0x10000 * i + 0x1000 * j, 0, 32⟩
def TILES_LOADED (i j : Nat) : Fld := ⟨0x600020 + 0x10000 * i + 0x1000 * j, 0, 32⟩
def SPILLS (i j : Nat) : Fld := ⟨0x600024 + 0x10000 * i + 0x1000 * j, 0, 32⟩
end Reg.Core

/-! Fields `Skive` (R257). -/

namespace Reg.Skive
def SKIVE_EN : Fld := ⟨0x3d0, 0, 1⟩
def BLOCKS_CODED : Fld := ⟨0x3d4, 0, 32⟩
def BLOCKS_RAW : Fld := ⟨0x3d8, 0, 32⟩
def BLOCKS_ZERO : Fld := ⟨0x3dc, 0, 32⟩
def UNITS_OUT : Fld := ⟨0x3e0, 0, 32⟩
def GROUPS_PLAIN : Fld := ⟨0x3e4, 0, 32⟩
def RETRY_OK : Fld := ⟨0x3e8, 0, 32⟩
def BLOCKS_POISONED : Fld := ⟨0x3ec, 0, 32⟩
def ENC_MISMATCH : Fld := ⟨0x3f0, 0, 32⟩
def ENC_CANCEL : Fld := ⟨0x3f4, 0, 32⟩
def PROT_SKIP : Fld := ⟨0x3f8, 0, 32⟩
end Reg.Skive

/-! Fields `SkRegion` (R258). -/

namespace Reg.SkRegion
def EN (i : Nat) : Fld := ⟨0x18000 + 0x10 * i, 0, 1⟩
def BASE (i : Nat) : Fld := ⟨0x18000 + 0x10 * i, 16, 16⟩
def BASE_H (i : Nat) : Fld := ⟨0x18004 + 0x10 * i, 0, 20⟩
def GROUPS (i : Nat) : Fld := ⟨0x18008 + 0x10 * i, 0, 32⟩
end Reg.SkRegion

/-! Fields `EmbVer` (R283). -/

namespace Reg.EmbVer
def SLOT_A_STATE (i : Nat) : Fld := ⟨0x19000 + 0x10 * i, 0, 2⟩
def SLOT_B_STATE (i : Nat) : Fld := ⟨0x19000 + 0x10 * i, 2, 2⟩
def PINS_A (i : Nat) : Fld := ⟨0x19004 + 0x10 * i, 0, 16⟩
def PINS_B (i : Nat) : Fld := ⟨0x19004 + 0x10 * i, 16, 16⟩
def SWAP_EPOCH (i : Nat) : Fld := ⟨0x19008 + 0x10 * i, 0, 32⟩
def STEP_OPEN (i : Nat) : Fld := ⟨0x1900c + 0x10 * i, 0, 32⟩
end Reg.EmbVer

/-! Fields `KS` (R48, R317). -/

namespace Reg.KS
def NB_EN (i : Nat) : Fld := ⟨0x200010 + 0x40000 * i, 0, 1⟩
def SCRATCH_LINES (i : Nat) : Fld := ⟨0x200010 + 0x40000 * i, 16, 13⟩
def COST_SCALE (i : Nat) : Fld := ⟨0x200014 + 0x40000 * i, 0, 9⟩
def SCRATCH_BASE (i : Nat) : Fld := ⟨0x200018 + 0x40000 * i, 0, 20⟩
def TEMP_C (i : Nat) : Fld := ⟨0x200020 + 0x40000 * i, 0, 8⟩
def CAPPED (i : Nat) : Fld := ⟨0x200020 + 0x40000 * i, 8, 1⟩
def HOT_STOP (i : Nat) : Fld := ⟨0x200020 + 0x40000 * i, 9, 1⟩
def LIB_FAULT (i : Nat) : Fld := ⟨0x200020 + 0x40000 * i, 10, 1⟩
def PREEMPTS (i : Nat) : Fld := ⟨0x200024 + 0x40000 * i, 0, 32⟩
def FORCED_PREEMPTS (i : Nat) : Fld := ⟨0x200028 + 0x40000 * i, 0, 32⟩
def OUTER_CORRECTED (i : Nat) : Fld := ⟨0x20002c + 0x40000 * i, 0, 32⟩
def POISON_LINES_OUT (i : Nat) : Fld := ⟨0x200030 + 0x40000 * i, 0, 32⟩
def NAW_WAITS (i : Nat) : Fld := ⟨0x200034 + 0x40000 * i, 0, 32⟩
def PC_RETIRED_LO (i : Nat) : Fld := ⟨0x200038 + 0x40000 * i, 0, 32⟩
def PC_RETIRED_HI (i : Nat) : Fld := ⟨0x20003c + 0x40000 * i, 0, 32⟩
def COMMIT (i : Nat) : Fld := ⟨0x200000 + 0x40000 * i, 0, 1⟩
def PENDING_DIFF (i : Nat) : Fld := ⟨0x200000 + 0x40000 * i, 1, 1⟩
def SHADOW_REJECT (i : Nat) : Fld := ⟨0x200000 + 0x40000 * i, 2, 1⟩
def BLOCK_COMMIT_EPOCH (i : Nat) : Fld := ⟨0x200004 + 0x40000 * i, 0, 32⟩
end Reg.KS

/-! Fields `Lib` (R318). -/

namespace Reg.Lib
def VALID (i j : Nat) : Fld := ⟨0x200800 + 0x40000 * i + 0x4 * j, 0, 1⟩
def LEN_M1 (i j : Nat) : Fld := ⟨0x200800 + 0x40000 * i + 0x4 * j, 1, 6⟩
def UCLK_PER_LINE (i j : Nat) : Fld := ⟨0x200800 + 0x40000 * i + 0x4 * j, 8, 8⟩
def INSTR (i j k : Nat) : Fld := ⟨0x201000 + 0x40000 * i + 0x100 * j + 0x4 * k, 0, 32⟩
end Reg.Lib

/-! Fields `Flash` (R353). -/

namespace Reg.Flash
def TARGETS (i : Nat) : Fld := ⟨0x300010 + 0x2000 * i, 0, 4⟩
def LUNS (i : Nat) : Fld := ⟨0x300010 + 0x2000 * i, 4, 2⟩
def PLANES (i : Nat) : Fld := ⟨0x300010 + 0x2000 * i, 6, 2⟩
def STATE (i : Nat) : Fld := ⟨0x300010 + 0x2000 * i, 8, 2⟩
def CH_EN (i : Nat) : Fld := ⟨0x300014 + 0x2000 * i, 0, 1⟩
def READS (i : Nat) : Fld := ⟨0x300018 + 0x2000 * i, 0, 32⟩
def RETRY_READS (i : Nat) : Fld := ⟨0x30001c + 0x2000 * i, 0, 32⟩
def SOFT_DECODES (i : Nat) : Fld := ⟨0x300020 + 0x2000 * i, 0, 32⟩
def UNCORRECTABLE (i : Nat) : Fld := ⟨0x300024 + 0x2000 * i, 0, 32⟩
def PROGRAM_FAILS (i : Nat) : Fld := ⟨0x300028 + 0x2000 * i, 0, 16⟩
def ERASE_FAILS (i : Nat) : Fld := ⟨0x300028 + 0x2000 * i, 16, 16⟩
def BLOCKS_RETIRED (i : Nat) : Fld := ⟨0x30002c + 0x2000 * i, 0, 16⟩
def SPARES_LEFT (i : Nat) : Fld := ⟨0x30002c + 0x2000 * i, 16, 16⟩
def ERASE_MIN (i : Nat) : Fld := ⟨0x300030 + 0x2000 * i, 0, 16⟩
def ERASE_MAX (i : Nat) : Fld := ⟨0x300030 + 0x2000 * i, 16, 16⟩
end Reg.Flash

/-! Fields `Link` (R48, R378). -/

namespace Reg.Link
def LINK_STATE : Fld := ⟨0x800010, 0, 3⟩
def HALF_RETIRED : Fld := ⟨0x800010, 3, 1⟩
def LOW_HALF : Fld := ⟨0x800010, 4, 1⟩
def SNOOP_RETRY : Fld := ⟨0x800014, 0, 4⟩
def RETRAIN_MAX_US : Fld := ⟨0x800014, 8, 8⟩
def LANE_ERR_LIMIT : Fld := ⟨0x800014, 16, 16⟩
def HINT_EN : Fld := ⟨0x800018, 0, 1⟩
def FLIT_REPLAYS : Fld := ⟨0x800020, 0, 32⟩
def SNOOP_LATE : Fld := ⟨0x800024, 0, 32⟩
def BACK_INVAL : Fld := ⟨0x800028, 0, 32⟩
def ACCESS_ERRORS : Fld := ⟨0x80002c, 0, 32⟩
def PROTO_ERRORS : Fld := ⟨0x800030, 0, 32⟩
def HINT_DROPPED : Fld := ⟨0x800034, 0, 16⟩
def HINT_DECLINED : Fld := ⟨0x800034, 16, 16⟩
def RECLAIM_POISONED : Fld := ⟨0x800038, 0, 32⟩
def DESC_POISONED : Fld := ⟨0x80003c, 0, 32⟩
def AGENT_KILL : Fld := ⟨0x800040, 0, 7⟩
def AGENT_REVIVE : Fld := ⟨0x800044, 0, 7⟩
def RECLAIM_ACTIVE : Fld := ⟨0x800048, 0, 1⟩
def COMMIT : Fld := ⟨0x800000, 0, 1⟩
def PENDING_DIFF : Fld := ⟨0x800000, 1, 1⟩
def SHADOW_REJECT : Fld := ⟨0x800000, 2, 1⟩
def BLOCK_COMMIT_EPOCH : Fld := ⟨0x800004, 0, 32⟩
end Reg.Link

/-! Fields `Agent` (R379). -/

namespace Reg.Agent
def CLASS (i : Nat) : Fld := ⟨0x800400 + 0x8 * i, 0, 2⟩
def COMPAT (i : Nat) : Fld := ⟨0x800400 + 0x8 * i, 2, 1⟩
def STATE (i : Nat) : Fld := ⟨0x800400 + 0x8 * i, 3, 2⟩
def LINES_HELD (i : Nat) : Fld := ⟨0x800404 + 0x8 * i, 0, 32⟩
end Reg.Agent

/-! Fields `Ring` (R380). -/

namespace Reg.Ring
def EN (i j : Nat) : Fld := ⟨0x810000 + 0x200 * i + 0x40 * j, 0, 1⟩
def WORK_LOG2 (i j : Nat) : Fld := ⟨0x810000 + 0x200 * i + 0x40 * j, 1, 5⟩
def COMP_LOG2 (i j : Nat) : Fld := ⟨0x810000 + 0x200 * i + 0x40 * j, 6, 5⟩
def WORK_BASE (i j : Nat) : Fld := ⟨0x810008 + 0x200 * i + 0x40 * j, 0, 32⟩
def WORK_BASE_H (i j : Nat) : Fld := ⟨0x81000c + 0x200 * i + 0x40 * j, 0, 20⟩
def COMP_BASE (i j : Nat) : Fld := ⟨0x810010 + 0x200 * i + 0x40 * j, 0, 32⟩
def COMP_BASE_H (i j : Nat) : Fld := ⟨0x810014 + 0x200 * i + 0x40 * j, 0, 20⟩
def CTRL_BASE (i j : Nat) : Fld := ⟨0x810018 + 0x200 * i + 0x40 * j, 0, 32⟩
def CTRL_BASE_H (i j : Nat) : Fld := ⟨0x81001c + 0x200 * i + 0x40 * j, 0, 20⟩
def RING_BUSY (i j : Nat) : Fld := ⟨0x810020 + 0x200 * i + 0x40 * j, 0, 1⟩
def RING_FAULT (i j : Nat) : Fld := ⟨0x810020 + 0x200 * i + 0x40 * j, 1, 1⟩
def COMP_WAIT (i j : Nat) : Fld := ⟨0x810020 + 0x200 * i + 0x40 * j, 2, 1⟩
def RING_CFG_ERR (i j : Nat) : Fld := ⟨0x810020 + 0x200 * i + 0x40 * j, 3, 1⟩
def TAKEN (i j : Nat) : Fld := ⟨0x810024 + 0x200 * i + 0x40 * j, 0, 32⟩
end Reg.Ring

/-! Fields `Port` (R48, R412, R427). -/

namespace Reg.Port
def PORT_STATE (i : Nat) : Fld := ⟨0x400010 + 0x10000 * i, 0, 2⟩
def PORT_EN (i : Nat) : Fld := ⟨0x400010 + 0x10000 * i, 2, 1⟩
def PMD (i : Nat) : Fld := ⟨0x400010 + 0x10000 * i, 3, 1⟩
def AN_EN (i : Nat) : Fld := ⟨0x400010 + 0x10000 * i, 4, 1⟩
def FEC_CORRECTED (i : Nat) : Fld := ⟨0x400014 + 0x10000 * i, 0, 32⟩
def FEC_UNCORRECTED (i : Nat) : Fld := ⟨0x400018 + 0x10000 * i, 0, 32⟩
def FRAMES_TX (i : Nat) : Fld := ⟨0x40001c + 0x10000 * i, 0, 32⟩
def FRAMES_RX (i : Nat) : Fld := ⟨0x400020 + 0x10000 * i, 0, 32⟩
def RETX (i : Nat) : Fld := ⟨0x400024 + 0x10000 * i, 0, 32⟩
def RX_DROP (i : Nat) : Fld := ⟨0x400028 + 0x10000 * i, 0, 32⟩
def CYCLE_OFFSET_NS (i : Nat) : Fld := ⟨0x400100 + 0x10000 * i, 0, 18⟩
def GATE_COUNT (i : Nat) : Fld := ⟨0x400100 + 0x10000 * i, 24, 7⟩
def GATE_INDEX (i : Nat) : Fld := ⟨0x400104 + 0x10000 * i, 0, 6⟩
def GATE_CFG_ERR (i : Nat) : Fld := ⟨0x400104 + 0x10000 * i, 8, 1⟩
def COMMIT_OVERRUN (i : Nat) : Fld := ⟨0x400108 + 0x10000 * i, 0, 32⟩
def COMMIT (i : Nat) : Fld := ⟨0x400000 + 0x10000 * i, 0, 1⟩
def PENDING_DIFF (i : Nat) : Fld := ⟨0x400000 + 0x10000 * i, 1, 1⟩
def SHADOW_REJECT (i : Nat) : Fld := ⟨0x400000 + 0x10000 * i, 2, 1⟩
def BLOCK_COMMIT_EPOCH (i : Nat) : Fld := ⟨0x400004 + 0x10000 * i, 0, 32⟩
end Reg.Port

/-! Fields `Egress` (R428). -/

namespace Reg.Egress
def SHAPE_EN (i j : Nat) : Fld := ⟨0x400200 + 0x10000 * i + 0x20 * j, 0, 1⟩
def RESET_FULL (i j : Nat) : Fld := ⟨0x400200 + 0x10000 * i + 0x20 * j, 1, 1⟩
def WEIGHT (i j : Nat) : Fld := ⟨0x400200 + 0x10000 * i + 0x20 * j, 8, 8⟩
def GUARD_FRAME_B (i j : Nat) : Fld := ⟨0x400200 + 0x10000 * i + 0x20 * j, 16, 14⟩
def IDLE_SLOPE (i j : Nat) : Fld := ⟨0x400204 + 0x10000 * i + 0x20 * j, 0, 18⟩
def SEND_SLOPE (i j : Nat) : Fld := ⟨0x400208 + 0x10000 * i + 0x20 * j, 0, 18⟩
def BURST_B (i j : Nat) : Fld := ⟨0x40020c + 0x10000 * i + 0x20 * j, 0, 24⟩
def CREDIT (i j : Nat) : Fld := ⟨0x400210 + 0x10000 * i + 0x20 * j, 0, 32⟩
def GUARD_NS (i j : Nat) : Fld := ⟨0x400214 + 0x10000 * i + 0x20 * j, 0, 10⟩
def FRAMES_SENT (i j : Nat) : Fld := ⟨0x400218 + 0x10000 * i + 0x20 * j, 0, 32⟩
def GUARD_HELD (i j : Nat) : Fld := ⟨0x40021c + 0x10000 * i + 0x20 * j, 0, 16⟩
def OVERSIZE_HELD (i j : Nat) : Fld := ⟨0x40021c + 0x10000 * i + 0x20 * j, 16, 16⟩
end Reg.Egress

/-! Fields `Gate` (R429). -/

namespace Reg.Gate
def GATE_MASK (i j : Nat) : Fld := ⟨0x400400 + 0x10000 * i + 0x8 * j, 0, 8⟩
def DURATION_NS (i j : Nat) : Fld := ⟨0x400404 + 0x10000 * i + 0x8 * j, 0, 18⟩
end Reg.Gate

/-! Fields `Log` (R458). -/

namespace Reg.Log
def SEQ (i : Nat) : Fld := ⟨0xa01000 + 0x20 * i, 0, 32⟩
def CLASS (i : Nat) : Fld := ⟨0xa01004 + 0x20 * i, 0, 8⟩
def SEVERITY (i : Nat) : Fld := ⟨0xa01004 + 0x20 * i, 8, 2⟩
def DOMAIN (i : Nat) : Fld := ⟨0xa01004 + 0x20 * i, 10, 6⟩
def SOURCE_KIND (i : Nat) : Fld := ⟨0xa01004 + 0x20 * i, 16, 8⟩
def EPOCH (i : Nat) : Fld := ⟨0xa01008 + 0x20 * i, 0, 32⟩
def EPOCH_H (i : Nat) : Fld := ⟨0xa0100c + 0x20 * i, 0, 16⟩
def SOURCE_INDEX (i : Nat) : Fld := ⟨0xa0100c + 0x20 * i, 16, 16⟩
def ADDRESS (i : Nat) : Fld := ⟨0xa01010 + 0x20 * i, 0, 32⟩
def ADDRESS_H (i : Nat) : Fld := ⟨0xa01014 + 0x20 * i, 0, 20⟩
def DETAIL (i : Nat) : Fld := ⟨0xa01018 + 0x20 * i, 0, 32⟩
def DETAIL_H (i : Nat) : Fld := ⟨0xa0101c + 0x20 * i, 0, 32⟩
end Reg.Log

/-! Fields `Ras` (R465). -/

namespace Reg.Ras
def LOG_HEAD : Fld := ⟨0xa00000, 0, 32⟩
def LOG_CORRECTED : Fld := ⟨0xa00004, 0, 1⟩
def RESET_AUTO : Fld := ⟨0xa00004, 1, 1⟩
def PC_PERM_LIMIT : Fld := ⟨0xa00008, 0, 8⟩
def CH_PERM_LIMIT : Fld := ⟨0xa00008, 8, 8⟩
def PERM_WINDOW_LOG2 : Fld := ⟨0xa00008, 16, 5⟩
def WEDGE_STITCHES : Fld := ⟨0xa00008, 24, 8⟩
def SCRUB_HOURS : Fld := ⟨0xa0000c, 0, 8⟩
def EYE_MIN_MV : Fld := ⟨0xa0000c, 8, 8⟩
def EYE_MIN_MUI : Fld := ⟨0xa0000c, 16, 8⟩
def FAB_LANE_LIMIT : Fld := ⟨0xa00010, 0, 16⟩
def D2D_CRC_LIMIT : Fld := ⟨0xa00010, 16, 16⟩
def ACCESS_ERR_COUNT : Fld := ⟨0xa00014, 0, 32⟩
def POISON_CREATED : Fld := ⟨0xa00018, 0, 32⟩
def POISON_CONSUMED : Fld := ⟨0xa0001c, 0, 32⟩
def TRANSIENT_COUNT : Fld := ⟨0xa00020, 0, 32⟩
def PERM_EVENTS : Fld := ⟨0xa00024, 0, 32⟩
def RECOVERY_RESTARTS : Fld := ⟨0xa00028, 0, 32⟩
def LOG_LOST : Fld := ⟨0xa0002c, 0, 32⟩
def DROOP_EVENTS : Fld := ⟨0xa00030, 0, 32⟩
def DIR_RECOVERED : Fld := ⟨0xa00034, 0, 32⟩
def LOST_SECTORS : Fld := ⟨0xa00038, 0, 32⟩
def TJ_C : Fld := ⟨0xa0003c, 0, 8⟩
def TSTACK_MAX_C : Fld := ⟨0xa0003c, 8, 8⟩
def ADMIT_HOLD : Fld := ⟨0xa0003c, 16, 1⟩
def THERM_TRIP : Fld := ⟨0xa0003c, 17, 1⟩
def WEDGED : Fld := ⟨0xa0003c, 18, 1⟩
def D2D_SPARES_A : Fld := ⟨0xa00040, 0, 3⟩
def D2D_SPARES_B : Fld := ⟨0xa00040, 4, 3⟩
end Reg.Ras

/-! Fields `Stack` (R466). -/

namespace Reg.Stack
def PC_RETIRED_LO (i : Nat) : Fld := ⟨0x100010 + 0x10000 * i, 0, 32⟩
def PC_RETIRED_HI (i : Nat) : Fld := ⟨0x100014 + 0x10000 * i, 0, 32⟩
def PC_SUSPECT_LO (i : Nat) : Fld := ⟨0x100018 + 0x10000 * i, 0, 32⟩
def PC_SUSPECT_HI (i : Nat) : Fld := ⟨0x10001c + 0x10000 * i, 0, 32⟩
def COPY_PC (i : Nat) : Fld := ⟨0x100020 + 0x10000 * i, 0, 6⟩
def COPY_ACTIVE (i : Nat) : Fld := ⟨0x100020 + 0x10000 * i, 6, 1⟩
def OUTER_CORRECTED (i : Nat) : Fld := ⟨0x100024 + 0x10000 * i, 0, 32⟩
def UNCORRECTABLE (i : Nat) : Fld := ⟨0x100028 + 0x10000 * i, 0, 32⟩
def HARD_LINES (i : Nat) : Fld := ⟨0x10002c + 0x10000 * i, 0, 32⟩
def INNER_CORRECTED (i : Nat) : Fld := ⟨0x100030 + 0x10000 * i, 0, 32⟩
end Reg.Stack

/-! Fields `Awl` (R467). -/

namespace Reg.Awl
def AWL_PERIOD : Fld := ⟨0xb00800, 0, 16⟩
def AWL_MAX_LEVEL : Fld := ⟨0xb00800, 16, 3⟩
def AWL_MIN_LEVEL : Fld := ⟨0xb00800, 19, 3⟩
def AWL_CONFIRM : Fld := ⟨0xb00800, 22, 4⟩
def AWL_EN : Fld := ⟨0xb00800, 26, 1⟩
def AWL_RUN : Fld := ⟨0xb00804, 0, 32⟩
def AWL_FAILS : Fld := ⟨0xb00808, 0, 32⟩
def MARGIN_LEVEL (i : Nat) : Fld := ⟨0xb00900 + 0x8 * i, 0, 3⟩
def TESTED (i : Nat) : Fld := ⟨0xb00900 + 0x8 * i, 3, 1⟩
def LAST_PASS_EPOCH (i : Nat) : Fld := ⟨0xb00904 + 0x8 * i, 0, 32⟩
end Reg.Awl

/-! Fields `Start` (R492). -/

namespace Reg.Start
def START_STATE : Fld := ⟨0xb00000, 0, 3⟩
def SLOT_USED : Fld := ⟨0xb00000, 3, 1⟩
def TRY_FAILED : Fld := ⟨0xb00000, 4, 1⟩
def HALT_CAUSE : Fld := ⟨0xb00000, 8, 4⟩
def IMAGE_ID_LO : Fld := ⟨0xb00004, 0, 32⟩
def IMAGE_ID_HI : Fld := ⟨0xb00008, 0, 32⟩
def SECURITY_VERSION : Fld := ⟨0xb0000c, 0, 32⟩
def WAVES_RUN : Fld := ⟨0xb00010, 0, 4⟩
def WAVE_SPLITS : Fld := ⟨0xb00010, 8, 4⟩
def SELFTEST_MS : Fld := ⟨0xb00014, 0, 16⟩
def HS1_EPOCH : Fld := ⟨0xb00018, 0, 32⟩
def HS2_EPOCH : Fld := ⟨0xb0001c, 0, 32⟩
def FULL_EPOCH : Fld := ⟨0xb00020, 0, 32⟩
def HS1_SETS : Fld := ⟨0xb00024, 0, 8⟩
def BIST_POWER_W : Fld := ⟨0xb00024, 16, 11⟩
def HS_UNRERANKED : Fld := ⟨0xb00028, 0, 32⟩
def HS_REFUSED : Fld := ⟨0xb0002c, 0, 32⟩
def BIST_RESULT (i : Nat) : Fld := ⟨0xb02000 + 0x4 * i, 0, 2⟩
def RECORDED (i : Nat) : Fld := ⟨0xb02000 + 0x4 * i, 2, 1⟩
def STACK_COVERAGE (i : Nat) : Fld := ⟨0xb00600 + 0x8 * i, 0, 16⟩
def STACK_MS (i : Nat) : Fld := ⟨0xb00600 + 0x8 * i, 16, 16⟩
def ROWS_REPAIRED (i : Nat) : Fld := ⟨0xb00604 + 0x8 * i, 0, 16⟩
def PC_FAILED (i : Nat) : Fld := ⟨0xb00604 + 0x8 * i, 16, 6⟩
def SRAM_COVERAGE : Fld := ⟨0xb00680, 0, 16⟩
def SRAM_MS : Fld := ⟨0xb00680, 16, 16⟩
def SRAM_ROWS_REPAIRED : Fld := ⟨0xb00684, 0, 16⟩
def CACHE_WAYS_OFF : Fld := ⟨0xb00684, 16, 4⟩
def FLASH_RESULT (i : Nat) : Fld := ⟨0xb00700 + 0x4 * i, 0, 2⟩
end Reg.Start

/-! Fields `Sec` (R48, R516). -/

namespace Reg.Sec
def ADMIT_MODE : Fld := ⟨0x900010, 0, 1⟩
def ATTEST_STRICT : Fld := ⟨0x900010, 1, 1⟩
def IMPORT_EN : Fld := ⟨0x900010, 2, 1⟩
def ATTEST_MIN_S : Fld := ⟨0x900014, 0, 16⟩
def SEC_CFG_ERR : Fld := ⟨0x900018, 0, 1⟩
def ATTEST_READY : Fld := ⟨0x900018, 1, 1⟩
def FUSE_GEN : Fld := ⟨0x90001c, 0, 11⟩
def LEAF_NEXT : Fld := ⟨0x900020, 0, 21⟩
def SEC_FLOOR : Fld := ⟨0x900024, 0, 7⟩
def IMG_KEY_VALID : Fld := ⟨0x900024, 8, 4⟩
def IMG_KEY_REVOKED : Fld := ⟨0x900024, 12, 4⟩
def IMG_KEY_USED : Fld := ⟨0x900024, 16, 2⟩
def ATTEST_COUNT : Fld := ⟨0x900028, 0, 32⟩
def TAG_MISS : Fld := ⟨0x90002c, 0, 32⟩
def COMMIT : Fld := ⟨0x900000, 0, 1⟩
def PENDING_DIFF : Fld := ⟨0x900000, 1, 1⟩
def SHADOW_REJECT : Fld := ⟨0x900000, 2, 1⟩
def BLOCK_COMMIT_EPOCH : Fld := ⟨0x900004, 0, 32⟩
end Reg.Sec

/-! Fields `Dom` (R517). -/

namespace Reg.Dom
def EN (i : Nat) : Fld := ⟨0x901000 + 0x20 * i, 0, 1⟩
def KEY_LOADED (i : Nat) : Fld := ⟨0x901000 + 0x20 * i, 1, 1⟩
def CTX_SHARE (i : Nat) : Fld := ⟨0x901000 + 0x20 * i, 8, 10⟩
def SORT_SIXTEENTHS (i : Nat) : Fld := ⟨0x901000 + 0x20 * i, 18, 5⟩
def MATRIX_MASK (i : Nat) : Fld := ⟨0x901004 + 0x20 * i, 0, 16⟩
def TILE_MASK_LO (i : Nat) : Fld := ⟨0x901008 + 0x20 * i, 0, 32⟩
def TILE_MASK_HI (i : Nat) : Fld := ⟨0x90100c + 0x20 * i, 0, 32⟩
def DOMAIN_FAULTS (i : Nat) : Fld := ⟨0x901010 + 0x20 * i, 0, 32⟩
def SHARE_REFUSED (i : Nat) : Fld := ⟨0x901014 + 0x20 * i, 0, 32⟩
end Reg.Dom

/-! Fields `Region` (R518). -/

namespace Reg.Region
def EN (i : Nat) : Fld := ⟨0x904000 + 0x10 * i, 0, 1⟩
def DOMAIN (i : Nat) : Fld := ⟨0x904000 + 0x10 * i, 1, 6⟩
def ENC (i : Nat) : Fld := ⟨0x904000 + 0x10 * i, 7, 1⟩
def BASE (i : Nat) : Fld := ⟨0x904000 + 0x10 * i, 16, 16⟩
def BASE_H (i : Nat) : Fld := ⟨0x904004 + 0x10 * i, 0, 20⟩
def GRANULES (i : Nat) : Fld := ⟨0x904008 + 0x10 * i, 0, 32⟩
end Reg.Region

/-! Fields `DomCtr` (R528). -/

namespace Reg.DomCtr
def JOBS_IN_FLIGHT (i : Nat) : Fld := ⟨0x600 + 0x10 * i, 0, 16⟩
def DRAIN_JOBS (i : Nat) : Fld := ⟨0x604 + 0x10 * i, 0, 16⟩
def COMPLETIONS (i : Nat) : Fld := ⟨0x608 + 0x10 * i, 0, 32⟩
def REFUSED_COUNT (i : Nat) : Fld := ⟨0x60c + 0x10 * i, 0, 32⟩
end Reg.DomCtr

/-! Fields `Tile` (R529). -/

namespace Reg.Tile
def COST_SCALE (i : Nat) : Fld := ⟨0x500010 + 0x400 * i, 0, 9⟩
def STATE (i : Nat) : Fld := ⟨0x500014 + 0x400 * i, 0, 2⟩
def SLICES_RUN (i : Nat) : Fld := ⟨0x500018 + 0x400 * i, 0, 32⟩
def OVERRUNS (i : Nat) : Fld := ⟨0x50001c + 0x400 * i, 0, 32⟩
def LINES_READ (i : Nat) : Fld := ⟨0x500020 + 0x400 * i, 0, 32⟩
def COMPACT_SLICES (i : Nat) : Fld := ⟨0x500024 + 0x400 * i, 0, 32⟩
end Reg.Tile

/-! Fields `Mb` (R531). -/

namespace Reg.Mb
def MB_CMD : Fld := ⟨0xc00000, 0, 8⟩
def MB_BUSY : Fld := ⟨0xc00004, 0, 1⟩
def MB_RESULT : Fld := ⟨0xc00004, 8, 8⟩
def MB_IN_LEN : Fld := ⟨0xc00008, 0, 17⟩
def MB_OUT_LEN : Fld := ⟨0xc0000c, 0, 17⟩
def MB_SEQ : Fld := ⟨0xc00010, 0, 32⟩
def MB_ARG0 : Fld := ⟨0xc00014, 0, 32⟩
def MB_ARG1 : Fld := ⟨0xc00018, 0, 32⟩
def MB_DATA (i : Nat) : Fld := ⟨0xc10000 + 0x4 * i, 0, 32⟩
end Reg.Mb

/-- Field maps of the global window (R525). -/
def globalRows0 : List Row := [
  ⟨0x100, [], 0, 8, .lk, 0x14, 10, 200⟩,
  ⟨0x100, [], 16, 10, .ro, 0x28a, 0, 1023⟩,
  ⟨0x104, [], 0, 12, .lk, 0x208, 26, 4095⟩,
  ⟨0x104, [], 12, 8, .lk, 0x10, 1, 255⟩,
  ⟨0x104, [], 20, 4, .lk, 0x4, 1, 15⟩,
  ⟨0x110, [], 0, 32, .ro, 0x0, 0, 4294967295⟩,
  ⟨0x114, [], 0, 16, .ro, 0x0, 0, 65535⟩,
  ⟨0x118, [], 0, 18, .ro, 0x0, 0, 262143⟩,
  ⟨0x120, [], 0, 3, .ro, 0x0, 0, 7⟩,
  ⟨0x120, [], 8, 1, .w1c, 0x0, 0, 1⟩,
  ⟨0x120, [], 9, 1, .w1c, 0x0, 0, 1⟩,
  ⟨0x120, [], 10, 1, .w1c, 0x0, 0, 1⟩,
  ⟨0x124, [], 0, 32, .ro, 0x0, 0, 4294967295⟩,
  ⟨0x128, [], 0, 16, .lk, 0x3e8, 0, 65535⟩,
  ⟨0x130, [], 0, 1, .rw, 0x0, 0, 1⟩,
  ⟨0x130, [], 1, 1, .rw, 0x0, 0, 1⟩,
  ⟨0x130, [], 2, 1, .rw, 0x0, 0, 1⟩,
  ⟨0x130, [], 3, 1, .w1c, 0x0, 0, 1⟩,
  ⟨0x134, [], 0, 32, .rw, 0x0, 0, 4294967295⟩,
  ⟨0x138, [], 0, 16, .rw, 0x0, 0, 65535⟩,
  ⟨0x13c, [], 0, 32, .ro, 0x0, 0, 4294967295⟩,
  ⟨0x300, [], 0, 11, .lk, 0x15, 1, 1024⟩,
  ⟨0x300, [], 16, 13, .lk, 0x100, 1, 4096⟩,
  ⟨0x304, [], 0, 1, .lk, 0x0, 0, 1⟩,
  ⟨0x304, [], 8, 9, .lk, 0x60, 0, 256⟩,
  ⟨0x308, [], 0, 8, .lk, 0x40, 16, 255⟩,
  ⟨0x308, [], 8, 12, .lk, 0x100, 16, 4095⟩,
  ⟨0x308, [], 20, 4, .lk, 0x2, 0, 15⟩,
  ⟨0x308, [], 24, 8, .lk, 0x10, 8, 255⟩,
  ⟨0x30c, [], 0, 8, .lk, 0x10, 0, 48⟩,
  ⟨0x310, [], 0, 10, .ro, 0x200, 0, 1023⟩,
  ⟨0x314, [], 0, 32, .ro, 0x0, 0, 4294967295⟩,
  ⟨0x318, [], 0, 32, .ro, 0x0, 0, 4294967295⟩,
  ⟨0x31c, [], 0, 32, .ro, 0x0, 0, 4294967295⟩,
  ⟨0x320, [], 0, 6, .lk, 0x10, 4, 48⟩,
  ⟨0x340, [], 0, 8, .lk, 0x2, 0, 16⟩,
  ⟨0x340, [], 8, 8, .lk, 0x20, 1, 255⟩,
  ⟨0x344, [], 0, 16, .lk, 0x100, 0, 65535⟩,
  ⟨0x348, [], 0, 32, .ro, 0x0, 0, 4294967295⟩,
  ⟨0x34c, [], 0, 32, .ro, 0x0, 0, 4294967295⟩]

/-- The same, continued. -/
def globalRows1 : List Row := [
  ⟨0x350, [], 0, 32, .ro, 0x0, 0, 4294967295⟩,
  ⟨0x354, [], 0, 32, .ro, 0x0, 0, 4294967295⟩,
  ⟨0x358, [], 0, 8, .ro, 0x0, 0, 255⟩,
  ⟨0x10000, [(1024, 0x20)], 0, 2, .ro, 0x0, 0, 3⟩,
  ⟨0x10000, [(1024, 0x20)], 2, 2, .ro, 0x0, 0, 3⟩,
  ⟨0x10000, [(1024, 0x20)], 4, 2, .ro, 0x0, 0, 3⟩,
  ⟨0x10000, [(1024, 0x20)], 6, 2, .ro, 0x0, 0, 3⟩,
  ⟨0x10004, [(1024, 0x20)], 0, 16, .ro, 0x0, 0, 65535⟩,
  ⟨0x10004, [(1024, 0x20)], 16, 16, .ro, 0x0, 0, 65535⟩,
  ⟨0x10008, [(1024, 0x20)], 0, 16, .ro, 0x0, 0, 65535⟩,
  ⟨0x10008, [(1024, 0x20)], 16, 16, .ro, 0x0, 0, 65535⟩,
  ⟨0x1000c, [(1024, 0x20)], 0, 32, .ro, 0x0, 0, 4294967295⟩,
  ⟨0x10010, [(1024, 0x20)], 0, 32, .ro, 0x0, 0, 4294967295⟩,
  ⟨0x10014, [(1024, 0x20)], 0, 32, .ro, 0x0, 0, 4294967295⟩,
  ⟨0x10018, [(1024, 0x20)], 0, 32, .ro, 0x0, 0, 4294967295⟩,
  ⟨0x360, [], 0, 16, .lk, 0x100, 0, 65535⟩,
  ⟨0x364, [], 0, 12, .lk, 0x40, 0, 4095⟩,
  ⟨0x364, [], 16, 6, .lk, 0x8, 1, 32⟩,
  ⟨0x368, [], 0, 32, .ro, 0x0, 0, 4294967295⟩,
  ⟨0x36c, [], 0, 32, .ro, 0x0, 0, 4294967295⟩,
  ⟨0x370, [], 0, 32, .ro, 0x0, 0, 4294967295⟩,
  ⟨0x374, [], 0, 32, .ro, 0x0, 0, 4294967295⟩,
  ⟨0x378, [], 0, 32, .ro, 0x0, 0, 4294967295⟩,
  ⟨0x37c, [], 0, 32, .ro, 0x0, 0, 4294967295⟩,
  ⟨0x380, [], 0, 32, .ro, 0x0, 0, 4294967295⟩,
  ⟨0x384, [], 0, 32, .ro, 0x0, 0, 4294967295⟩,
  ⟨0x388, [], 0, 32, .ro, 0x0, 0, 4294967295⟩,
  ⟨0x390, [], 0, 6, .lk, 0x8, 0, 32⟩,
  ⟨0x3a0, [], 0, 32, .lk, 0x0, 0, 4294967295⟩,
  ⟨0x3a4, [], 0, 20, .lk, 0x0, 0, 1048575⟩,
  ⟨0x3a8, [], 0, 10, .ro, 0x0, 0, 1023⟩,
  ⟨0x3ac, [], 0, 16, .lk, 0x800, 0, 16384⟩,
  ⟨0x3b0, [], 0, 32, .ro, 0x0, 0, 4294967295⟩,
  ⟨0x3b4, [], 0, 32, .ro, 0x0, 0, 4294967295⟩,
  ⟨0x3b8, [], 0, 32, .ro, 0x0, 0, 4294967295⟩,
  ⟨0x3bc, [], 0, 32, .ro, 0x0, 0, 4294967295⟩,
  ⟨0x3c0, [], 0, 32, .ro, 0x0, 0, 4294967295⟩,
  ⟨0x3c4, [], 0, 32, .ro, 0x0, 0, 4294967295⟩,
  ⟨0x3d0, [], 0, 1, .lk, 0x1, 0, 1⟩,
  ⟨0x3d4, [], 0, 32, .ro, 0x0, 0, 4294967295⟩]

/-- The same, continued. -/
def globalRows2 : List Row := [
  ⟨0x3d8, [], 0, 32, .ro, 0x0, 0, 4294967295⟩,
  ⟨0x3dc, [], 0, 32, .ro, 0x0, 0, 4294967295⟩,
  ⟨0x3e0, [], 0, 32, .ro, 0x0, 0, 4294967295⟩,
  ⟨0x3e4, [], 0, 32, .ro, 0x0, 0, 4294967295⟩,
  ⟨0x3e8, [], 0, 32, .ro, 0x0, 0, 4294967295⟩,
  ⟨0x3ec, [], 0, 32, .ro, 0x0, 0, 4294967295⟩,
  ⟨0x3f0, [], 0, 32, .ro, 0x0, 0, 4294967295⟩,
  ⟨0x3f4, [], 0, 32, .ro, 0x0, 0, 4294967295⟩,
  ⟨0x3f8, [], 0, 32, .ro, 0x0, 0, 4294967295⟩,
  ⟨0x18000, [(64, 0x10)], 0, 1, .sh, 0x0, 0, 1⟩,
  ⟨0x18000, [(64, 0x10)], 16, 16, .sh, 0x0, 0, 65535⟩,
  ⟨0x18004, [(64, 0x10)], 0, 20, .sh, 0x0, 0, 1048575⟩,
  ⟨0x18008, [(64, 0x10)], 0, 32, .sh, 0x0, 0, 4294967295⟩,
  ⟨0x400, [], 0, 32, .lk, 0x0, 0, 4294967295⟩,
  ⟨0x404, [], 0, 20, .lk, 0x0, 0, 1048575⟩,
  ⟨0x408, [], 0, 7, .lk, 0x40, 0, 64⟩,
  ⟨0x40c, [], 0, 32, .ro, 0x0, 0, 4294967295⟩,
  ⟨0x410, [], 0, 32, .ro, 0x0, 0, 4294967295⟩,
  ⟨0x414, [], 0, 32, .ro, 0x0, 0, 4294967295⟩,
  ⟨0x418, [], 0, 32, .ro, 0x0, 0, 4294967295⟩,
  ⟨0x41c, [], 0, 32, .ro, 0x0, 0, 4294967295⟩,
  ⟨0x420, [], 0, 32, .ro, 0x0, 0, 4294967295⟩,
  ⟨0x424, [], 0, 1, .w1c, 0x0, 0, 1⟩,
  ⟨0x19000, [(256, 0x10)], 0, 2, .ro, 0x0, 0, 3⟩,
  ⟨0x19000, [(256, 0x10)], 2, 2, .ro, 0x0, 0, 3⟩,
  ⟨0x19004, [(256, 0x10)], 0, 16, .ro, 0x0, 0, 65535⟩,
  ⟨0x19004, [(256, 0x10)], 16, 16, .ro, 0x0, 0, 65535⟩,
  ⟨0x19008, [(256, 0x10)], 0, 32, .ro, 0x0, 0, 4294967295⟩,
  ⟨0x1900c, [(256, 0x10)], 0, 32, .ro, 0x0, 0, 4294967295⟩,
  ⟨0x440, [], 0, 12, .lk, 0xcf3, 0, 4095⟩,
  ⟨0x444, [], 0, 8, .lk, 0x8, 0, 255⟩,
  ⟨0x444, [], 8, 8, .lk, 0x10, 0, 255⟩,
  ⟨0x448, [], 0, 8, .lk, 0x20, 1, 255⟩,
  ⟨0x448, [], 8, 8, .lk, 0x4, 1, 255⟩,
  ⟨0x448, [], 16, 4, .lk, 0x4, 1, 15⟩,
  ⟨0x44c, [], 0, 6, .lk, 0x10, 4, 48⟩,
  ⟨0x450, [], 0, 16, .lk, 0x2000, 0, 65535⟩,
  ⟨0x450, [], 16, 16, .lk, 0x400, 0, 65535⟩,
  ⟨0x454, [], 0, 16, .lk, 0x200, 0, 65535⟩,
  ⟨0x454, [], 16, 16, .lk, 0x200, 0, 65535⟩]

/-- The same, continued. -/
def globalRows3 : List Row := [
  ⟨0x458, [], 0, 16, .lk, 0x100, 0, 65535⟩,
  ⟨0x458, [], 16, 8, .lk, 0x32, 0, 255⟩,
  ⟨0x45c, [], 0, 32, .ro, 0x0, 0, 4294967295⟩,
  ⟨0x460, [], 0, 16, .ro, 0x0, 0, 65535⟩,
  ⟨0x464, [], 0, 8, .lk, 0x4, 0, 255⟩,
  ⟨0x464, [], 8, 8, .lk, 0x2, 0, 255⟩,
  ⟨0x464, [], 16, 16, .lk, 0xc8, 0, 65535⟩,
  ⟨0x468, [], 0, 32, .lk, 0x186a0, 0, 4294967295⟩,
  ⟨0x46c, [], 0, 8, .lk, 0x8, 1, 15⟩,
  ⟨0x46c, [], 8, 8, .lk, 0x1e, 0, 255⟩,
  ⟨0x470, [], 0, 32, .lk, 0x65432170, 0, 4294967295⟩,
  ⟨0x474, [], 0, 8, .ro, 0x0, 0, 255⟩,
  ⟨0x474, [], 8, 1, .ro, 0x0, 0, 1⟩,
  ⟨0x474, [], 9, 1, .ro, 0x0, 0, 1⟩,
  ⟨0x474, [], 10, 1, .w1c, 0x0, 0, 1⟩,
  ⟨0x478, [], 0, 23, .ro, 0x0, 0, 8388607⟩,
  ⟨0x47c, [], 0, 16, .ro, 0x0, 0, 65535⟩,
  ⟨0x47c, [], 16, 8, .ro, 0x0, 0, 255⟩,
  ⟨0x47c, [], 24, 8, .ro, 0x0, 0, 255⟩,
  ⟨0x480, [], 0, 32, .ro, 0x0, 0, 4294967295⟩,
  ⟨0x484, [], 0, 32, .ro, 0x0, 0, 4294967295⟩,
  ⟨0x488, [], 0, 32, .ro, 0x0, 0, 4294967295⟩,
  ⟨0x48c, [], 0, 32, .ro, 0x0, 0, 4294967295⟩,
  ⟨0x490, [], 0, 32, .ro, 0x0, 0, 4294967295⟩,
  ⟨0x494, [], 0, 32, .ro, 0x0, 0, 4294967295⟩,
  ⟨0x498, [], 0, 32, .ro, 0x0, 0, 4294967295⟩,
  ⟨0x49c, [], 0, 32, .ro, 0x0, 0, 4294967295⟩,
  ⟨0x4a0, [], 0, 32, .ro, 0x0, 0, 4294967295⟩,
  ⟨0x4c0, [], 0, 14, .ro, 0x0, 0, 16383⟩,
  ⟨0x4c0, [], 14, 2, .ro, 0x0, 0, 3⟩,
  ⟨0x4c0, [], 16, 4, .ro, 0x0, 0, 15⟩,
  ⟨0x4c4, [], 0, 32, .ro, 0x0, 0, 4294967295⟩,
  ⟨0x4c8, [], 0, 32, .ro, 0x0, 0, 4294967295⟩,
  ⟨0x4cc, [], 0, 32, .ro, 0x0, 0, 4294967295⟩,
  ⟨0x4d0, [], 0, 32, .ro, 0x0, 0, 4294967295⟩,
  ⟨0x4d4, [], 0, 1, .w1c, 0x0, 0, 1⟩,
  ⟨0x4d4, [], 1, 1, .w1c, 0x0, 0, 1⟩,
  ⟨0x4d8, [], 0, 12, .lk, 0x1, 0, 4095⟩,
  ⟨0x4d8, [], 12, 8, .lk, 0x14, 2, 255⟩,
  ⟨0x4d8, [], 20, 4, .lk, 0x8, 1, 15⟩]

/-- The same, continued. -/
def globalRows4 : List Row := [
  ⟨0x4d8, [], 24, 6, .lk, 0x10, 4, 48⟩,
  ⟨0x4dc, [], 0, 32, .ro, 0x0, 0, 4294967295⟩,
  ⟨0x4e0, [], 0, 32, .ro, 0x0, 0, 4294967295⟩,
  ⟨0x4e4, [], 0, 32, .ro, 0x0, 0, 4294967295⟩,
  ⟨0x4e8, [], 0, 32, .ro, 0x0, 0, 4294967295⟩,
  ⟨0x4ec, [], 0, 32, .ro, 0x0, 0, 4294967295⟩,
  ⟨0x4f0, [], 0, 32, .lk, 0x0, 0, 4294967295⟩,
  ⟨0x4f4, [], 0, 20, .lk, 0x0, 0, 1048575⟩,
  ⟨0x4f4, [], 20, 12, .lk, 0x40, 0, 4095⟩,
  ⟨0x4f8, [], 0, 32, .lk, 0x0, 0, 4294967295⟩,
  ⟨0x4fc, [], 0, 20, .lk, 0x0, 0, 1048575⟩,
  ⟨0x0, [], 0, 16, .ro, 0x960, 0, 65535⟩,
  ⟨0x0, [], 16, 8, .ro, 0xb0, 0, 255⟩,
  ⟨0x4, [], 0, 32, .ro, 0x0, 0, 4294967295⟩,
  ⟨0x8, [], 0, 32, .ro, 0x0, 0, 4294967295⟩,
  ⟨0xc, [], 0, 16, .ro, 0x0, 0, 65535⟩,
  ⟨0x10, [], 0, 32, .lk, 0x0, 0, 4294967295⟩,
  ⟨0x14, [], 0, 20, .lk, 0x0, 0, 1048575⟩,
  ⟨0x18, [], 0, 12, .lk, 0xcf3, 0, 4095⟩,
  ⟨0x1c, [], 0, 8, .lk, 0x0, 0, 255⟩,
  ⟨0x1c, [], 8, 24, .lk, 0xfac688, 0, 16777215⟩,
  ⟨0x20, [], 0, 1, .lk, 0x1, 0, 1⟩,
  ⟨0x20, [], 1, 1, .lk, 0x1, 0, 1⟩,
  ⟨0x20, [], 2, 1, .lk, 0x1, 0, 1⟩,
  ⟨0x20, [], 3, 1, .lk, 0x1, 0, 1⟩,
  ⟨0x600, [(64, 0x10)], 0, 16, .ro, 0x0, 0, 65535⟩,
  ⟨0x604, [(64, 0x10)], 0, 16, .ro, 0x0, 0, 65535⟩,
  ⟨0x608, [(64, 0x10)], 0, 32, .ro, 0x0, 0, 4294967295⟩,
  ⟨0x60c, [(64, 0x10)], 0, 32, .ro, 0x0, 0, 4294967295⟩]

/-- All field maps of the global window. -/
def globalRows : List Row := globalRows0 ++ globalRows1 ++ globalRows2 ++ globalRows3 ++ globalRows4

/-- Field maps of the stack window (R525). -/
def stackRows : List Row := [
  ⟨0x100010, [(12, 0x10000)], 0, 32, .ro, 0x0, 0, 4294967295⟩,
  ⟨0x100014, [(12, 0x10000)], 0, 32, .ro, 0x0, 0, 4294967295⟩,
  ⟨0x100018, [(12, 0x10000)], 0, 32, .ro, 0x0, 0, 4294967295⟩,
  ⟨0x10001c, [(12, 0x10000)], 0, 32, .ro, 0x0, 0, 4294967295⟩,
  ⟨0x100020, [(12, 0x10000)], 0, 6, .ro, 0x0, 0, 63⟩,
  ⟨0x100020, [(12, 0x10000)], 6, 1, .ro, 0x0, 0, 1⟩,
  ⟨0x100024, [(12, 0x10000)], 0, 32, .ro, 0x0, 0, 4294967295⟩,
  ⟨0x100028, [(12, 0x10000)], 0, 32, .ro, 0x0, 0, 4294967295⟩,
  ⟨0x10002c, [(12, 0x10000)], 0, 32, .ro, 0x0, 0, 4294967295⟩,
  ⟨0x100030, [(12, 0x10000)], 0, 32, .ro, 0x0, 0, 4294967295⟩]

/-- Field maps of the kstack window (R525). -/
def kstackRows : List Row := [
  ⟨0x200010, [(4, 0x40000)], 0, 1, .lk, 0x1, 0, 1⟩,
  ⟨0x200010, [(4, 0x40000)], 16, 13, .lk, 0x1000, 0, 8191⟩,
  ⟨0x200014, [(4, 0x40000)], 0, 9, .lk, 0x100, 256, 320⟩,
  ⟨0x200018, [(4, 0x40000)], 0, 20, .lk, 0x8f000, 0, 1048575⟩,
  ⟨0x200020, [(4, 0x40000)], 0, 8, .ro, 0x0, 0, 255⟩,
  ⟨0x200020, [(4, 0x40000)], 8, 1, .ro, 0x0, 0, 1⟩,
  ⟨0x200020, [(4, 0x40000)], 9, 1, .ro, 0x0, 0, 1⟩,
  ⟨0x200020, [(4, 0x40000)], 10, 1, .w1c, 0x0, 0, 1⟩,
  ⟨0x200024, [(4, 0x40000)], 0, 32, .ro, 0x0, 0, 4294967295⟩,
  ⟨0x200028, [(4, 0x40000)], 0, 32, .ro, 0x0, 0, 4294967295⟩,
  ⟨0x20002c, [(4, 0x40000)], 0, 32, .ro, 0x0, 0, 4294967295⟩,
  ⟨0x200030, [(4, 0x40000)], 0, 32, .ro, 0x0, 0, 4294967295⟩,
  ⟨0x200034, [(4, 0x40000)], 0, 32, .ro, 0x0, 0, 4294967295⟩,
  ⟨0x200038, [(4, 0x40000)], 0, 32, .ro, 0x0, 0, 4294967295⟩,
  ⟨0x20003c, [(4, 0x40000)], 0, 32, .ro, 0x0, 0, 4294967295⟩,
  ⟨0x200800, [(4, 0x40000), (4, 0x4)], 0, 1, .lk, 0x0, 0, 1⟩,
  ⟨0x200810, [(4, 0x40000), (12, 0x4)], 0, 1, .sh, 0x0, 0, 1⟩,
  ⟨0x200800, [(4, 0x40000), (4, 0x4)], 1, 6, .lk, 0x0, 0, 63⟩,
  ⟨0x200810, [(4, 0x40000), (12, 0x4)], 1, 6, .sh, 0x0, 0, 63⟩,
  ⟨0x200800, [(4, 0x40000), (4, 0x4)], 8, 8, .lk, 0x0, 0, 255⟩,
  ⟨0x200810, [(4, 0x40000), (12, 0x4)], 8, 8, .sh, 0x0, 0, 255⟩,
  ⟨0x201000, [(4, 0x40000), (4, 0x100), (64, 0x4)], 0, 32, .lk, 0x0, 0, 4294967295⟩,
  ⟨0x201400, [(4, 0x40000), (12, 0x100), (64, 0x4)], 0, 32, .sh, 0x0, 0, 4294967295⟩,
  ⟨0x200000, [(4, 0x40000)], 0, 1, .rw, 0x0, 0, 1⟩,
  ⟨0x200000, [(4, 0x40000)], 1, 1, .ro, 0x0, 0, 1⟩,
  ⟨0x200000, [(4, 0x40000)], 2, 1, .w1c, 0x0, 0, 1⟩,
  ⟨0x200004, [(4, 0x40000)], 0, 32, .ro, 0x0, 0, 4294967295⟩]

/-- Field maps of the flash window (R525). -/
def flashRows : List Row := [
  ⟨0x300010, [(32, 0x2000)], 0, 4, .ro, 0x0, 0, 15⟩,
  ⟨0x300010, [(32, 0x2000)], 4, 2, .ro, 0x0, 0, 3⟩,
  ⟨0x300010, [(32, 0x2000)], 6, 2, .ro, 0x0, 0, 3⟩,
  ⟨0x300010, [(32, 0x2000)], 8, 2, .ro, 0x0, 0, 3⟩,
  ⟨0x300014, [(32, 0x2000)], 0, 1, .lk, 0x1, 0, 1⟩,
  ⟨0x300018, [(32, 0x2000)], 0, 32, .ro, 0x0, 0, 4294967295⟩,
  ⟨0x30001c, [(32, 0x2000)], 0, 32, .ro, 0x0, 0, 4294967295⟩,
  ⟨0x300020, [(32, 0x2000)], 0, 32, .ro, 0x0, 0, 4294967295⟩,
  ⟨0x300024, [(32, 0x2000)], 0, 32, .ro, 0x0, 0, 4294967295⟩,
  ⟨0x300028, [(32, 0x2000)], 0, 16, .ro, 0x0, 0, 65535⟩,
  ⟨0x300028, [(32, 0x2000)], 16, 16, .ro, 0x0, 0, 65535⟩,
  ⟨0x30002c, [(32, 0x2000)], 0, 16, .ro, 0x0, 0, 65535⟩,
  ⟨0x30002c, [(32, 0x2000)], 16, 16, .ro, 0x0, 0, 65535⟩,
  ⟨0x300030, [(32, 0x2000)], 0, 16, .ro, 0x0, 0, 65535⟩,
  ⟨0x300030, [(32, 0x2000)], 16, 16, .ro, 0x0, 0, 65535⟩]

/-- Field maps of the port window (R525). -/
def portRows : List Row := [
  ⟨0x400010, [(8, 0x10000)], 0, 2, .ro, 0x0, 0, 3⟩,
  ⟨0x400010, [(8, 0x10000)], 2, 1, .lk, 0x1, 0, 1⟩,
  ⟨0x400010, [(8, 0x10000)], 3, 1, .lk, 0x0, 0, 1⟩,
  ⟨0x400010, [(8, 0x10000)], 4, 1, .lk, 0x1, 0, 1⟩,
  ⟨0x400014, [(8, 0x10000)], 0, 32, .ro, 0x0, 0, 4294967295⟩,
  ⟨0x400018, [(8, 0x10000)], 0, 32, .ro, 0x0, 0, 4294967295⟩,
  ⟨0x40001c, [(8, 0x10000)], 0, 32, .ro, 0x0, 0, 4294967295⟩,
  ⟨0x400020, [(8, 0x10000)], 0, 32, .ro, 0x0, 0, 4294967295⟩,
  ⟨0x400024, [(8, 0x10000)], 0, 32, .ro, 0x0, 0, 4294967295⟩,
  ⟨0x400028, [(8, 0x10000)], 0, 32, .ro, 0x0, 0, 4294967295⟩,
  ⟨0x400100, [(8, 0x10000)], 0, 18, .sh, 0x0, 0, 262143⟩,
  ⟨0x400100, [(8, 0x10000)], 24, 7, .sh, 0x1, 1, 64⟩,
  ⟨0x400104, [(8, 0x10000)], 0, 6, .ro, 0x0, 0, 63⟩,
  ⟨0x400104, [(8, 0x10000)], 8, 1, .w1c, 0x0, 0, 1⟩,
  ⟨0x400108, [(8, 0x10000)], 0, 32, .ro, 0x0, 0, 4294967295⟩,
  ⟨0x400200, [(8, 0x10000), (8, 0x20)], 0, 1, .sh, 0x0, 0, 1⟩,
  ⟨0x400200, [(8, 0x10000), (8, 0x20)], 1, 1, .sh, 0x0, 0, 1⟩,
  ⟨0x400200, [(8, 0x10000), (5, 0x20)], 8, 8, .sh, 0x0, 1, 255⟩,
  ⟨0x400200, [(8, 0x10000), (8, 0x20)], 16, 14, .sh, 0x2036, 64, 8246⟩,
  ⟨0x400204, [(8, 0x10000), (8, 0x20)], 0, 18, .sh, 0x0, 0, 200000⟩,
  ⟨0x400208, [(8, 0x10000), (8, 0x20)], 0, 18, .sh, 0x0, 0, 200000⟩,
  ⟨0x40020c, [(8, 0x10000), (8, 0x20)], 0, 24, .sh, 0x4000, 0, 16777215⟩,
  ⟨0x400210, [(8, 0x10000), (8, 0x20)], 0, 32, .ro, 0x0, 0, 4294967295⟩,
  ⟨0x400214, [(8, 0x10000), (8, 0x20)], 0, 10, .ro, 0x151, 0, 1023⟩,
  ⟨0x400218, [(8, 0x10000), (8, 0x20)], 0, 32, .ro, 0x0, 0, 4294967295⟩,
  ⟨0x40021c, [(8, 0x10000), (8, 0x20)], 0, 16, .ro, 0x0, 0, 65535⟩,
  ⟨0x40021c, [(8, 0x10000), (8, 0x20)], 16, 16, .ro, 0x0, 0, 65535⟩,
  ⟨0x400400, [(8, 0x10000), (64, 0x8)], 0, 8, .sh, 0x0, 0, 255⟩,
  ⟨0x400404, [(8, 0x10000), (64, 0x8)], 0, 18, .sh, 0x0, 0, 262143⟩,
  ⟨0x400000, [(8, 0x10000)], 0, 1, .rw, 0x0, 0, 1⟩,
  ⟨0x400000, [(8, 0x10000)], 1, 1, .ro, 0x0, 0, 1⟩,
  ⟨0x400000, [(8, 0x10000)], 2, 1, .w1c, 0x0, 0, 1⟩,
  ⟨0x400004, [(8, 0x10000)], 0, 32, .ro, 0x0, 0, 4294967295⟩]

/-- Field maps of the tile window (R525). -/
def tileRows : List Row := [
  ⟨0x500010, [(64, 0x400)], 0, 9, .lk, 0x100, 256, 320⟩,
  ⟨0x500014, [(64, 0x400)], 0, 2, .ro, 0x0, 0, 3⟩,
  ⟨0x500018, [(64, 0x400)], 0, 32, .ro, 0x0, 0, 4294967295⟩,
  ⟨0x50001c, [(64, 0x400)], 0, 32, .ro, 0x0, 0, 4294967295⟩,
  ⟨0x500020, [(64, 0x400)], 0, 32, .ro, 0x0, 0, 4294967295⟩,
  ⟨0x500024, [(64, 0x400)], 0, 32, .ro, 0x0, 0, 4294967295⟩]

/-- Field maps of the core window (R525). -/
def coreRows : List Row := [
  ⟨0x600010, [(2, 0x10000), (16, 0x1000)], 0, 9, .lk, 0x100, 256, 320⟩,
  ⟨0x600014, [(2, 0x10000), (16, 0x1000)], 0, 2, .ro, 0x0, 0, 3⟩,
  ⟨0x600018, [(2, 0x10000), (16, 0x1000)], 0, 32, .ro, 0x0, 0, 4294967295⟩,
  ⟨0x60001c, [(2, 0x10000), (16, 0x1000)], 0, 32, .ro, 0x0, 0, 4294967295⟩,
  ⟨0x600020, [(2, 0x10000), (16, 0x1000)], 0, 32, .ro, 0x0, 0, 4294967295⟩,
  ⟨0x600024, [(2, 0x10000), (16, 0x1000)], 0, 32, .ro, 0x0, 0, 4294967295⟩]

/-- Field maps of the sorter window (R525). -/
def sorterRows : List Row := [
  ⟨0x700010, [(4, 0x1000)], 0, 32, .ro, 0x0, 0, 4294967295⟩,
  ⟨0x700014, [(4, 0x1000)], 0, 32, .ro, 0x0, 0, 4294967295⟩,
  ⟨0x700018, [(4, 0x1000)], 0, 32, .ro, 0x0, 0, 4294967295⟩,
  ⟨0x70001c, [(4, 0x1000)], 0, 32, .ro, 0x0, 0, 4294967295⟩,
  ⟨0x700020, [(4, 0x1000)], 0, 32, .ro, 0x0, 0, 4294967295⟩,
  ⟨0x700024, [(4, 0x1000)], 0, 32, .ro, 0x0, 0, 4294967295⟩,
  ⟨0x700028, [(4, 0x1000)], 0, 10, .ro, 0x0, 0, 1023⟩,
  ⟨0x700030, [(4, 0x1000)], 0, 9, .lk, 0x100, 256, 320⟩,
  ⟨0x700034, [(4, 0x1000)], 0, 2, .ro, 0x0, 0, 3⟩]

/-- Field maps of the link window (R525). -/
def linkRows0 : List Row := [
  ⟨0x800010, [], 0, 3, .ro, 0x0, 0, 7⟩,
  ⟨0x800010, [], 3, 1, .ro, 0x0, 0, 1⟩,
  ⟨0x800010, [], 4, 1, .ro, 0x0, 0, 1⟩,
  ⟨0x800014, [], 0, 4, .lk, 0x3, 1, 15⟩,
  ⟨0x800014, [], 8, 8, .lk, 0x64, 10, 255⟩,
  ⟨0x800014, [], 16, 16, .lk, 0x400, 0, 65535⟩,
  ⟨0x800018, [], 0, 1, .lk, 0x0, 0, 1⟩,
  ⟨0x800020, [], 0, 32, .ro, 0x0, 0, 4294967295⟩,
  ⟨0x800024, [], 0, 32, .ro, 0x0, 0, 4294967295⟩,
  ⟨0x800028, [], 0, 32, .ro, 0x0, 0, 4294967295⟩,
  ⟨0x80002c, [], 0, 32, .ro, 0x0, 0, 4294967295⟩,
  ⟨0x800030, [], 0, 32, .ro, 0x0, 0, 4294967295⟩,
  ⟨0x800034, [], 0, 16, .ro, 0x0, 0, 65535⟩,
  ⟨0x800034, [], 16, 16, .ro, 0x0, 0, 65535⟩,
  ⟨0x800038, [], 0, 32, .ro, 0x0, 0, 4294967295⟩,
  ⟨0x80003c, [], 0, 32, .ro, 0x0, 0, 4294967295⟩,
  ⟨0x800040, [], 0, 7, .rw, 0x0, 0, 127⟩,
  ⟨0x800044, [], 0, 7, .rw, 0x0, 0, 127⟩,
  ⟨0x800048, [], 0, 1, .ro, 0x0, 0, 1⟩,
  ⟨0x800400, [(128, 0x8)], 0, 2, .lk, 0x0, 0, 3⟩,
  ⟨0x800400, [(128, 0x8)], 2, 1, .lk, 0x0, 0, 1⟩,
  ⟨0x800400, [(128, 0x8)], 3, 2, .ro, 0x0, 0, 3⟩,
  ⟨0x800404, [(128, 0x8)], 0, 32, .ro, 0x0, 0, 4294967295⟩,
  ⟨0x810000, [(64, 0x200), (8, 0x40)], 0, 1, .sh, 0x0, 0, 1⟩,
  ⟨0x810000, [(64, 0x200), (8, 0x40)], 1, 5, .sh, 0x0, 6, 16⟩,
  ⟨0x810000, [(64, 0x200), (8, 0x40)], 6, 5, .sh, 0x0, 6, 16⟩,
  ⟨0x810008, [(64, 0x200), (8, 0x40)], 0, 32, .sh, 0x0, 0, 4294967295⟩,
  ⟨0x81000c, [(64, 0x200), (8, 0x40)], 0, 20, .sh, 0x0, 0, 1048575⟩,
  ⟨0x810010, [(64, 0x200), (8, 0x40)], 0, 32, .sh, 0x0, 0, 4294967295⟩,
  ⟨0x810014, [(64, 0x200), (8, 0x40)], 0, 20, .sh, 0x0, 0, 1048575⟩,
  ⟨0x810018, [(64, 0x200), (8, 0x40)], 0, 32, .sh, 0x0, 0, 4294967295⟩,
  ⟨0x81001c, [(64, 0x200), (8, 0x40)], 0, 20, .sh, 0x0, 0, 1048575⟩,
  ⟨0x810020, [(64, 0x200), (8, 0x40)], 0, 1, .ro, 0x0, 0, 1⟩,
  ⟨0x810020, [(64, 0x200), (8, 0x40)], 1, 1, .ro, 0x0, 0, 1⟩,
  ⟨0x810020, [(64, 0x200), (8, 0x40)], 2, 1, .ro, 0x0, 0, 1⟩,
  ⟨0x810020, [(64, 0x200), (8, 0x40)], 3, 1, .w1c, 0x0, 0, 1⟩,
  ⟨0x810024, [(64, 0x200), (8, 0x40)], 0, 32, .ro, 0x0, 0, 4294967295⟩,
  ⟨0x800000, [], 0, 1, .rw, 0x0, 0, 1⟩,
  ⟨0x800000, [], 1, 1, .ro, 0x0, 0, 1⟩,
  ⟨0x800000, [], 2, 1, .w1c, 0x0, 0, 1⟩]

/-- The same, continued. -/
def linkRows1 : List Row := [
  ⟨0x800004, [], 0, 32, .ro, 0x0, 0, 4294967295⟩]

/-- All field maps of the link window. -/
def linkRows : List Row := linkRows0 ++ linkRows1

/-- Field maps of the sec window (R525). -/
def secRows : List Row := [
  ⟨0x900010, [], 0, 1, .lk, 0x0, 0, 1⟩,
  ⟨0x900010, [], 1, 1, .lk, 0x1, 0, 1⟩,
  ⟨0x900010, [], 2, 1, .lk, 0x0, 0, 1⟩,
  ⟨0x900014, [], 0, 16, .lk, 0x12c, 0, 65535⟩,
  ⟨0x900018, [], 0, 1, .w1c, 0x0, 0, 1⟩,
  ⟨0x900018, [], 1, 1, .ro, 0x0, 0, 1⟩,
  ⟨0x90001c, [], 0, 11, .ro, 0x0, 0, 2047⟩,
  ⟨0x900020, [], 0, 21, .ro, 0x0, 0, 2097151⟩,
  ⟨0x900024, [], 0, 7, .ro, 0x0, 0, 127⟩,
  ⟨0x900024, [], 8, 4, .ro, 0x1, 0, 15⟩,
  ⟨0x900024, [], 12, 4, .ro, 0x0, 0, 15⟩,
  ⟨0x900024, [], 16, 2, .ro, 0x0, 0, 3⟩,
  ⟨0x900028, [], 0, 32, .ro, 0x0, 0, 4294967295⟩,
  ⟨0x90002c, [], 0, 32, .ro, 0x0, 0, 4294967295⟩,
  ⟨0x901000, [(64, 0x20)], 0, 1, .sh, 0x0, 0, 1⟩,
  ⟨0x901000, [(64, 0x20)], 1, 1, .ro, 0x0, 0, 1⟩,
  ⟨0x901000, [(64, 0x20)], 8, 10, .sh, 0x0, 0, 512⟩,
  ⟨0x901000, [(64, 0x20)], 18, 5, .sh, 0x0, 0, 16⟩,
  ⟨0x901004, [(64, 0x20)], 0, 16, .sh, 0x0, 0, 65535⟩,
  ⟨0x901008, [(64, 0x20)], 0, 32, .sh, 0x0, 0, 4294967295⟩,
  ⟨0x90100c, [(64, 0x20)], 0, 32, .sh, 0x0, 0, 4294967295⟩,
  ⟨0x901010, [(64, 0x20)], 0, 32, .ro, 0x0, 0, 4294967295⟩,
  ⟨0x901014, [(64, 0x20)], 0, 32, .ro, 0x0, 0, 4294967295⟩,
  ⟨0x904000, [(256, 0x10)], 0, 1, .sh, 0x0, 0, 1⟩,
  ⟨0x904000, [(256, 0x10)], 1, 6, .sh, 0x0, 0, 63⟩,
  ⟨0x904000, [(256, 0x10)], 7, 1, .sh, 0x0, 0, 1⟩,
  ⟨0x904000, [(256, 0x10)], 16, 16, .sh, 0x0, 0, 65535⟩,
  ⟨0x904004, [(256, 0x10)], 0, 20, .sh, 0x0, 0, 1048575⟩,
  ⟨0x904008, [(256, 0x10)], 0, 32, .sh, 0x0, 0, 4294967295⟩,
  ⟨0x900000, [], 0, 1, .rw, 0x0, 0, 1⟩,
  ⟨0x900000, [], 1, 1, .ro, 0x0, 0, 1⟩,
  ⟨0x900000, [], 2, 1, .w1c, 0x0, 0, 1⟩,
  ⟨0x900004, [], 0, 32, .ro, 0x0, 0, 4294967295⟩]

/-- Field maps of the ras window (R525). -/
def rasRows0 : List Row := [
  ⟨0xa01000, [(1024, 0x20)], 0, 32, .ro, 0x0, 0, 4294967295⟩,
  ⟨0xa01004, [(1024, 0x20)], 0, 8, .ro, 0x0, 0, 255⟩,
  ⟨0xa01004, [(1024, 0x20)], 8, 2, .ro, 0x0, 0, 3⟩,
  ⟨0xa01004, [(1024, 0x20)], 10, 6, .ro, 0x0, 0, 63⟩,
  ⟨0xa01004, [(1024, 0x20)], 16, 8, .ro, 0x0, 0, 255⟩,
  ⟨0xa01008, [(1024, 0x20)], 0, 32, .ro, 0x0, 0, 4294967295⟩,
  ⟨0xa0100c, [(1024, 0x20)], 0, 16, .ro, 0x0, 0, 65535⟩,
  ⟨0xa0100c, [(1024, 0x20)], 16, 16, .ro, 0x0, 0, 65535⟩,
  ⟨0xa01010, [(1024, 0x20)], 0, 32, .ro, 0x0, 0, 4294967295⟩,
  ⟨0xa01014, [(1024, 0x20)], 0, 20, .ro, 0x0, 0, 1048575⟩,
  ⟨0xa01018, [(1024, 0x20)], 0, 32, .ro, 0x0, 0, 4294967295⟩,
  ⟨0xa0101c, [(1024, 0x20)], 0, 32, .ro, 0x0, 0, 4294967295⟩,
  ⟨0xa00000, [], 0, 32, .ro, 0x0, 0, 4294967295⟩,
  ⟨0xa00004, [], 0, 1, .lk, 0x0, 0, 1⟩,
  ⟨0xa00004, [], 1, 1, .lk, 0x1, 0, 1⟩,
  ⟨0xa00008, [], 0, 8, .lk, 0x10, 1, 255⟩,
  ⟨0xa00008, [], 8, 8, .lk, 0x4, 1, 255⟩,
  ⟨0xa00008, [], 16, 5, .lk, 0x18, 16, 30⟩,
  ⟨0xa00008, [], 24, 8, .lk, 0x40, 8, 255⟩,
  ⟨0xa0000c, [], 0, 8, .lk, 0x18, 1, 255⟩,
  ⟨0xa0000c, [], 8, 8, .lk, 0xc, 0, 255⟩,
  ⟨0xa0000c, [], 16, 8, .lk, 0xa, 0, 255⟩,
  ⟨0xa00010, [], 0, 16, .lk, 0x400, 0, 65535⟩,
  ⟨0xa00010, [], 16, 16, .lk, 0x10, 0, 65535⟩,
  ⟨0xa00014, [], 0, 32, .ro, 0x0, 0, 4294967295⟩,
  ⟨0xa00018, [], 0, 32, .ro, 0x0, 0, 4294967295⟩,
  ⟨0xa0001c, [], 0, 32, .ro, 0x0, 0, 4294967295⟩,
  ⟨0xa00020, [], 0, 32, .ro, 0x0, 0, 4294967295⟩,
  ⟨0xa00024, [], 0, 32, .ro, 0x0, 0, 4294967295⟩,
  ⟨0xa00028, [], 0, 32, .ro, 0x0, 0, 4294967295⟩,
  ⟨0xa0002c, [], 0, 32, .ro, 0x0, 0, 4294967295⟩,
  ⟨0xa00030, [], 0, 32, .ro, 0x0, 0, 4294967295⟩,
  ⟨0xa00034, [], 0, 32, .ro, 0x0, 0, 4294967295⟩,
  ⟨0xa00038, [], 0, 32, .ro, 0x0, 0, 4294967295⟩,
  ⟨0xa0003c, [], 0, 8, .ro, 0x0, 0, 255⟩,
  ⟨0xa0003c, [], 8, 8, .ro, 0x0, 0, 255⟩,
  ⟨0xa0003c, [], 16, 1, .ro, 0x0, 0, 1⟩,
  ⟨0xa0003c, [], 17, 1, .ro, 0x0, 0, 1⟩,
  ⟨0xa0003c, [], 18, 1, .ro, 0x0, 0, 1⟩,
  ⟨0xa00040, [], 0, 3, .ro, 0x4, 0, 7⟩]

/-- The same, continued. -/
def rasRows1 : List Row := [
  ⟨0xa00040, [], 4, 3, .ro, 0x4, 0, 7⟩]

/-- All field maps of the ras window. -/
def rasRows : List Row := rasRows0 ++ rasRows1

/-- Field maps of the test window (R525). -/
def testRows : List Row := [
  ⟨0xb00800, [], 0, 16, .lk, 0x1f4, 16, 65535⟩,
  ⟨0xb00800, [], 16, 3, .lk, 0x4, 0, 4⟩,
  ⟨0xb00800, [], 19, 3, .lk, 0x2, 0, 4⟩,
  ⟨0xb00800, [], 22, 4, .lk, 0x3, 1, 15⟩,
  ⟨0xb00800, [], 26, 1, .lk, 0x1, 0, 1⟩,
  ⟨0xb00804, [], 0, 32, .ro, 0x0, 0, 4294967295⟩,
  ⟨0xb00808, [], 0, 32, .ro, 0x0, 0, 4294967295⟩,
  ⟨0xb00900, [(356, 0x8)], 0, 3, .ro, 0x0, 0, 7⟩,
  ⟨0xb00900, [(356, 0x8)], 3, 1, .ro, 0x0, 0, 1⟩,
  ⟨0xb00904, [(356, 0x8)], 0, 32, .ro, 0x0, 0, 4294967295⟩,
  ⟨0xb00000, [], 0, 3, .ro, 0x0, 0, 7⟩,
  ⟨0xb00000, [], 3, 1, .ro, 0x0, 0, 1⟩,
  ⟨0xb00000, [], 4, 1, .ro, 0x0, 0, 1⟩,
  ⟨0xb00000, [], 8, 4, .ro, 0x0, 0, 15⟩,
  ⟨0xb00004, [], 0, 32, .ro, 0x0, 0, 4294967295⟩,
  ⟨0xb00008, [], 0, 32, .ro, 0x0, 0, 4294967295⟩,
  ⟨0xb0000c, [], 0, 32, .ro, 0x0, 0, 4294967295⟩,
  ⟨0xb00010, [], 0, 4, .ro, 0x0, 0, 15⟩,
  ⟨0xb00010, [], 8, 4, .ro, 0x0, 0, 15⟩,
  ⟨0xb00014, [], 0, 16, .ro, 0x0, 0, 65535⟩,
  ⟨0xb00018, [], 0, 32, .ro, 0x0, 0, 4294967295⟩,
  ⟨0xb0001c, [], 0, 32, .ro, 0x0, 0, 4294967295⟩,
  ⟨0xb00020, [], 0, 32, .ro, 0x0, 0, 4294967295⟩,
  ⟨0xb00024, [], 0, 8, .lk, 0x1, 0, 255⟩,
  ⟨0xb00024, [], 16, 11, .lk, 0x578, 800, 1450⟩,
  ⟨0xb00028, [], 0, 32, .ro, 0x0, 0, 4294967295⟩,
  ⟨0xb0002c, [], 0, 32, .ro, 0x0, 0, 4294967295⟩,
  ⟨0xb02000, [(356, 0x4)], 0, 2, .ro, 0x0, 0, 3⟩,
  ⟨0xb02000, [(356, 0x4)], 2, 1, .ro, 0x0, 0, 1⟩,
  ⟨0xb00600, [(12, 0x8)], 0, 16, .ro, 0x0, 0, 65535⟩,
  ⟨0xb00600, [(12, 0x8)], 16, 16, .ro, 0x0, 0, 65535⟩,
  ⟨0xb00604, [(12, 0x8)], 0, 16, .ro, 0x0, 0, 65535⟩,
  ⟨0xb00604, [(12, 0x8)], 16, 6, .ro, 0x0, 0, 63⟩,
  ⟨0xb00680, [], 0, 16, .ro, 0x0, 0, 65535⟩,
  ⟨0xb00680, [], 16, 16, .ro, 0x0, 0, 65535⟩,
  ⟨0xb00684, [], 0, 16, .ro, 0x0, 0, 65535⟩,
  ⟨0xb00684, [], 16, 4, .ro, 0x0, 0, 15⟩,
  ⟨0xb00700, [(32, 0x4)], 0, 2, .ro, 0x0, 0, 3⟩]

/-- Field maps of the mailbox window (R525). -/
def mailboxRows : List Row := [
  ⟨0xc00000, [], 0, 8, .rw, 0x0, 0, 255⟩,
  ⟨0xc00004, [], 0, 1, .ro, 0x0, 0, 1⟩,
  ⟨0xc00004, [], 8, 8, .ro, 0x0, 0, 255⟩,
  ⟨0xc00008, [], 0, 17, .rw, 0x0, 0, 65536⟩,
  ⟨0xc0000c, [], 0, 17, .ro, 0x0, 0, 131071⟩,
  ⟨0xc00010, [], 0, 32, .ro, 0x0, 0, 4294967295⟩,
  ⟨0xc00014, [], 0, 32, .rw, 0x0, 0, 4294967295⟩,
  ⟨0xc00018, [], 0, 32, .rw, 0x0, 0, 4294967295⟩,
  ⟨0xc10000, [(16384, 0x4)], 0, 32, .rw, 0x0, 0, 4294967295⟩]

/-- The field maps of the window an address lies in (R525). -/
def windowRows (a : Nat) : List Row :=
  match a / 0x100000 with
  | 0 => globalRows
  | 1 => stackRows
  | 2 => kstackRows
  | 3 => flashRows
  | 4 => portRows
  | 5 => tileRows
  | 6 => coreRows
  | 7 => sorterRows
  | 8 => linkRows
  | 9 => secRows
  | 10 => rasRows
  | 11 => testRows
  | 12 => mailboxRows
  | _ => []

/-- An offset falls on an element of nested arrays. -/
def inDims : List (Nat × Nat) → Nat → Bool
  | [], rel => rel == 0
  | (n, st) :: t, rel => decide (rel / st < n) && inDims t (rel % st)

/-- A row has a field in the register at `a`. -/
def Row.covers (r : Row) (a : Nat) : Bool := decide (r.base ≤ a) && inDims r.dims (a - r.base)

/-- The fields of the register at an active address. -/
def rowsAt (a : Nat) : List Row := (windowRows a).filter (fun r => r.covers a)

/-- Distance from an SH field to its shadow: half the block's stride, or 0x8_0000 without a stride (R38, R525). -/
def shadowDist (a : Nat) : Nat :=
  match a / 0x100000 with
  | 2 => 0x20000
  | 4 => 0x8000
  | _ => 0x80000

/-- SH fields of the register whose shadow address is `a`; none where `a` is no shadow address (R38). -/
def shadowRows (a : Nat) : List Row :=
  if a < shadowDist a then [] else (rowsAt (a - shadowDist a)).filter (fun r => r.acc = .sh)

/-- Instruction words of the node's own patterns: POOL as the manual lists it, the others free (R296). -/
def builtinInstr (e w : Nat) : Word :=
  if e = 0 then
    ([0x0D000040#32, 0x08800041#32, 0x10500000#32, 0x0D400140#32, 0x2E081200#32, 0x31400004#32, 0x31000002#32,
      0x04000000#32].getD w 0#32)
  else Config.builtinWord e w

/-- Control word of the node's own patterns: VALID, and for POOL its length; the rest is free (R296, R318). -/
def builtinCtrl (e : Nat) : Word :=
  let w := Config.builtinWord e 64
  if e = 0 then (w &&& 0x0000FF00#32) ||| 0x0000000F#32 else (w &&& 0x0000FF7E#32) ||| 1#32

/-- Resets that differ along an array: agent classes (R379), Q0-Q4 weights (R428), gate entry 0 (R429), D0's EN (R516),
the serial number (R527) and library entries 0-3 (R318). -/
def specialReset (a : Nat) : Option Word :=
  if a = 0x800400 ∨ a = 0x800408 ∨ a = 0x800418 then some 3#32
  else if a = 0x800410 then some 2#32
  else if a = 0x901000 then some 1#32
  else if a = 0x0004 then some (BitVec.ofNat 32 Config.serial.toNat)
  else if a = 0x0008 then some (BitVec.ofNat 32 (Config.serial.toNat / 2 ^ 32))
  else if a / 0x100000 = 4 then
    let o := a % 0x10000 % 0x8000
    if o = 0x400 then some 0xFF#32
    else if o = 0x200 ∨ o = 0x220 ∨ o = 0x240 ∨ o = 0x260 ∨ o = 0x280 then
      some (BitVec.ofNat 32 (fieldPut 0x20360000 8 8 ([2, 1, 1, 4, 8].getD ((o - 0x200) / 0x20) 0)))
    else none
  else if a / 0x100000 = 2 then
    let o := a % 0x40000
    if 0x800 ≤ o ∧ o < 0x810 ∧ o % 4 = 0 then some (builtinCtrl ((o - 0x800) / 4))
    else if 0x1000 ≤ o ∧ o < 0x1400 ∧ o % 4 = 0 then some (builtinInstr ((o - 0x1000) / 0x100) (o % 0x100 / 4))
    else none
  else none

/-- The reset word of a list of fields (R49). -/
def rowsReset (l : List Row) : Word := BitVec.ofNat 32 (l.foldl (fun w r => fieldPut w r.lo r.width r.reset) 0)

/-- The word an offset holds at reset; a pending value equals its active value (R49). -/
def resetWord (a : Nat) : Word :=
  match specialReset a with
  | some w => w
  | none =>
    match rowsAt a with
    | r :: t => rowsReset (r :: t)
    | [] => match shadowRows a with
      | r :: t => match specialReset (a - shadowDist a) with
        | some w => w
        | none => rowsReset (r :: t)
      | [] => 0#32

end Sys2Proof
end

