-- ==== Sys2Proof/Machine/Sparse.lean ====
section
/-! DEFINITION. Sparse maps: lists of (key, value) with keys strictly rising and no value equal to the default. -/

namespace Sys2Proof

/-- A sparse map from numbers. -/
abbrev SMap (β : Type) := List (Nat × β)

/-- The value at `a`: the listed one, else the default there. -/
def SMap.get {β : Type} (d : Nat → β) : SMap β → Nat → β
  | [], a => d a
  | (k, v) :: t, a => if k = a then v else SMap.get d t a

/-- Insert at the sorted place. -/
def SMap.ins {β : Type} : SMap β → Nat → β → SMap β
  | [], a, v => [(a, v)]
  | (k, w) :: t, a, v => if a < k then (a, v) :: (k, w) :: t else (k, w) :: SMap.ins t a v

/-- Drop every entry of key `a`. -/
def SMap.del {β : Type} : SMap β → Nat → SMap β
  | [], _ => []
  | (k, w) :: t, a => if k = a then SMap.del t a else (k, w) :: SMap.del t a

/-- Write: the entry goes where the value is the default, else it stands at its sorted place. -/
def SMap.set {β : Type} [DecidableEq β] (d : Nat → β) (m : SMap β) (a : Nat) (v : β) : SMap β :=
  if v = d a then m.del a else (m.del a).ins a v

/-- Keys at or above `lo` (helper of `SMap.wf`): strictly rising and no default listed. -/
def SMap.wfFrom {β : Type} [DecidableEq β] (d : Nat → β) : Nat → SMap β → Bool
  | _, [] => true
  | lo, (k, v) :: t => decide (lo ≤ k) && decide (v ≠ d k) && SMap.wfFrom d (k + 1) t

/-- The canonical form. -/
def SMap.wf {β : Type} [DecidableEq β] (d : Nat → β) (m : SMap β) : Bool := SMap.wfFrom d 0 m

/-- A sorted list of numbers without repeats, as a set. -/
def insNat : List Nat → Nat → List Nat
  | [], a => [a]
  | k :: t, a => if a < k then a :: k :: t else if a = k then k :: t else k :: insNat t a

/-- Membership set with `a` added or taken away. -/
def putNat (l : List Nat) (a : Nat) (on : Bool) : List Nat :=
  if on then insNat l a else l.filter (· ≠ a)

end Sys2Proof
end

