-- ==== Sys2Proof/Machine/State.lean ====
section
/-! DEFINITION. The state of the node, as plain data, and its value right after reset. Registers are words of one
sparse file; everything the manual gives the node that is no register has a field of its own. -/

namespace Sys2Proof.Machine

/-- Completion status (R13). -/
inductive Status where
  | ok | short | tied | poisoned | moved | overrun | staleVersion | domainFault | aborted | refused
  deriving DecidableEq, Repr

/-- Power inputs, rails and outputs (20_module_hardware.md). -/
structure PowerSt where
  vinOk : Bool
  modEn : Bool
  railsUp : Bool
  modPg : Bool
  nodeRstLow : Bool
  offUntilCycle : Bool
  thermTripLow : Bool
  xspiRstLow : Bool
  xspiCeHigh : Bool
  timePpsOut : Nat
  deriving DecidableEq, Repr

/-- Stitch timer and network time (R21-R28, R49, R546). -/
structure TimeSt where
  epoch : Epoch
  phase : Nat
  stitchLen : Nat
  timer : Bool
  admitOpen : Bool
  firstCommit : Bool
  netSeconds : Nat
  estErrorNs : Nat
  portDelay : List Nat
  detachReports : Nat
  deriving DecidableEq, Repr

/-- A register message on its way (R520). -/
structure RegMsg where
  agent : Nat
  dom : Nat
  off : Nat
  write : Bool
  data : Nat
  deriving DecidableEq, Repr

/-- Messages the node sends over the Wymer link (R359, R520). -/
inductive LinkMsg where
  | cmp (agent txn : Nat)
  | cmpData (agent txn line : Nat) (data : List Byte) (poison : Bool)
  | errAccess (agent txn : Nat)
  | regCmp (agent : Nat)
  | regData (agent : Nat) (w : Word)
  | regErr (agent : Nat)
  | snpShare (agent line attempt req : Nat)
  | snpOwn (agent line attempt req : Nat)
  | snpInv (agent line attempt : Nat)
  | snpPush (agent line attempt : Nat)
  deriving DecidableEq, Repr

/-- Stack and flash-direct memory as coherent bytes, with the outer code's poison mark and metadata (R319, R432, R433). -/
structure MemSt where
  bytes : SMap Byte
  poison : SMap Bool
  meta_ : SMap Nat
  deriving DecidableEq, Repr

/-- What the node keeps of one ring pair besides its registers (R371-R374). `compHead` is the last good one read. -/
structure RingRt where
  workTail : Nat := 0
  compHead : Nat := 0
  workHead : Nat := 0
  compTail : Nat := 0
  reserved : Nat := 0
  deriving DecidableEq, Repr

/-- Collection fields that the node locks at ACTIVE (R54). -/
structure Shape where
  metric : Nat := 0
  fullFmt : Nat := 0
  codeFmt : Nat := 0
  residual : Bool := false
  sketchEn : Bool := false
  dim : Nat := 0
  projBase : Nat := 0
  deriving DecidableEq, Repr

/-- Who receives the RELEASED record of a replaced version, and what it reports (R162). -/
structure Rel where
  dom : Nat := 0
  ring : Nat := 0
  tag : Nat := 0
  fold : Nat := 0
  records : Nat := 0
  dropped : Nat := 0
  sideCarried : Nat := 0
  tombCarried : Nat := 0
  poisonDropped : Nat := 0
  freed : List Nat := []
  deriving DecidableEq, Repr

/-- A version slot (R156): 0 FREE, 1 LOADING, 2 CURRENT, 3 RETIRED. -/
structure VSlot where
  state : Nat := 0
  base : Nat := 0
  since : Nat := 0
  rel : Option Rel := none
  deriving DecidableEq, Repr

/-- What the node holds of one collection (R53, R54, R156, R164). -/
structure Coll where
  st : Nat := 0
  dom : Nat := 0
  shape : Shape := {}
  differ : List Nat := []
  routeA : VSlot := {}
  routeB : VSlot := {}
  cbA : VSlot := {}
  cbB : VSlot := {}
  routeSwap : Nat := 0
  cbSwap : Nat := 0
  deriving DecidableEq, Repr

/-- One layout version of a partition (R61, R148, R152): its regions, side entries appended, tombstone index as
(ordinal, delete epoch) sorted by ordinal. -/
structure Layout where
  ver : Nat := 0
  base : Nat := 0
  sideBase : Nat := 0
  tombBase : Nat := 0
  ordCap : Nat := 0
  sideCap : Nat := 0
  tombCap : Nat := 0
  cbSlot : Nat := 0
  ordHigh : Nat := 0
  sideCount : Nat := 0
  tombs : List (Nat × Nat) := []
  since : Nat := 0
  rel : Option Rel := none
  deriving DecidableEq, Repr

/-- What the node holds of one partition (R57, R58, R153, R564). -/
structure Part where
  built : Bool := false
  cur : Layout := {}
  old : List Layout := []
  free : List Nat := []
  nextVer : Nat := 0
  deriving DecidableEq, Repr

/-- A layout version that a job pins (R83). -/
structure Pin where
  part : Nat
  ver : Nat
  deriving DecidableEq, Repr

/-- A candidate of a selection (R99, R111, R124). -/
structure Cand where
  gid : Gid
  pair : Gid
  list : Nat
  porder : Nat
  ord : Nat
  score : Nat
  est : F32
  dist : F32
  deriving DecidableEq, Repr

/-- A probe of a query on this node (R87, R93, R98): 0 waits for tables, 1 waits for a sketch pass, 2 waits for a code
pass, 3 in a sketch pass, 4 in a code pass, 5 done. `ready` is the stitch in which it became ready. -/
structure Probe where
  part : Nat
  order : Nat
  st : Nat
  ready : Nat
  gathered : Bool
  kept : List Nat
  deriving DecidableEq, Repr

/-- A distance table (R89-R91, R180): terms per subquantizer, constant, and once quantized its entries, its offset
clamped and its exact offset. -/
structure Table where
  porder : Nat
  slot : Nat
  terms : List (List F32)
  konst : F32
  entries : List (List Nat)
  off : Nat
  offExact : Int
  deriving DecidableEq, Repr

/-- A share the collector sent (R108, R44, R45). -/
structure ShareOut where
  num : Nat
  holder : Nat
  probes : List Nat
  got : Option PartialMsg
  replica : Bool
  escalate : Bool
  compEpoch : Nat
  deriving DecidableEq, Repr

/-- Where a share comes from (R109), when the job serves one. -/
structure ShareIn where
  collector : Nat
  context : Nat
  share : Nat
  compEpoch : Nat
  deriving DecidableEq, Repr

/-- A query or a share (R78-R114). -/
structure Query where
  ctx : Option Nat := none
  shareIn : Option ShareIn := none
  coll : Nat := 0
  latestOnly : Bool := false
  pairForm : Bool := false
  fan : Bool := false
  rerankOff : Bool := false
  escalateIn : Bool := false
  sketchMax : Option Nat := none
  k : Nat := 0
  depth : Nat := 0
  nprobe : Nat := 0
  qvec : List F32 := []
  sketch : List Bool := []
  resultAddr : Nat := 0
  shape : Shape := {}
  routeBase : Nat := 0
  routeSlot : Nat := 0
  cbPins : List Nat := []
  cbBases : List Nat := []
  pins : List Pin := []
  sorter : Nat := 0
  bound : Bool := false
  boundAt : Nat := 0
  walked : Nat := 0
  routed : Bool := false
  probeList : List Nat := []
  probes : List Probe := []
  tables : List Table := []
  staged : Bool := false
  built : Bool := false
  needRebuild : Bool := false
  escAt : Nat := 0
  rebuiltTables : Nat := 0
  scale : F32 := 0#32
  bits8 : Bool := false
  base : F32 := 0#32
  cut : Nat := 0xFFFF
  arrived : List Cand := []
  store : List Cand := []
  clips : List Nat := []
  selProg : Nat := 0
  localFinal : Bool := false
  localFinalAt : Nat := 0
  readsIssued : Nat := 0
  readsLanded : List Nat := []
  landedAt : Nat := 0
  reranked : Nat := 0
  rerankDone : Bool := false
  finalList : Option (List Cand) := none
  shares : List ShareOut := []
  nextShare : Nat := 0
  mergeProg : Nat := 0
  lastPartialAt : Nat := 0
  flags : SFlags := {}
  count : Nat := 0
  results : List Gid := []
  codesScored : Nat := 0
  rerankReads : Nat := 0
  deriving DecidableEq, Repr

/-- An insert or a delete (R139-R145, R560). -/
structure Update where
  insert : Bool := true
  coll : Nat := 0
  part : Nat := 0
  gid : Gid := 0#64
  vecAddr : Nat := 0
  encoded : Bool := false
  cbSlot : Nat := 0
  routeBase : Nat := 0
  routeSlot : Nat := 0
  ordinal : Nat := 0
  sideIdx : Nat := 0
  chain : Nat := 0
  prepared : Bool := false
  vecWait : Bool := false
  assigned : Bool := false
  status : Status := .ok
  deriving DecidableEq, Repr

/-- A compaction (R149-R154). -/
structure Compact where
  coll : Nat := 0
  part : Nat := 0
  target : Nat := 0
  dropPoison : Bool := false
  fold : Nat := 0
  pinned : Layout := {}
  cbPins : List Nat := []
  new : Layout := {}
  ordHigh : Nat := 0
  sideEnd : Nat := 0
  mainAdmitted : Nat := 0
  mainEnded : Nat := 0
  sideAdmitted : Nat := 0
  sideEnded : Nat := 0
  records : Nat := 0
  dropped : List Nat := []
  poisonDropped : Nat := 0
  poisoned : Bool := false
  deriving DecidableEq, Repr

/-- A VERSION request that passed its checks (R157). -/
structure VersionReq where
  coll : Nat := 0
  table : Nat := 0
  slot : Nat := 0
  base : Nat := 0
  deriving DecidableEq, Repr

/-- A ROUTE_EDIT request (R159). -/
structure RouteEditReq where
  coll : Nat := 0
  repair : Bool := false
  slot : Nat := 0
  base : Nat := 0
  src : Nat := 0
  ghosts : List Nat := []
  copied : Nat := 0
  ready : Bool := false
  deriving DecidableEq, Repr

/-- A TIER_HINT in progress (R329): pages still to be started and runs still to become durable. -/
structure Hint where
  hint : Nat := 0
  base : Nat := 0
  pages : Nat := 0
  set : Nat := 0
  left : List Nat := []
  runs : List Nat := []
  deriving DecidableEq, Repr

/-- A GEMM block's partial sums so far (R203): chunks done and 64 values per streamed row. -/
structure Spill where
  group : Nat
  row0 : Nat
  chunks : Nat
  acc : List (List F32)
  deriving DecidableEq, Repr

/-- A software ENGINE command (R196). `done` names finished blocks: (row group, first row) or (first 64-element unit,
units). -/
structure EngineCmd where
  kind : Nat := 0
  aFmt : Nat := 0
  bFmt : Nat := 0
  outFmt : Nat := 0
  tiled : Bool := false
  accum : Bool := false
  bias : Bool := false
  act : Nat := 0
  link : Bool := false
  vop : Nat := 0
  a : Nat := 0
  b : Nat := 0
  out : Nat := 0
  groups : Nat := 0
  chunks : Nat := 0
  n : Nat := 0
  elements : Nat := 0
  rowLen : Nat := 0
  biasAddr : Nat := 0
  scale : F32 := 0#32
  lo : F32 := 0#32
  hi : F32 := 0#32
  chain : Nat := 0
  spills : List Spill := []
  done : List (Nat × Nat) := []
  clipped : Nat := 0
  nonfinite : Nat := 0
  ended : Option Status := none
  slow : Bool := false
  deriving DecidableEq, Repr

/-- A sequence slot's fields as a command reads them (R209). -/
structure SeqSlot where
  st : Nat := 0
  dom : Nat := 0
  qkFmt : Nat := 0
  kvFmt : Nat := 0
  skive : Bool := false
  ropeEn : Bool := false
  appendEn : Bool := false
  ropeSplit : Bool := false
  d : Nat := 0
  kvHeads : Nat := 0
  qGroup : Nat := 0
  layers : Nat := 0
  tokenBase : Nat := 0
  pageTable : Nat := 0
  pageCap : Nat := 0
  lenBase : Nat := 0
  weights : Nat := 0
  scale : F32 := 0#32
  theta : F32 := 0#32
  hidden : Nat := 0
  ropeDims : Nat := 0
  weightFmt : Nat := 0
  tailBase : Nat := 0
  reservedOk : Bool := true
  deriving DecidableEq, Repr

/-- A query row's running maximum, sum and output (R226). -/
structure AttnRow where
  m : F32
  l : F32
  o : List F32
  deriving DecidableEq, Repr

/-- A fused slice's outcome (R226): KV head, token range, pages from `page0`, rows in token-major order, then group. -/
structure Piece where
  head : Nat
  range : Nat
  page0 : Nat
  pages : Nat
  rows : List AttnRow
  deriving DecidableEq, Repr

/-- An ATTEND (R216-R229). `proj` holds the finished and partial projection groups, keys first. -/
structure Attend where
  slot : Nat := 0
  layer : Nat := 0
  append : Bool := false
  read : Bool := false
  causal : Bool := false
  ret : Bool := false
  shard : Nat := 0
  hid : Nat := 0
  q : Nat := 0
  out : Nat := 0
  qpos : Nat := 0
  ntok : Nat := 0
  mergeNode : Nat := 0
  mergeSlot : Nat := 0
  seq : SeqSlot := {}
  proj : List Spill := []
  written : Nat := 0
  appended : Bool := false
  pieces : List Piece := []
  rows : List AttnRow := []
  combined : Nat := 0
  pages : List Nat := []
  slow : Bool := false
  pagesRead : Nat := 0
  skipped : Nat := 0
  nonfinite : Nat := 0
  deriving DecidableEq, Repr

/-- An ATTN_MERGE (R232-R234). -/
structure AttnMerge where
  slot : Nat := 0
  layer : Nat := 0
  shards : Nat := 0
  outBf16 : Bool := false
  out : Nat := 0
  qpos : Nat := 0
  ntok : Nat := 0
  d : Nat := 0
  heads : Nat := 0
  rowsPerTok : Nat := 0
  parts : List AttnMsg := []
  merged : Nat := 0
  empty : Nat := 0
  deriving DecidableEq, Repr

/-- An embedding table descriptor's fields (R259). -/
structure EmbDesc where
  st : Nat := 0
  dom : Nat := 0
  fmt : Nat := 0
  opt : Nat := 0
  updEn : Bool := false
  dim : Nat := 0
  shift : Nat := 0
  rowsM1 : Nat := 0
  mapA : Nat := 0
  mapB : Nat := 0
  rowA : Nat := 0
  rowB : Nat := 0
  stateBase : Nat := 0
  localShards : Nat := 0
  updCap : Nat := 0
  mu : F32 := 0#32
  eps : F32 := 0#32
  reservedOk : Bool := true
  deriving DecidableEq, Repr

/-- A lookup share that the requester sent (R264, R267): entries are (row, bag, weight). -/
structure LShare where
  owner : Nat
  slot : Nat
  entries : List (Nat × Nat × F32)
  got : Option LookupPart
  deriving DecidableEq, Repr

/-- A LOOKUP (R262-R268). -/
structure Lookup where
  ctx : Nat := 0
  table : Nat := 0
  slot : Nat := 0
  desc : EmbDesc := {}
  pool : Nat := 0
  outBf16 : Bool := false
  latestOnly : Bool := false
  idx : Nat := 0
  off : Nat := 0
  w : Nat := 0
  out : Nat := 0
  bags : Nat := 0
  nidx : Nat := 0
  sorted : Nat := 0
  sent : Bool := false
  shares : List LShare := []
  combined : Nat := 0
  empty : Nat := 0
  rows : Nat := 0
  hot : Nat := 0
  slow : Bool := false
  deriving DecidableEq, Repr

/-- A row of a share still to be pooled (R265). -/
structure ShareRow where
  row : Nat
  bag : Nat
  weight : F32
  addr : Nat
  deriving DecidableEq, Repr

/-- A train's sum in scratch lines of its tail's bank (R301): K-stack, unit, first bank line, rows summed. -/
structure SumItem where
  bag : Nat
  k : Nat
  u : Nat
  line : Nat
  count : Nat
  deriving DecidableEq, Repr

/-- A lookup share being served (R264, R265): rows to pool, copies of hot rows, train sums to add, rows in near-bank
slices, and per bag the rows summed and their sum. -/
structure EmbShare where
  requester : Nat := 0
  context : Nat := 0
  table : Nat := 0
  slot : Nat := 0
  desc : EmbDesc := {}
  weighted : Bool := false
  rows : List ShareRow := []
  hot : List (ShareRow × List Byte × Bool) := []
  sums : List SumItem := []
  out : Nat := 0
  acc : List (Nat × Nat × List F32) := []
  slow : Bool := false
  deriving DecidableEq, Repr

/-- An EMB_UPDATE whose rows for other owners are on their way (R270, R271): (owner, message number). -/
structure EmbUpdate where
  table : Nat := 0
  step : Nat := 0
  left : List (Nat × Nat) := []
  dropped : Nat := 0
  deriving DecidableEq, Repr

/-- A STEP_CLOSE (R272, R276). -/
structure StepClose where
  table : Nat := 0
  at_ : Nat := 0
  lr : F32 := 0#32
  late : Bool := false
  deriving DecidableEq, Repr

/-- A HOT_SET or an EMB_VERSION waiting for its boundary (R277, R279). -/
structure HotReq where
  table : Nat := 0
  rows : List Nat := []
  refresh : Nat := 0
  deriving DecidableEq, Repr

structure EmbVersion where
  table : Nat := 0
  slot : Nat := 0
  swapAt : Nat := 0
  deriving DecidableEq, Repr

/-- An NB_RUN (R303-R306): DST runs ended, its library entry as at admission. -/
structure NbJob where
  pattern : Nat := 0
  k : Nat := 0
  inFmt : Nat := 0
  outFmt : Nat := 0
  a : Nat := 0
  b : Nat := 0
  dst : Nat := 0
  lines : Nat := 0
  p0 : Nat := 0
  p1 : Nat := 0
  code : List Nat := []
  perLine : Nat := 0
  chain : Nat := 0
  done : List (Nat × Nat) := []
  clipped : Nat := 0
  poisoned : Nat := 0
  loadedPoison : Bool := false
  committed : List Nat := []
  ended : Option Status := none
  deriving DecidableEq, Repr

/-- What a job does. -/
inductive Work where
  | query (q : Query)
  | update (u : Update)
  | compact (c : Compact)
  | version (v : VersionReq)
  | routeEdit (r : RouteEditReq)
  | hint (h : Hint)
  | engine (e : EngineCmd)
  | attend (a : Attend)
  | attnMerge (m : AttnMerge)
  | lookup (l : Lookup)
  | embShare (x : EmbShare)
  | embUpdate (u : EmbUpdate)
  | stepClose (c : StepClose)
  | hotSet (h : HotReq)
  | embVersion (v : EmbVersion)
  | nbRun (n : NbJob)
  deriving DecidableEq, Repr

/-- An admitted job (R29, R33). `doom` is the status with which it ends at the next boundary. -/
structure Job where
  id : Nat
  dom : Nat
  ring : Nat
  opcode : Nat
  tag : Nat
  epoch : Nat
  wait : Nat := 0
  started : Bool := false
  doom : Option Status := none
  link : Nat := 0
  work : Work
  deriving DecidableEq, Repr

/-- An admitted slice (R31, R35). -/
structure Slice where
  id : Nat
  kind : SliceKind
  engine : Engine
  idx : Nat
  start : Nat
  cost : Nat
  epoch : Nat
  pages : List Nat := []
  deriving DecidableEq, Repr

/-- A pass over one partition (R93, R98): members are (job, partition order, slots taken). -/
structure Pass where
  id : Nat
  coll : Nat
  part : Nat
  ver : Nat
  sketch : Bool
  gathered : Bool
  members : List (Nat × Nat × Nat)
  next : Nat := 0
  running : Nat := 0
  side : List (Nat × Nat) := []
  deriving DecidableEq, Repr

/-- Jobs, slices and passes (R29-R37, R93, R141). -/
structure SchedSt where
  nextJob : Nat
  jobs : List Job
  nextSlice : Nat
  slices : List Slice
  nextPass : Nat
  passes : List Pass
  batches : List (Nat × List Nat)
  overruns : List (Nat × Nat)
  ringStart : Nat
  compactWait : List (Nat × Nat)
  versionSeen : List (Nat × Nat)
  routeSkipLogged : Bool
  misplacedLogged : List Nat
  tileLines : SMap Nat
  sorterSeen : SMap Nat
  sorterUsed : SMap Nat
  deriving DecidableEq, Repr

/-- States of a page of tiered space (R324). -/
inductive PageSt where
  | unbacked | resident | fetching | writing | flash
  deriving DecidableEq, Repr

/-- The tier map's entry of a 64 KB page (R324): state, stack of its frame, one dirty bit per 4 KB, access count, PIN,
SKV, rebuild set, and whether its flash copy is a coded group or fine (R242, R336). `since` is the epoch of its last
change of state. -/
structure Page where
  st : PageSt := .unbacked
  stack : Nat := 0
  dirty : Nat := 0
  count : Nat := 0
  pin : Bool := false
  skv : Bool := false
  set : Nat := 0
  coded : Bool := false
  fine : Bool := false
  since : Nat := 0
  deriving DecidableEq, Repr

/-- What a run writes (R336, R337, R347). -/
inductive RunKind where
  | evict (page : Nat)
  | synced (page : Nat)
  | sectors
  | journal
  deriving DecidableEq, Repr

/-- A run being programmed (R336, R339, R341): its sectors by number, their bytes and the poisoned lines among them. With
`each`, every sector is a run of its own and takes the next SEQ. -/
structure Run where
  id : Nat
  kind : RunKind
  set : Nat
  seq : Nat
  sectors : List Nat
  data : SMap Byte
  poison : List Nat
  dirty : Nat
  coded : Bool
  each : Bool
  deriving DecidableEq, Repr

/-- A superblock (R337, R342, R345, R346): 0 free, 1 open, 2 closed and not yet verified, 3 verified. Superblock `n` is
number `n / 2` of Shank A for an even `n` and of Shank B for an odd one. -/
structure Superblock where
  st : Nat := 0
  set : Nat := 0
  erases : Nat := 0
  reads : Nat := 0
  written : Nat := 0
  sectors : List Nat := []
  deriving DecidableEq, Repr

/-- A sector of the write buffer (R334): epoch of its first write, bytes written as a mask. -/
structure WbEntry where
  sector : Nat
  since : Nat
  mask : Nat
  deriving DecidableEq, Repr

/-- A journal record (R347, R348): 0 in the buffer, 1 in a run, 2 durable. -/
structure JRec where
  kind : Nat
  cbSlot : Nat
  epoch : Nat
  number : Nat
  part : Nat
  position : Nat
  step : Nat
  gid : Gid
  payload : List Byte
  seq : Nat
  run : Nat
  st : Nat
  deriving DecidableEq, Repr

/-- The flash layer (12_tiers_and_flash.md): the durable copy, the map's sequence numbers, superblocks, runs, write
buffer, journal, staging, read thresholds and the map rebuild. -/
structure FlashSt where
  dur : SMap Byte
  durPoison : SMap Bool
  seqOf : SMap Nat
  sbs : SMap Superblock
  sbTotal : Nat
  userGb : Nat
  seq : Nat
  nextRun : Nat
  runs : List Run
  wbuf : List WbEntry
  fdSets : List (Nat × Nat × Nat)
  journal : List JRec
  jErased : Nat
  jFlushed : Nat
  staged : List Nat
  stageReq : List Nat
  landed : List Nat
  noFrame : Bool
  evictWait : List Nat
  migrated : Nat
  samples : Nat
  threshold : SMap Int
  scanning : Bool
  scanStart : Nat
  setsLeft : List Nat
  seqResumed : Bool
  covered : Nat
  rereads : List (Nat × Nat)
  deriving DecidableEq, Repr

/-- A coherent request (R359): `op` 0 RD_SHARED, 1 RD_OWN, 2 RD_ONCE, 3 WR_INV, 4 WR_PTL, 5 WR_HINT, 10 WR_BACK, 11 EVICT,
and the SNP_PUSH that follows a WR_HINT, 12; besides those the node's own 6 back-invalidation, 7 write, 8 read, 9 recall.
`mask` is the byte mask of a WR_PTL; for a WR_BACK it is 1 where the line is poison. -/
structure LinkReq where
  op : Nat
  agent : Nat
  txn : Nat
  line : Nat
  dom : Nat
  data : List Byte
  mask : Nat
  target : Nat
  deriving DecidableEq, Repr

/-- An outstanding snoop (R364, R365): `kind` 0 SNP_SHARE, 1 SNP_OWN, 2 SNP_INV, 3 SNP_PUSH. -/
structure Snoop where
  agent : Nat
  kind : Nat
  attempt : Nat
  deriving DecidableEq, Repr

/-- A directory entry (R360): 0 I, 1 S, 2 E, 3 M; an entry with a transaction is in B. `nodeMask` marks bytes that the
node has written since the transaction began, `dirty` a dirty line returned in it, `fwd` that the owner forwarded it. -/
structure DirEntry where
  st : Nat := 0
  owner : Nat := 0
  sharers : Nat := 0
  dom : Nat := 0
  req : Option LinkReq := none
  snoops : List Snoop := []
  nodeMask : Nat := 0
  fwd : Bool := false
  deriving DecidableEq, Repr

/-- The directory and its requests (13_coherence.md): requests that wait in order of arrival, agents whose walk has not
ended, lines poisoned in it, and a link that has retrained at ×16. -/
structure LinkSt where
  dir : SMap DirEntry
  waiting : List LinkReq
  walk : List Nat
  walkLogged : Nat
  narrow : Bool
  deriving DecidableEq, Repr

/-- An awl block's test level, its passes in a row below the highest level, and its last 16 slices: the level passed, or
none (R456). -/
structure AwlBlock where
  level : Option Nat := none
  streak : Nat := 0
  hist : List (Option Nat) := []
  deriving DecidableEq, Repr

/-- Fault handling, Cobbler's reports and its volatile tallies (16_faults.md): events not acknowledged, those to send, those
sent over SMBus; permanent events (kind, index, epoch); lines counted once; what retires at the next boundary; blocks under
confirmation with the slices left; the retirement record; remap copies that wait; wedged functions and those found wedged
since the boundary; near-bank groups by K-stack * 64 + PC (1 SUSPECT, 2 RETIRED); awl blocks, the next one and the epoch of
the last slice; MCTP answers. -/
structure RasSt where
  unacked : List Nat
  pldm : List Nat
  smbus : List Nat
  mgmtDown : Bool
  resetAsked : Bool
  powerOffAsked : Bool
  permEvents : List (Nat × Nat × Nat)
  hardLines : List Nat
  retireWait : List (Nat × Nat)
  confirm : List (Nat × Nat)
  retireRecord : List (Nat × Nat)
  copyWait : List (Nat × Nat)
  wedged : List (Nat × Nat)
  wedgeDue : List (Nat × Nat)
  groups : SMap Nat
  awl : SMap AwlBlock
  awlNext : Nat
  awlLast : Nat
  answers : List (Bool × Nat × Nat)
  deriving DecidableEq, Repr

/-- Start-up, firmware storage and keys (17_startup.md, 18_isolation.md): the NOR's bytes, whether a copy of the retirement
record is valid, digests of the burnt image key slots, the domains' keys, draws from the random source, failed blocks to be
retested, whether a retest has run, whether the map rebuild has begun, states of START_STATE reported (R469). -/
structure BootSt where
  nor : SMap Byte
  recordValid : Bool
  digests : SMap Nat
  keys : SMap (Option Nat)
  draws : Nat
  retest : List Nat
  retested : Bool
  rebuildBegun : Bool
  reports : List Nat
  deriving DecidableEq, Repr

/-- Messages to other nodes (R109, R111, R227, R264, R265, R270, R273, R278, R407, R388-R395, R409). -/
inductive NetMsg where
  | share (r : ShareReq)
  | partialMsg (p : PartialMsg)
  | attn (mergeSlot : Nat) (m : AttnMsg)
  | lookup (r : LookupReq)
  | lookupPart (p : LookupPart)
  | gradient (table step row : Nat) (g : List F32)
  | seal (table step : Nat)
  | drop (table step row : Nat)
  | hotFetch (table slot row : Nat)
  | hotRow (table slot row : Nat) (data : List Byte)
  | parity (m : ParityMsg)
  | ack (queue msgNo idx : Nat)
  | suspect (node : Nat)
  | joinReq (serial stepping period margin ptpDomain ports image : Nat)
  | mapLate (activation : Nat)
  | rebuilt (group member : Nat)
  | startReport (st : Nat)
  deriving DecidableEq, Repr

/-- A message in the egress queues (R384, R385, R387): its number, the map that routed it, its port, its length in bytes,
the frames still to send and those sent and not acknowledged, with their resends. -/
structure OutMsg where
  dst : Nat
  queue : Nat
  no : Nat
  comp : Nat
  port : Nat
  len : Nat
  body : NetMsg
  queued : List Nat
  unacked : List (Nat × Nat)
  deriving DecidableEq, Repr

/-- A received message being assembled (R386): the frames held, as (index, payload bytes). -/
structure RxFlow where
  src : Nat
  queue : Nat
  msgNo : Nat
  msgLen : Nat
  frames : List (Nat × Nat)
  deriving DecidableEq, Repr

/-- A data member being rebuilt here (R409): source pages held, as (stripe, member, bytes, lines of poison). -/
structure Rebuild where
  group : Nat
  member : Nat
  pages : List (Nat × Nat × List Byte × List Nat)
  deriving DecidableEq, Repr

/-- A port's egress (R413-R424). Times count 10 ps from the boundary: that of the last change of credits, the end of the
frame on the wire and its queue, the end of everything on the wire. A credit counts 10^-5 bit. `mask` is the gate mask at
the end of the stitch before, `held` the queues whose head frame is counted in GUARD_HELD, `oversize` in OVERSIZE_HELD. -/
structure EgressPort where
  time : Nat := 0
  frameEnd : Nat := 0
  frameQ : Nat := 0
  busy : Nat := 0
  pointer : Nat := 0
  arrived : Bool := true
  deficit : List Nat := [0, 0, 0, 0, 0]
  credit : List Int := [0, 0, 0, 0, 0, 0, 0, 0]
  mask : Nat := 0xFF
  held : List Nat := []
  oversize : List Nat := []
  deriving DecidableEq, Repr

/-- Composition and the fabric's transport (14_fabric.md). -/
structure FabricSt where
  out : List OutMsg
  mapSlot : Option Nat
  mapA : Nat
  mapPrevA : Option Nat
  mapPending : Option Nat
  mapDue : Option Nat
  mapLateDue : Bool
  failed : List Nat
  joinAt : Option Nat
  shareWait : List (Nat × Nat × ShareReq)
  rx : List RxFlow
  rxNext : SMap Nat
  parity : SMap Nat
  stale : List Nat
  rebuild : Option Rebuild
  egress : SMap EgressPort
  txNo : SMap Nat
  deriving DecidableEq, Repr

/-- Sequence slots as last read at a boundary (R211): STATE by slot number. -/
structure AttnSt where
  slots : SMap Nat
  deriving DecidableEq, Repr

/-- A version slot of an embedding table (R279): 0 FREE, 1 LOADING, 2 CURRENT, 3 RETIRED; its shard map and row region. -/
structure EmbSlot where
  state : Nat := 0
  map : Nat := 0
  row : Nat := 0
  since : Nat := 0
  deriving DecidableEq, Repr

/-- A closed step that is not yet applied (R272-R276). `job` is its STEP_CLOSE. -/
structure ClosedStep where
  step : Nat
  c : Nat
  lr : F32
  job : Nat
  sealSent : Bool := false
  seals : List Nat := []
  applied : Nat := 0
  poisoned : Nat := 0
  deriving DecidableEq, Repr

/-- An entry of the update buffer (R270, R271): the FP32 sums of a row's gradients in a step. -/
structure GradEntry where
  step : Nat
  row : Nat
  sum : List F32
  deriving DecidableEq, Repr

/-- A copy in the hot pool (R277, R278), tagged with the slot it was read from. -/
structure HotRow where
  row : Nat
  slot : Nat
  data : List Byte
  poison : Bool
  deriving DecidableEq, Repr

/-- What the node holds of one embedding table (R259, R270-R279). -/
structure EmbTable where
  st : Nat := 0
  dom : Nat := 0
  a : EmbSlot := {}
  b : EmbSlot := {}
  swap : Nat := 0
  stepOpen : Nat := 0
  entries : List GradEntry := []
  closed : List ClosedStep := []
  early : List (Nat × Nat) := []
  lost : List (Nat × Nat) := []
  hot : List HotRow := []
  hotList : List Nat := []
  refresh : Nat := 0
  loaded : Nat := 0
  deriving DecidableEq, Repr

/-- Embedding tables, and lookup shares that wait (R275, R399): sender, arrival, request. -/
structure EmbSt where
  tables : SMap EmbTable
  wait : List (Nat × Nat × LookupReq)
  deriving DecidableEq, Repr

/-- A vector register of a near-bank unit (R288). -/
structure NbVec where
  lanes : List F32
  poison : Bool
  deriving DecidableEq, Repr

/-- A unit's registers, its latched train and its instruction pointer (R288, R294). -/
structure NbRegs where
  v : List NbVec
  a : List Nat
  c : List Nat
  train : Option Nat
  tail : Bool
  pc : Nat
  deriving DecidableEq, Repr

/-- A lace beat (R298). -/
structure NbBeat where
  train : Nat
  vals : List F32
  poison : Bool
  deriving DecidableEq, Repr

/-- A line in a unit's write buffer (R291): bank line, bytes, poison. -/
structure NbLine where
  line : Nat
  data : List Byte
  poison : Bool
  deriving DecidableEq, Repr

/-- A granule run of an NB_RUN (R305): first bank lines of SRC_A, SRC_B and DST, and the lines. -/
structure NbGran where
  a : Nat
  b : Option Nat
  d : Nat
  n : Nat
  deriving DecidableEq, Repr

/-- A near-bank unit during a slice (R288-R298, R305, R310). `src` and `dst` are the windows in bank lines. -/
structure NbUnit where
  on : Bool
  regs : NbRegs
  snap : NbRegs
  data : List Nat
  buf : List NbLine
  sent : List NbBeat
  consumed : List NbBeat
  inbox : List NbBeat
  src : List (Nat × Nat)
  dst : List (Nat × Nat)
  left : List NbGran
  refreshDue : Bool
  bad : Bool
  deriving DecidableEq, Repr

/-- A train of a pooling slice (R301): share, bag, its rows by unit and bank line, the scratch line of its sum, and the number
of that sum among its tail's. -/
structure Train where
  job : Nat
  bag : Nat
  rows : List (Nat × Nat)
  scratch : Nat
  slot : Nat
  deriving DecidableEq, Repr

/-- The slice that a K-stack's issue runs (R300): its pattern, formats, domain and job, its trains. `kind` 0 pooling,
1 NB_RUN. -/
structure NbIssue where
  kind : Nat
  code : List Nat
  inFmt : Nat
  outFmt : Nat
  dom : Nat
  job : Nat
  beats : Nat
  trains : List Train
  clipped : Nat
  poisoned : Nat
  loadedPoison : Bool
  committed : List Nat
  deriving DecidableEq, Repr

/-- Near-bank units (11_near_bank.md): units of running slices by k * 1024 + u, beats on the way to a unit, the issues, and
controller writes held from write windows (R315): address, bytes, domain. -/
structure NbSt where
  units : SMap (Option NbUnit)
  lace : SMap (List NbBeat)
  issues : SMap (Option NbIssue)
  windows : List (Nat × Nat × Nat)
  held : List (Nat × List Byte × Nat)
  deriving DecidableEq, Repr

/-- The node. -/
structure State where
  pending : List Instr
  freshCount : Nat
  power : PowerSt
  time : TimeSt
  regs : SMap Word
  latches : SMap Word
  heldMsgs : List RegMsg
  linkOut : List LinkMsg
  mem : MemSt
  rings : SMap RingRt
  sched : SchedSt
  colls : SMap Coll
  parts : SMap Part
  pages : SMap Page
  ras : RasSt
  boot : BootSt
  fabric : FabricSt
  flash : FlashSt
  link : LinkSt
  attn : AttnSt
  emb : EmbSt
  nb : NbSt
  deriving DecidableEq, Repr

/-- Where the node stops: nowhere. Every command the manual describes has an effect or leaves the node as it is, and no
arm raises a fault. -/
inductive Fault where
  deriving DecidableEq, Repr

/-- What the model has no meaning for. -/
inductive Refusal where
  /-- A row not modelled; raised by no arm. Safe. -/
  | notModelled (mnemonic : String)
  deriving DecidableEq, Repr

/-- No slice, job or pass. -/
def SchedSt.reset : SchedSt :=
  { nextJob := 0, jobs := [], nextSlice := 0, slices := [], nextPass := 0, passes := [], batches := [], overruns := [],
    ringStart := 0, compactWait := [], versionSeen := [], routeSkipLogged := false, misplacedLogged := [], tileLines := [], sorterSeen := [], sorterUsed := [] }

/-- Power on, NODE_RST_N held low (log entry 10). -/
def PowerSt.reset : PowerSt :=
  { vinOk := true, modEn := true, railsUp := true, modPg := true, nodeRstLow := true, offUntilCycle := false, thermTripLow := false
    xspiRstLow := true, xspiCeHigh := true, timePpsOut := 0 }

/-- The stitch timer does not run; the servo's own fields are zero (log entry 3). -/
def TimeSt.reset : TimeSt :=
  { epoch := 0#48, phase := 0, stitchLen := 26000, timer := false, admitOpen := false, firstCommit := false
    netSeconds := 0, estErrorNs := 0, portDelay := [], detachReports := 0 }

def RasSt.reset : RasSt :=
  { unacked := [], pldm := [], smbus := [], mgmtDown := false, resetAsked := false, powerOffAsked := false, permEvents := []
    hardLines := [], retireWait := [], confirm := [], retireRecord := [], copyWait := [], wedged := [], wedgeDue := [], groups := []
    awl := [], awlNext := 0, awlLast := 0, answers := [] }

/-- The NOR is erased (log entry 8): it holds no retirement record. -/
def BootSt.reset : BootSt :=
  { nor := [], recordValid := false, digests := [], keys := [], draws := 0, retest := [], retested := false, rebuildBegun := false
    reports := [] }

def FabricSt.reset : FabricSt :=
  { out := [], mapSlot := none, mapA := 0, mapPrevA := none, mapPending := none, mapDue := none, mapLateDue := false, failed := []
    joinAt := none, shareWait := [], rx := [], rxNext := [], parity := [], stale := [], rebuild := none, egress := [], txNo := [] }

def FlashSt.reset : FlashSt :=
  { dur := [], durPoison := [], seqOf := [], sbs := [], sbTotal := 0, userGb := 0, seq := 0, nextRun := 0, runs := [], wbuf := []
    fdSets := [], journal := [], jErased := 0, jFlushed := 0, staged := [], stageReq := [], landed := [], noFrame := false, evictWait := []
    migrated := 0, samples := 0, threshold := [], scanning := false, scanStart := 0, setsLeft := [], seqResumed := false, covered := 0
    rereads := [] }

def LinkSt.reset : LinkSt := { dir := [], waiting := [], walk := [], walkLogged := 0, narrow := false }

/-- The machine right after reset: every register at its reset value, nothing listed in memory, every queue empty. -/
def State.reset : State :=
  { pending := [], freshCount := 0, power := PowerSt.reset, time := TimeSt.reset, regs := [], latches := [], heldMsgs := []
    linkOut := [], mem := { bytes := [], poison := [], meta_ := [] }, rings := [], sched := SchedSt.reset, colls := [], parts := []
    pages := [], ras := RasSt.reset, boot := BootSt.reset, fabric := FabricSt.reset, flash := FlashSt.reset, link := LinkSt.reset
    attn := { slots := [] }, emb := { tables := [], wait := [] }
    nb := { units := [], lace := [], issues := [], windows := [], held := [] } }
end Sys2Proof.Machine
end

