-- ==== Sys2Proof/Machine/Ops.lean ====
section
/-! DEFINITION. The named operations over the state: registers (R523-R525), memory (R319, R324, R433), the error log
(R458, R459), domains (R494), rings and completions (R370-R373). -/

namespace Sys2Proof.Machine

open Sys2Proof

/-! Registers. -/

/-- The word at a register offset as stored. -/
def State.reg (s : State) (a : Nat) : Word := SMap.get resetWord s.regs a

/-- Store a register word. -/
def State.setReg (s : State) (a : Nat) (w : Word) : State := { s with regs := SMap.set resetWord s.regs a w }

/-- A field's value. -/
def State.fld (s : State) (f : Fld) : Nat := fieldOf (s.reg f.addr).toNat f.lo f.width

/-- A one-bit field. -/
def State.flag (s : State) (f : Fld) : Bool := s.fld f == 1

/-- Set a field; the register's other bits stay. -/
def State.setFld (s : State) (f : Fld) (v : Nat) : State :=
  s.setReg f.addr (BitVec.ofNat 32 (fieldPut (s.reg f.addr).toNat f.lo f.width v))

/-- Add to a counter, which wraps at its width (R523). -/
def State.bumpBy (s : State) (f : Fld) (n : Nat) : State := s.setFld f (s.fld f + n)

/-- Count one. -/
def State.bump (s : State) (f : Fld) : State := s.bumpBy f 1

/-- A pair of registers, low word first (R524). -/
def State.wide (s : State) (lo hi : Fld) : Nat := s.fld lo + 2 ^ lo.width * s.fld hi

/-- Set a pair of registers. -/
def State.setWide (s : State) (lo hi : Fld) (v : Nat) : State := (s.setFld lo v).setFld hi (v / 2 ^ lo.width)

/-- The epoch as a number. -/
def State.now (s : State) : Nat := s.time.epoch.toNat

/-- The node die runs: rails up and NODE_RST_N high (R474, R540). -/
def State.running (s : State) : Bool := s.power.modPg && !s.power.nodeRstLow

/-- A fresh index for free values. -/
def State.fresh (s : State) : State := { s with freshCount := s.freshCount + 1 }

/-- Free number `i` of `n` bits drawn at a place the manual leaves open (log entry 14). -/
def freeBits (seed i n : Nat) : Nat :=
  leNat ((List.range 8).map (fun j => Config.freeByte seed (8 * i + j))) % 2 ^ n

/-! Error log and Cobbler's events (R458, R459). -/

/-- The eight words of a log entry, from its four 64-bit words. -/
def logWords (seq cls sev dom kind idx epoch addr detail : Nat) : List Nat :=
  let w0 := seq % 2 ^ 32 + cls * 2 ^ 32 + sev * 2 ^ 40 + dom * 2 ^ 42 + kind * 2 ^ 48
  let w1 := epoch % 2 ^ 48 + idx % 2 ^ 16 * 2 ^ 48
  [w0 % 2 ^ 32, w0 / 2 ^ 32, w1 % 2 ^ 32, w1 / 2 ^ 32, addr % 2 ^ 32, addr % 2 ^ 52 / 2 ^ 32,
    detail % 2 ^ 32, detail % 2 ^ 64 / 2 ^ 32]

/-- Store consecutive register words. -/
def State.setRegs (s : State) (a : Nat) : List Nat → State
  | [] => s
  | w :: t => (s.setReg a (BitVec.ofNat 32 w)).setRegs (a + 4) t

/-- Cobbler takes up an event of severity 2 or 3: kept until acknowledged, at most 256, sent as PLDM; severity 3 and,
while the management port is down, every event goes to the board management controller over SMBus (R459). -/
def State.report (s : State) (seq sev : Nat) : State :=
  if sev < 2 then s
  else
    let s := if sev = 3 || s.ras.mgmtDown then { s with ras := { s.ras with smbus := s.ras.smbus ++ [seq] } } else s
    if s.ras.unacked.length < 256 then
      { s with ras := { s.ras with
          unacked := s.ras.unacked ++ [seq]
          pldm := if s.ras.mgmtDown then s.ras.pldm else s.ras.pldm ++ [seq] } }
    else s.bump Reg.Ras.LOG_LOST

/-- Write an event to the error log (R458). -/
def State.log (s : State) (cls sev dom kind idx addr detail : Nat) : State :=
  let seq := s.fld Reg.Ras.LOG_HEAD
  let s := s.setRegs (0xA01000 + seq % 1024 * 0x20) (logWords seq cls sev dom kind idx s.now addr detail)
  (s.bump Reg.Ras.LOG_HEAD).report seq sev

/-- Count a register or other access error (R11, R54, R74, R77). -/
def State.accessErr (s : State) : State := s.bump Reg.Ras.ACCESS_ERR_COUNT

/-! Memory. -/

/-- What an unlisted byte reads as: an UNBACKED page reads zero lines (R324); log entry 4. -/
def byteDefault (_ : Nat) : Byte := 0#8

/-- No line is poisoned by default. -/
def poisonDefault (_ : Nat) : Bool := false

/-- Metadata of a line nobody has written. -/
def metaDefault (_ : Nat) : Nat := 0

/-- Memory is in canonical form: addresses strictly rising, nothing listed that an unlisted place reads as. -/
def Memory.wf (m : MemSt) : Bool :=
  SMap.wf byteDefault m.bytes && SMap.wf poisonDefault m.poison && SMap.wf metaDefault m.meta_

def MemSt.byte (m : MemSt) (a : Nat) : Byte := SMap.get byteDefault m.bytes a
def MemSt.linePoison (m : MemSt) (l : Nat) : Bool := SMap.get poisonDefault m.poison l
def State.byte (s : State) (a : Nat) : Byte := s.mem.byte a
def State.read (s : State) (a n : Nat) : List Byte := (List.range n).map (fun i => s.byte (a + i))
/-- A little-endian number of `n` bytes. -/
def State.nat (s : State) (a n : Nat) : Nat := leNat (s.read a n)
/-- A 64-bit word. -/
def State.w64 (s : State) (a : Nat) : Nat := s.nat a 8

/-- Numbers of the 64-byte lines that `n` bytes at `a` touch. -/
def linesOf (a n : Nat) : List Nat :=
  if n = 0 then [] else (List.range ((a + n - 1) / 64 - a / 64 + 1)).map (fun i => a / 64 + i)

/-- Some line of the range carries the poison syndrome (R437). -/
def State.poisoned (s : State) (a n : Nat) : Bool := (linesOf a n).any s.mem.linePoison

/-- The entries of a run of bytes from `a`: those that are no default. -/
def listBytes : Nat → List Byte → SMap Byte
  | _, [] => []
  | a, b :: t => if b = byteDefault a then listBytes (a + 1) t else (a, b) :: listBytes (a + 1) t

/-- Write a run of bytes from `a`. -/
def putBytes (m : SMap Byte) (a : Nat) (data : List Byte) : SMap Byte :=
  m.filter (fun x => decide (x.1 < a)) ++ listBytes a data ++ m.filter (fun x => decide (a + data.length ≤ x.1))

/-- Set one mark over lines. -/
def putAll {β : Type} [DecidableEq β] (d : Nat → β) (v : β) (m : SMap β) : List Nat → SMap β
  | [] => m
  | l :: t => putAll d v (SMap.set d m l v) t

/-- Write bytes: lines written whole lose their poison (R366), every line touched takes the writer's metadata (R432). -/
def MemSt.write (m : MemSt) (a : Nat) (data : List Byte) (dom nb : Nat) : MemSt :=
  let ls := linesOf a data.length
  { bytes := putBytes m.bytes a data
    poison := putAll poisonDefault false m.poison
      (ls.filter (fun l => decide (a ≤ 64 * l) && decide (64 * l + 64 ≤ a + data.length)))
    meta_ := putAll metaDefault (dom + 256 * nb) m.meta_ ls }

/-- Write a poisoned line: zero data and the syndrome (R433). -/
def MemSt.poisonLine (m : MemSt) (l dom : Nat) : MemSt :=
  let w := m.write (64 * l) (List.replicate 64 0#8) dom 0
  { w with poison := SMap.set poisonDefault w.poison l true }

/-- The tier map's default entry. -/
def pageDefault (_ : Nat) : Page := {}

def State.page (s : State) (p : Nat) : Page := SMap.get pageDefault s.pages p
def State.setPage (s : State) (p : Nat) (v : Page) : State := { s with pages := SMap.set pageDefault s.pages p v }

/-- START_STATE (R468). -/
def State.startState (s : State) : Nat := s.fld Reg.Start.START_STATE

/-- A ready set maps the flash sector (R486). -/
def State.sectorMapped (s : State) (x : Nat) : Bool :=
  s.flash.sbs.any (fun y => bitOf (s.fld Reg.G.SET_READY) y.2.set && y.2.sectors.contains x)

/-- Before REBUILD_DONE, a page whose data may lie in a set not yet scanned (R486). -/
def State.unscanned (s : State) (p : Nat) : Bool :=
  !s.flag Reg.G.REBUILD_DONE &&
  (match (s.page p).st with
   | .unbacked | .flash => !(List.range 16).any (fun i => s.sectorMapped (16 * p + i))
   | .resident | .fetching | .writing => false)

/-- The same for a flash-direct sector. -/
def State.unscannedSector (s : State) (x : Nat) : Bool :=
  !s.flag Reg.G.REBUILD_DONE && !s.sectorMapped x && !s.flash.wbuf.any (fun w => decide (w.sector = x))

/-- First address past tiered space, past flash-direct space (R319). -/
def tieredEnd : Nat := 0xE000000000000
def flashEnd : Nat := 0xF000000000000

/-- K-stack window of an address: index and offset (R319, R286). -/
def kwindow (a : Nat) : Option (Nat × Nat) :=
  if a < flashEnd then none
  else
    let o := a - flashEnd
    let k := o / 0x1000000000
    if k < 4 ∧ o % 0x1000000000 < 0x900000000 then some (k, o % 0x1000000000) else none

/-- The address is reserved: an access to it is an access error (R319). -/
def reservedAddr (a : Nat) : Bool := decide (flashEnd ≤ a) && (kwindow a).isNone

/-! Collections as their descriptors name them. -/

def collDefault (_ : Nat) : Coll := {}
def State.coll (s : State) (c : Nat) : Coll := SMap.get collDefault s.colls c
def State.setColl (s : State) (c : Nat) (v : Coll) : State := { s with colls := SMap.set collDefault s.colls c v }

def partKey (c p : Nat) : Nat := c * 2 ^ 20 + p
def partDefault (_ : Nat) : Part := {}
def State.part (s : State) (c p : Nat) : Part := SMap.get partDefault s.parts (partKey c p)
def State.setPart (s : State) (c p : Nat) (v : Part) : State :=
  { s with parts := SMap.set partDefault s.parts (partKey c p) v }

/-- Address of a collection descriptor (R50). -/
def State.collAddr (s : State) (c : Nat) : Nat := s.wide Reg.G.COLL_TABLE_BASE_LO Reg.G.COLL_TABLE_BASE_HI + 64 * c

/-- A word of the collection descriptor (R52). -/
def State.collWord (s : State) (c i : Nat) : Nat := s.w64 (s.collAddr c + 8 * i)

/-- The lockable fields as the descriptor in memory holds them (R52, R54). -/
def State.readShape (s : State) (c : Nat) : Shape :=
  let w := s.collWord c 0
  { metric := fieldOf w 8 2, fullFmt := fieldOf w 10 2, codeFmt := fieldOf w 12 1, residual := bitOf w 13,
    sketchEn := bitOf w 14, dim := fieldOf w 16 13, projBase := fieldOf (s.collWord c 6) 0 52 }

def State.partCount (s : State) (c : Nat) : Nat := fieldOf (s.collWord c 7) 0 21
def State.entryPart (s : State) (c : Nat) : Nat := fieldOf (s.collWord c 7) 32 20

/-- Address of a partition descriptor (R61). -/
def State.partAddr (s : State) (c p : Nat) : Nat := fieldOf (s.collWord c 1) 0 52 + 64 * p

/-- A partition descriptor (R61). -/
structure PartDesc where
  valid : Bool
  insertOpen : Bool
  cbSlot : Nat
  pin : Bool
  ordHigh : Nat
  ordCap : Nat
  layoutBase : Nat
  sideBase : Nat
  sideCap : Nat
  sideCount : Nat
  tombBase : Nat
  fullBase : Nat
  tombCap : Nat
  tombCount : Nat
  deriving DecidableEq, Repr

def State.partDesc (s : State) (c p : Nat) : PartDesc :=
  let a := s.partAddr c p
  let w (i : Nat) := s.w64 (a + 8 * i)
  { valid := bitOf (w 0) 0, insertOpen := bitOf (w 0) 1, cbSlot := fieldOf (w 0) 2 1, pin := bitOf (w 0) 3,
    ordHigh := fieldOf (w 1) 0 25, ordCap := fieldOf (w 1) 32 25, layoutBase := fieldOf (w 2) 0 52,
    sideBase := fieldOf (w 3) 0 52, sideCap := fieldOf (w 4) 0 19, sideCount := fieldOf (w 4) 32 19,
    tombBase := fieldOf (w 5) 0 52, fullBase := fieldOf (w 6) 0 52, tombCap := fieldOf (w 7) 0 19,
    tombCount := fieldOf (w 7) 32 19 }

/-- Bytes of a route record (R73). -/
def routeRecBytes (dim : Nat) : Nat := cdiv (192 + 2 * dim) 64 * 64

/-- Bytes of a main layout region (R68). -/
def layoutBytes (cap : Nat) : Nat := 104 * cap + cdiv (cap / 8) 0x10000 * 0x10000

/-! Frames (R321, R322, R562). -/

/-- Entries of a table whose state is in a frame. -/
def Page.framed (g : Page) : Bool :=
  match g.st with
  | .resident | .fetching | .writing => true
  | .unbacked | .flash => false

/-- A K-stack (S2, S3, S8, S9). -/
def isKstack (k : Nat) : Bool := k == 2 || k == 3 || k == 8 || k == 9

/-- Pseudo-channels of a stack that are retired (R466). -/
def State.pcRetired (s : State) (k : Nat) : Nat := popcount (s.wide (Reg.Stack.PC_RETIRED_LO k) (Reg.Stack.PC_RETIRED_HI k)) 64

/-- Plain stacks named in a mask; a second retirement removes a stack from the pool (R321, R323). -/
def State.stacksOf (s : State) (mask : Nat) : List Nat :=
  (bitsSet mask 12).filter (fun k => !isKstack k && decide (s.pcRetired k < 2))

def State.poolStacks (s : State) : List Nat := s.stacksOf (s.fld Reg.G.SEARCH_STACKS ||| s.fld Reg.G.ALLOC_STACKS)

/-- Frames that the pool gives up: node-reserved regions, one 64 KB journal buffer, and the slots of redirected K-stack
granules (R321, R323, R562); log entry 20 says how they are spread. -/
def State.framesReserved (s : State) : Nat :=
  (s.fld Reg.G.TIER_MAP_MB + s.fld Reg.G.FINE_POOL_MB + s.fld Reg.G.WB_MB + s.fld Reg.G.TOMB_INDEX_MB) * 16 + 1 +
  9216 * ([2, 3, 8, 9].map s.pcRetired).sum

/-- Frames of one plain stack: 48 GB less its 1 GB spare area and its part of the reserved frames. -/
def State.framesPerStack (s : State) : Nat := 47 * 16384 - cdiv s.framesReserved s.poolStacks.length

def State.framesUsed (s : State) (k : Nat) : Nat := (s.pages.filter (fun p => p.2.framed && decide (p.2.stack = k))).length

/-- Free frames in the pool (FREE_FRAMES). -/
def State.freeFrames (s : State) : Nat := (s.poolStacks.map (fun k => s.framesPerStack - s.framesUsed k)).sum

/-- Regions placed by R75: base, bytes and the partition number that shifts the placement. -/
def State.placedRegions (s : State) : List (Nat × Nat × Nat) :=
  let open_ (c : Nat) : Bool := let v := s.coll c; decide (v.st = 1) || decide (v.st = 2)
  (s.parts.flatMap (fun e =>
    if open_ (e.1 / 2 ^ 20) then
      (e.2.cur :: e.2.old).flatMap (fun l =>
        [(l.base, layoutBytes l.ordCap, e.1 % 2 ^ 20), (l.sideBase, 128 * l.sideCap, e.1 % 2 ^ 20),
         (l.tombBase, 16 * l.tombCap, e.1 % 2 ^ 20)])
    else [])) ++
  (s.colls.flatMap (fun e =>
    if open_ e.1 then
      [e.2.routeA, e.2.routeB].filterMap (fun v =>
        if v.state = 0 then none else some (v.base, 64 + s.partCount e.1 * routeRecBytes e.2.shape.dim, 0))
    else []))

/-- The stacks a page may take its frame on, the preferred one first (R75, R322). -/
def State.framePlaces (s : State) (p : Nat) : List Nat :=
  let a := p * 0x10000
  let (set, i) := match s.placedRegions.find? (fun r => decide (r.1 ≤ a) && decide (a < r.1 + r.2.1)) with
    | some r => (s.stacksOf (s.fld Reg.G.SEARCH_STACKS), (a - r.1) / 0x10000 + r.2.2)
    | none => (s.stacksOf (s.fld Reg.G.ALLOC_STACKS), p)
  let n := i % max 1 set.length
  set.drop n ++ set.take n

/-- The page takes a frame (R322); `none` where no stack has one. -/
def State.takeFrame (s : State) (p : Nat) (g : Page) (st : PageSt) : Option State :=
  let l := s.framePlaces p
  match l.find? (fun k => decide (s.framesUsed k < s.framesPerStack)) with
  | some k =>
    let s := if l.head? = some k then s else s.bump Reg.G.PLACE_SPILL
    some (s.setPage p { g with st := st, stack := k, since := s.now })
  | none => none

/-- Bytes of a codebook set (R64) and a projection (R62). -/
def codebookBytes (sh : Shape) : Nat := sh.dim * (if sh.codeFmt = 0 then 32 else 512)
def projBytes (sh : Shape) : Nat := 256 * 2 * sh.dim

/-- The partition map region (R562): node-reserved, reached by no job and no agent. -/
def State.mapRegion (s : State) (a : Nat) : Bool :=
  let base := s.wide Reg.G.MAP_BASE_LO Reg.G.MAP_BASE_HI
  let size := s.fld Reg.G.MAP_MB * 0x100000
  decide (base ≤ a) && decide (a < base + size)

/-! What keeps a page (R325). -/

/-- Pages that a job holds (R229). -/
def Work.pages : Work → List Nat
  | .attend a => a.pages
  | .query _ | .update _ | .compact _ | .version _ | .routeEdit _ | .hint _ | .engine _ | .attnMerge _ | .lookup _
  | .embShare _ | .embUpdate _ | .stepClose _ | .hotSet _ | .embVersion _ | .nbRun _ => []

/-- Regions that stay in stack memory (R76): fixed structures of a collection, and the regions of a PIN 1 partition. -/
def State.keptRegions (s : State) : List (Nat × Nat) :=
  (s.colls.flatMap (fun e =>
    let v := e.2
    if v.st = 0 then []
    else
      ([v.routeA, v.routeB].filterMap (fun x =>
        if x.state = 0 then none else some (x.base, 64 + s.partCount e.1 * routeRecBytes v.shape.dim))) ++
      ([v.cbA, v.cbB].filterMap (fun x => if x.state = 0 then none else some (x.base, codebookBytes v.shape))) ++
      (if v.shape.sketchEn then [(v.shape.projBase, projBytes v.shape)] else []))) ++
  (s.parts.flatMap (fun e =>
    if (s.partDesc (e.1 / 2 ^ 20) (e.1 % 2 ^ 20)).pin then
      (e.2.cur :: e.2.old).flatMap (fun l => [(l.base, layoutBytes l.ordCap), (l.sideBase, 128 * l.sideCap), (l.tombBase, 16 * l.tombCap)])
    else []))

def pageIn (p : Nat) (r : Nat × Nat) : Bool := decide (r.1 < (p + 1) * 0x10000) && decide (p * 0x10000 < r.1 + r.2)

/-- Held for any reason but PIN: a kept region, a job under R229, a running slice. -/
def State.pageHeld (s : State) (p : Nat) : Bool :=
  s.mapRegion (p * 0x10000) || s.keptRegions.any (pageIn p) || s.sched.jobs.any (fun j => j.work.pages.contains p) ||
  s.sched.slices.any (fun x => x.pages.contains p)

def State.evictable (s : State) (p : Nat) : Bool :=
  let g := s.page p
  decide (g.st = .resident) && !g.pin && !s.pageHeld p

/-- Pages named in the tier map. -/
def State.pageList (s : State) : List Nat := s.pages.map (fun x => x.1)

/-- Some evictable page remains or a frame is free: else a write to the UNBACKED page finds no frame (R331). -/
def State.noFrame (s : State) (p : Nat) : Bool :=
  decide ((s.page p).st = .unbacked) && (s.takeFrame p (s.page p) .resident).isNone && !s.pageList.any s.evictable

/-- Some page of the range is UNBACKED and finds no frame. -/
def State.noRoom (s : State) (a n : Nat) : Bool :=
  decide (a < tieredEnd) && (List.range ((a + n - 1) / 0x10000 + 1 - a / 0x10000)).any (fun i => s.noFrame (a / 0x10000 + i))

/-! Cached copies (R360, R363, R366, R376). -/

def dirDefault (_ : Nat) : DirEntry := {}
def State.dir (s : State) (l : Nat) : DirEntry := SMap.get dirDefault s.link.dir l
def State.setDir (s : State) (l : Nat) (e : DirEntry) : State :=
  { s with link := { s.link with dir := SMap.set dirDefault s.link.dir l e } }

/-- Agents that hold a copy. -/
def DirEntry.holders (e : DirEntry) : List Nat :=
  match e.st with
  | 0 => []
  | 1 => bitsSet e.sharers 64
  | _ => [e.owner]

/-- Put a message on the link. -/
def State.toLink (s : State) (m : LinkMsg) : State := { s with linkOut := s.linkOut ++ [m] }

/-- The snoop message of an outstanding snoop. -/
def Snoop.msg (x : Snoop) (line req : Nat) : LinkMsg :=
  match x.kind with
  | 0 => .snpShare x.agent line x.attempt req
  | 1 => .snpOwn x.agent line x.attempt req
  | 2 => .snpInv x.agent line x.attempt
  | _ => .snpPush x.agent line x.attempt

/-- Write a line's poison: counted (R433). -/
def State.markPoison (s : State) (l dom : Nat) : State :=
  ({ s with mem := s.mem.poisonLine l dom }).bump Reg.Ras.POISON_CREATED

/-- Reclaim an entry from agents that are RECLAIMING (R376 step 3). -/
def State.reclaim (s : State) (l : Nat) : State :=
  let e := s.dir l
  let dead := e.holders.filter (fun a => decide (s.fld (Reg.Agent.STATE a) = 2))
  if dead = [] then s
  else if e.st = 1 then
    let sh := dead.foldl (fun m a => m - 2 ^ a) e.sharers
    s.setDir l (if sh = 0 then { e with st := 0, sharers := 0 } else { e with sharers := sh })
  else
    let s := s.setDir l { e with st := 0, sharers := 0 }
    if e.st = 2 then s
    else
      let s := (s.markPoison l e.dom).bump Reg.Link.RECLAIM_POISONED
      let n := s.link.walkLogged
      let s := { s with link := { s.link with walkLogged := n + 1 } }
      if n < 64 then s.log 0x05 2 e.dom 12 e.owner (64 * l) 1 else s

/-- Send the snoops of a transaction: the internal requester answers at once and drops its copy. -/
def State.sendSnoops (s : State) (l : Nat) (e : DirEntry) (r : LinkReq) (xs : List Snoop) : State :=
  let s := s.setDir l { e with req := some r, snoops := xs }
  xs.foldl (fun s x => s.toLink (x.msg l r.agent)) s

/-- A write by the node invalidates every other copy (WR_INV, WR_PTL of the internal requester). The bytes `mask` of the
line are the node's; a dirty line returned later fills only the others; log entry 21. -/
def State.dirWrite (s : State) (l mask : Nat) : State :=
  if s.dir l = {} then s
  else
    let s := s.reclaim l
    let e := s.dir l
    if e.req.isSome then s.setDir l { e with nodeMask := e.nodeMask ||| mask }
    else
      let hs := e.holders.filter (· ≠ 2)
      if hs = [] then s.setDir l {}
      else s.sendSnoops l { e with nodeMask := mask }
        { op := 7, agent := 2, txn := 0, line := l, dom := 0, data := [], mask := mask, target := 0 }
        (hs.map (fun a => { agent := a, kind := 2, attempt := 0 }))

/-! Writes and the tiers (R255, R324, R334). -/

/-- The store has reached a page that is being written back: the write-back is cancelled, an encode too (R255, R324). -/
def State.cancelWriteback (s : State) (p : Nat) (g : Page) : State :=
  match s.flash.runs.find? (fun r => r.kind = .evict p) with
  | some r =>
    let s := { s with flash := { s.flash with runs := s.flash.runs.filter (fun x => x.id ≠ r.id) } }
    let s := s.setPage p { g with st := .resident, dirty := g.dirty ||| r.dirty, since := s.now }
    (if r.coded then s.bump Reg.Skive.ENC_CANCEL else s).bump Reg.G.MIG_CANCEL
  | none => (s.setPage p { g with st := .resident, since := s.now }).bump Reg.G.MIG_CANCEL

/-- A write's effect on the page of tiered space it falls on (R324): an UNBACKED page takes a zero-filled frame; a write
to a page being written back cancels that; a page in flash is fetched on demand. -/
def State.touchPage (s : State) (p d : Nat) : State :=
  let g := s.page p
  let g' := { g with dirty := g.dirty ||| d }
  match g.st with
  | .unbacked => match s.takeFrame p g' .resident with
    | some s => s
    | none => s.setPage p { g' with st := .resident, since := s.now }
  | .resident => if g' = g then s else s.setPage p g'
  | .writing => s.cancelWriteback p g'
  | .fetching => s.setPage p g'
  | .flash => match s.takeFrame p g' .fetching with
    | some s => s
    | none => s.setPage p { g' with st := .fetching, since := s.now }

/-- A write to a flash-direct sector goes into the write buffer (R334). -/
def State.touchSector (s : State) (sec mask : Nat) : State :=
  let l := s.flash.wbuf
  let l := if l.any (fun x => decide (x.sector = sec)) then
      l.map (fun x => if x.sector = sec then { x with mask := x.mask ||| mask } else x)
    else l ++ [{ sector := sec, since := s.now, mask := mask }]
  { s with flash := { s.flash with wbuf := l } }

/-- The write buffer is full (R334). -/
def State.wbFull (s : State) : Bool := decide (s.fld Reg.G.WB_MB * 256 ≤ s.flash.wbuf.length)

/-- Numbers of the 4 KB sectors that `n` bytes at `a` touch, each with the mask of the bytes touched. -/
def sectorsOf (a n : Nat) : List (Nat × Nat) :=
  if n = 0 then []
  else (List.range ((a + n - 1) / 4096 - a / 4096 + 1)).map (fun i =>
    let q := a / 4096 + i
    (q, 2 ^ (min (a + n) (4096 * q + 4096) - 4096 * q) - 2 ^ (max a (4096 * q) - 4096 * q)))

/-- What a write of a sector's bytes does besides the bytes themselves. -/
def State.touchWrite (s : State) (x : Nat × Nat) : State :=
  let a := 4096 * x.1
  if a < tieredEnd then s.touchPage (x.1 / 16) (2 ^ (x.1 % 16))
  else if a < flashEnd then s.touchSector x.1 x.2
  else s

/-- Mask of the bytes of line `l` that `n` bytes at `a` cover. -/
def lineMask (a n l : Nat) : Nat := 2 ^ (min (a + n) (64 * l + 64) - 64 * l) - 2 ^ (max a (64 * l) - 64 * l)

/-- A write by the node for domain `dom`; `nb` marks a near-bank unit's line (R313). Where a page of the range can take no
frame nothing is written, and the job that writes is refused (R331). -/
def State.storeNb (s : State) (a : Nat) (data : List Byte) (dom nb : Nat) : State :=
  if s.noRoom a data.length then { s with flash := { s.flash with noFrame := true } } else
  let s := (sectorsOf a data.length).foldl State.touchWrite s
  let s := (linesOf a data.length).foldl (fun s l => s.dirWrite l (lineMask a data.length l)) s
  { s with mem := s.mem.write a data dom nb }

/-- The range touches a write window of a near-bank slice (R315). -/
def State.nbWindow (s : State) (a n : Nat) : Bool := s.nb.windows.any (fun w => decide (w.2.1 < a + n) && decide (a < w.2.1 + w.2.2))

/-- A write by the node; a write into a near-bank write window is held until the slice ends (R315). -/
def State.store (s : State) (a : Nat) (data : List Byte) (dom : Nat) : State :=
  if s.nbWindow a data.length then { s with nb := { s.nb with held := s.nb.held ++ [(a, data, dom)] } } else s.storeNb a data dom 0

/-- Write a line as poison (R433). -/
def State.poison (s : State) (l dom : Nat) : State :=
  let s := (sectorsOf (64 * l) 64).foldl State.touchWrite s
  (s.dirWrite l (2 ^ 64 - 1)).markPoison l dom

/-! Domains (R493, R494, R502). -/

/-- Active region entry: enabled, domain, encrypted, base, size in bytes (R518). -/
structure RegionView where
  en : Bool
  dom : Nat
  enc : Bool
  base : Nat
  size : Nat
  deriving DecidableEq, Repr

def State.region (s : State) (i : Nat) : RegionView :=
  { en := s.flag (Reg.Region.EN i)
    dom := s.fld (Reg.Region.DOMAIN i)
    enc := s.flag (Reg.Region.ENC i)
    base := (s.fld (Reg.Region.BASE i) + 2 ^ 16 * s.fld (Reg.Region.BASE_H i)) * 0x10000
    size := s.fld (Reg.Region.GRANULES i) * 0x10000 }

/-- Numbers of the region entries that a commit has enabled: those whose word is listed. -/
def State.regionList (s : State) : List Nat :=
  (s.regs.filter (fun p => decide (0x904000 ≤ p.1) && decide (p.1 < 0x905000) && decide (p.1 % 16 = 0))).map
    (fun p => (p.1 - 0x904000) / 16)

/-- Region that holds the byte. -/
def State.regionOf (s : State) (a : Nat) : Option RegionView :=
  (s.regionList.map s.region).find? (fun r => r.en && decide (r.base ≤ a) && decide (a < r.base + r.size))

/-- Domain `d` may reach the byte at `a` (R494, R368, R502). -/
def State.mayReach (s : State) (d a : Nat) : Bool :=
  !reservedAddr a && decide (a < 2 ^ 52) && !s.mapRegion a &&
  (match s.regionOf a with
   | some r => (decide (d = 0) || decide (r.dom = d)) && (!r.enc || s.flag (Reg.Dom.KEY_LOADED r.dom))
   | none => decide (d = 0))

/-- First addresses of the 64 KB granules that a range touches. -/
def granulesOf (a n : Nat) : List Nat :=
  if n = 0 then [] else (List.range ((a + n - 1) / 0x10000 - a / 0x10000 + 1)).map (fun i => max a ((a / 0x10000 + i) * 0x10000))

/-- The whole range lies in the domain's memory. Regions are whole granules of 64 KB. -/
def State.inDomain (s : State) (d a n : Nat) : Bool := (granulesOf a n).all (s.mayReach d)

/-- The whole range lies in pinned memory (R330). -/
def State.pinned (s : State) (a n : Nat) : Bool :=
  (granulesOf a n).all (fun g =>
    if tieredEnd ≤ g then (kwindow g).isSome && (kwindow (min (a + n - 1) (g / 0x10000 * 0x10000 + 0xFFFF))).isSome
    else (s.page (g / 0x10000)).pin || s.mapRegion g)

/-- The whole range lies in flash-direct space (R319). -/
def flashDirect (a n : Nat) : Bool := decide (tieredEnd ≤ a) && decide (a + n ≤ flashEnd)

/-- The node serves the rings of domain `d` (R493). -/
def State.domOn (s : State) (d : Nat) : Bool := decide (d = 0) || s.flag (Reg.Dom.EN d)

end Sys2Proof.Machine
end

