-- ==== Sys2Proof/Machine/Jobs.lean ====
section
/-! DEFINITION. Jobs, ring pairs and completion records: the parts every service shares (R13-R17, R29, R36, R370-R374,
R438, R528). -/

namespace Sys2Proof.Machine

open Sys2Proof

/-- Status codes (R13). -/
def Status.code : Status → Nat
  | .ok => 0x00 | .short => 0x01 | .tied => 0x02 | .poisoned => 0x10 | .moved => 0x11 | .overrun => 0x12
  | .staleVersion => 0x13 | .domainFault => 0x14 | .aborted => 0x15 | .refused => 0x16

/-- Place in the order of R15. -/
def Status.rank : Status → Nat
  | .domainFault => 0 | .poisoned => 1 | .overrun => 2 | .aborted => 3 | .moved => 4 | .refused => 5
  | .staleVersion => 6 | .short => 7 | .tied => 8 | .ok => 9

/-- The first of two statuses in the order of R15. -/
def Status.first (a b : Status) : Status := if a.rank ≤ b.rank then a else b

/-- Status of a code; codes not listed are reserved (R14). -/
def Status.ofCode (c : Nat) : Option Status :=
  [Status.ok, .short, .tied, .poisoned, .moved, .overrun, .staleVersion, .domainFault, .aborted, .refused].find?
    (fun s => s.code = c)

/-- The result list is valid under the status (R13). -/
def Status.listValid : Status → Bool
  | .ok | .short | .tied | .staleVersion => true
  | _ => false

/-- The status of the first check that fails. -/
def firstFail : List (Bool × Status) → Option Status
  | [] => none
  | (ok, st) :: t => if ok then firstFail t else some st

/-- The first check that fails is the one `k` places before the last. -/
def failsAtLast (l : List (Bool × Status)) (k : Nat) : Bool :=
  (l.take (l.length - 1 - k)).all (fun y => y.1) && !(l.getD (l.length - 1 - k) (true, .ok)).1

/-! Jobs. -/

def State.job? (s : State) (id : Nat) : Option Job := s.sched.jobs.find? (fun j => j.id = id)

def State.setJobs (s : State) (l : List Job) : State := { s with sched := { s.sched with jobs := l } }

/-- Replace the job of the same number. -/
def State.putJob (s : State) (j : Job) : State :=
  s.setJobs (s.sched.jobs.map (fun x => if x.id = j.id then j else x))

/-- Doom a job: it ends at the next boundary with the first status that applies (R15, R438). -/
def Job.doomed (j : Job) (st : Status) : Job :=
  { j with doom := some (match j.doom with | some o => o.first st | none => st) }

def State.doomJob (s : State) (id : Nat) (st : Status) : State :=
  match s.job? id with
  | some j => s.putJob (j.doomed st)
  | none => s

/-- Jobs that a slice serves. -/
def sliceJobs (s : State) : SliceKind → List Nat
  | .routeWalk j _ | .tableBuild j _ | .rebuild j _ | .localSelect j _ | .rerank j _ | .fanIn j _ | .insertEncode j
  | .mainFold j _ _ | .sideFold j _ _ | .routeCopy j _ | .gemm j .. | .vectorOp j .. | .kvProject j ..
  | .rotateWrite j .. | .fused j .. | .combine j .. | .merge j .. | .sortOwners j .. | .pooling j _
  | .lookupCombine j .. | .nbRun j .. => [j]
  | .sketchPass p .. | .codePass p .. | .sideSlice p .. =>
    match s.sched.passes.find? (fun x => x.id = p) with
    | some x => x.members.map (fun m => m.1)
    | none => []
  | .nbPool k _ =>
    match SMap.get (fun _ => none) s.nb.issues k with
    | some i => (i.trains.map (fun t => t.job)).foldl insNat []
    | none => []
  | .stepApply .. | .nbApply .. | .awl _ => []

/-- A job leaves the scheduler: its own slices are cancelled, its places in passes are emptied. -/
def State.dropJob (s : State) (id : Nat) : State :=
  { s with sched := { s.sched with
      jobs := s.sched.jobs.filter (fun j => j.id ≠ id)
      slices := s.sched.slices.filter (fun x => sliceJobs s x.kind ≠ [id])
      passes := (s.sched.passes.map (fun p => { p with members := p.members.filter (fun m => m.1 ≠ id) })).filter
        (fun p => p.members ≠ []) } }

/-! Rings. -/

def ringKey (d r : Nat) : Nat := 8 * d + r
def ringDefault (_ : Nat) : RingRt := {}
def State.ring (s : State) (d r : Nat) : RingRt := SMap.get ringDefault s.rings (ringKey d r)
def State.setRing (s : State) (d r : Nat) (v : RingRt) : State :=
  { s with rings := SMap.set ringDefault s.rings (ringKey d r) v }

def State.workBase (s : State) (d r : Nat) : Nat := s.wide (Reg.Ring.WORK_BASE d r) (Reg.Ring.WORK_BASE_H d r)
def State.compBase (s : State) (d r : Nat) : Nat := s.wide (Reg.Ring.COMP_BASE d r) (Reg.Ring.COMP_BASE_H d r)
def State.ctrlBase (s : State) (d r : Nat) : Nat := s.wide (Reg.Ring.CTRL_BASE d r) (Reg.Ring.CTRL_BASE_H d r)
def State.workSlots (s : State) (d r : Nat) : Nat := 2 ^ s.fld (Reg.Ring.WORK_LOG2 d r)
def State.compSlots (s : State) (d r : Nat) : Nat := 2 ^ s.fld (Reg.Ring.COMP_LOG2 d r)

/-- Address of the next descriptor slot of a work ring (R371). -/
def State.headAddr (s : State) (d r : Nat) : Nat :=
  s.workBase d r + (s.ring d r).workHead % s.workSlots d r * 64

/-- A descriptor is visible: a WORK_TAIL past it has been read (R372). -/
def State.headVisible (s : State) (d r : Nat) : Bool :=
  let g := s.ring d r
  decide (g.workTail ≠ g.workHead) && decide ((g.workTail + 2 ^ 32 - g.workHead) % 2 ^ 32 ≤ s.workSlots d r)

/-- Free completion slots less those reserved (R373). -/
def State.compRoom (s : State) (d r : Nat) : Nat :=
  let g := s.ring d r
  s.compSlots d r - (g.compTail + 2 ^ 32 - g.compHead) % 2 ^ 32 - g.reserved

/-- Write the node's control line (R371). -/
def State.nodeLine (s : State) (d r : Nat) : State :=
  let g := s.ring d r
  s.store (s.ctrlBase d r + 0x40)
    (leBytes 4 g.workHead ++ leBytes 4 g.compTail ++ leBytes 8 s.now ++ List.replicate 48 0#8) 0

/-- Eight 64-bit words as a 64-byte record. -/
def recordBytes (ws : List Nat) : List Byte := ((List.range 8).map (fun i => leBytes 8 (ws.getD i 0))).flatten

/-- Write one completion record, then COMP_TAIL (R373), and count it (R528). A job one of whose writes found no frame is
refused (R331). -/
def State.postRecord (s : State) (d r : Nat) (status : Status) (ws : List Nat) : State :=
  let g := s.ring d r
  let status := if s.flash.noFrame then status.first .refused else status
  let ws := if s.flash.noFrame then ws.set 1 (ws.getD 1 0 / 256 * 256 + status.code) else ws
  let s := { s with flash := { s.flash with noFrame := false } }
  let s := s.store (s.compBase d r + g.compTail % s.compSlots d r * 64) (recordBytes ws) d
  let g' := { g with compTail := (g.compTail + 1) % 2 ^ 32, reserved := g.reserved - 1 }
  let s := ((s.setRing d r g').nodeLine d r).setFld (Reg.Ring.RING_BUSY d r) (b2n (g'.reserved ≠ 0))
  let s := s.bump (Reg.DomCtr.COMPLETIONS d)
  if status = .refused then s.bump (Reg.DomCtr.REFUSED_COUNT d) else s

/-- Second word of a record: status and the bits above it. -/
def statusWord (st : Status) (rest : Nat) : Nat := st.code + 256 * rest

/-- Take the head descriptor off its ring, reserving `n` completion slots (R373, R380). -/
def State.takeHead (s : State) (d r n : Nat) : State :=
  let g := s.ring d r
  let s := s.setRing d r { g with workHead := (g.workHead + 1) % 2 ^ 32, reserved := g.reserved + n }
  let s := (s.setFld (Reg.Ring.COMP_WAIT d r) 0).bump (Reg.Ring.TAKEN d r)
  (if n = 0 then s else s.setFld (Reg.Ring.RING_BUSY d r) 1).nodeLine d r

/-- Register a new job and give its number. -/
def State.addJob (s : State) (d r opcode tag : Nat) (w : Work) : State × Nat :=
  let id := s.sched.nextJob
  ({ s with sched := { s.sched with
      nextJob := id + 1
      jobs := s.sched.jobs ++ [{ id := id, dom := d, ring := r, opcode := opcode, tag := tag, epoch := s.now, work := w }] } }, id)

/-- What a job's end counts and logs by status alone (R438, R517). -/
def State.countEnd (s : State) (dom tag : Nat) (st : Status) : State :=
  match st with
  | .poisoned => (s.bump Reg.Ras.POISON_CONSUMED).log 0x06 2 dom 0 0 0 tag
  | .domainFault => s.bump (Reg.Dom.DOMAIN_FAULTS dom)
  | _ => s

/-- Stitches from admission to completion, counting both (R114). -/
def State.stitches (s : State) (epoch : Nat) : Nat := min 0xFFFF (s.now - epoch + 1)

end Sys2Proof.Machine
end

