-- ==== Sys2Proof/Machine/Colls.lean ====
section
/-! DEFINITION. Collections, partitions, version slots and the partition map as the node reads them (R50-R77, R146,
R156, R164, R396-R398). -/

namespace Sys2Proof.Machine

open Sys2Proof

/-- Write some bits of a 64-bit word in memory; a read and a write of the node. -/
def State.putField (s : State) (a lo width v dom : Nat) : State :=
  s.store a (leBytes 8 (fieldPut (s.w64 a) lo width v)) dom

/-- The partition's VALID, judged by its descriptor (R61). -/
def State.holdsPart (s : State) (c p : Nat) : Bool := decide (p < s.partCount c) && (s.partDesc c p).valid

/-- Full-vector slot size (R66). -/
def slotSize (sh : Shape) : Nat :=
  match sh.fullFmt with
  | 0 => 2 * sh.dim
  | 3 => sh.dim + 4
  | _ => sh.dim

/-- Slots per 16 KB page (R66). -/
def slotsPerPage (sh : Shape) : Nat := if slotSize sh = 0 then 0 else 16384 / slotSize sh

/-- Address of an ordinal's full vector (R67). -/
def fullAddr (sh : Shape) (base o : Nat) : Nat :=
  let p := slotsPerPage sh
  if p = 0 then base else base + o / p * 16384 + o % p * slotSize sh

/-- Bytes of address space behind FULLVEC_BASE (R67). -/
def fullSpan (sh : Shape) (cap : Nat) : Nat :=
  let p := slotsPerPage sh
  if p = 0 then 0 else cdiv cap p * 16384

/-- Subquantizers, entries each, and sub-vector length (R63, R64). -/
def subCount (sh : Shape) : Nat := if sh.codeFmt = 0 then 128 else 64
def entryCount (sh : Shape) : Nat := if sh.codeFmt = 0 then 16 else 256
def subDim (sh : Shape) : Nat := sh.dim / subCount sh

/-- BF16 elements in memory, widened (R166). -/
def State.bf16s (s : State) (a n : Nat) : List F32 :=
  (List.range n).map (fun i => BF16.wide (BitVec.ofNat 16 (s.nat (a + 2 * i) 2)))

/-- A subquantizer's code in a code line at `a` (R63). -/
def State.codeAt (s : State) (sh : Shape) (a j : Nat) : Nat :=
  if sh.codeFmt = 0 then (s.byte (a + j / 2)).toNat / (if j % 2 = 0 then 1 else 16) % 16 else (s.byte (a + j)).toNat

/-! Main layout and side list (R68-R72). -/

def Layout.codeAddr (l : Layout) (o : Nat) : Nat := l.base + 64 * o
def Layout.sketchAddr (l : Layout) (o : Nat) : Nat := l.base + 64 * l.ordCap + 32 * o
def Layout.idAddr (l : Layout) (o : Nat) : Nat := l.base + 96 * l.ordCap + 8 * o
def Layout.filterAddr (l : Layout) (o : Nat) : Nat := l.base + 104 * l.ordCap + o / 8
def Layout.sideAddr (l : Layout) (i : Nat) : Nat := l.sideBase + 128 * i

def nullIndex : Gid := 0xFFFFFFFFFFFFFFFF#64

def State.idAt (s : State) (l : Layout) (o : Nat) : Gid := BitVec.ofNat 64 (s.w64 (l.idAddr o))
def State.filterBit (s : State) (l : Layout) (o : Nat) : Bool := bitOf (s.byte (l.filterAddr o)).toNat (o % 8)

def State.setFilter (s : State) (l : Layout) (o : Nat) (on : Bool) : State :=
  let b := (s.byte (l.filterAddr o)).toNat
  s.store (l.filterAddr o) [BitVec.ofNat 8 (fieldPut b (o % 8) 1 (b2n on))] 0

/-- Delete epoch of the tombstone that names an ordinal (R72, R146). -/
def Layout.tomb? (l : Layout) (o : Nat) : Option Nat := (l.tombs.find? (fun t => t.1 = o)).map (fun t => t.2)

/-- Tombstones stay sorted by ordinal (R148). -/
def insTomb : List (Nat × Nat) → Nat × Nat → List (Nat × Nat)
  | [], x => [x]
  | y :: t, x => if x.1 < y.1 then x :: y :: t else y :: insTomb t x

/-- A side-list entry's metadata (R70). -/
structure SideMeta where
  gid : Gid
  insEpoch : Nat
  cbSlot : Nat
  valid : Bool
  ord : Nat
  deriving DecidableEq, Repr

def State.sideMeta (s : State) (l : Layout) (i : Nat) : SideMeta :=
  let a := l.sideAddr i
  let w := s.w64 (a + 0x68)
  { gid := BitVec.ofNat 64 (s.w64 (a + 0x60)), insEpoch := fieldOf w 0 48, cbSlot := fieldOf w 48 1,
    valid := bitOf w 49, ord := fieldOf (s.w64 (a + 0x70)) 0 24 }

/-- A record of a main layout is visible to epoch `e` (R69, R96, R146). -/
def State.mainVisible (s : State) (l : Layout) (o e : Nat) : Bool :=
  if s.filterBit l o then
    match l.tomb? o with
    | some d => decide (e < d) && decide (s.idAt l o ≠ nullIndex)
    | none => false
  else true

/-- A side-list entry is visible to epoch `e` (R96, R146). -/
def sideVisible (l : Layout) (m : SideMeta) (e : Nat) : Bool :=
  m.valid && decide (m.insEpoch ≤ e) &&
  (match l.tomb? m.ord with
   | some d => decide (e < d)
   | none => true)

/-- The layout version that a pin names, if the node still holds it (R83, R153). -/
def Part.version (p : Part) (v : Nat) : Option Layout := (p.cur :: p.old).find? (fun l => l.ver = v)

/-- The layout version current at epoch `e`, if resident (R110). -/
def Part.versionAt (p : Part) (e : Nat) : Option Layout := (p.cur :: p.old).find? (fun l => decide (l.since ≤ e))

/-- Partitions of a collection that the node holds and has built, in order (R83). -/
def State.builtParts (s : State) (c : Nat) : List Nat :=
  (s.parts.filter (fun x => decide (x.1 / 2 ^ 20 = c) && x.2.built && s.holdsPart c (x.1 % 2 ^ 20))).map
    (fun x => x.1 % 2 ^ 20)

/-! Version slots (R156, R164). Slot 0 is A, slot 1 is B. -/

def Coll.route (c : Coll) (i : Nat) : VSlot := if i = 0 then c.routeA else c.routeB
def Coll.cb (c : Coll) (i : Nat) : VSlot := if i = 0 then c.cbA else c.cbB
def Coll.setRoute (c : Coll) (i : Nat) (v : VSlot) : Coll := if i = 0 then { c with routeA := v } else { c with routeB := v }
def Coll.setCb (c : Coll) (i : Nat) (v : VSlot) : Coll := if i = 0 then { c with cbA := v } else { c with cbB := v }

/-- The CURRENT slot of a pair. -/
def currentOf (a b : VSlot) : Option Nat := if a.state = 2 then some 0 else if b.state = 2 then some 1 else none
def Coll.routeCur (c : Coll) : Option Nat := currentOf c.routeA c.routeB
def Coll.cbCur (c : Coll) : Option Nat := currentOf c.cbA c.cbB

/-- Slot that was current at epoch `e`: the current one where no swap came after `e`, else the retired one (R110). -/
def slotAt (a b : VSlot) (swap e : Nat) : Option Nat :=
  if swap ≤ e then currentOf a b
  else if a.state = 3 then some 0 else if b.state = 3 then some 1 else none

/-- Counts of an ACCESS_ERROR for a misplaced structure: every refusal counted, the first in a stitch logged (R77). -/
def State.misplaced (s : State) (dom addr : Nat) : State :=
  let s := s.accessErr
  if s.sched.misplacedLogged.contains addr then s
  else
    let s := s.log 0x08 1 dom 0 0 addr 0
    { s with sched := { s.sched with misplacedLogged := addr :: s.sched.misplacedLogged } }

/-- First collection structure that does not lie wholly in pinned memory (R77). -/
def State.misplacedColl (s : State) (c : Nat) : Option Nat :=
  let v := s.coll c
  let sh := v.shape
  let route := 64 + s.partCount c * routeRecBytes sh.dim
  (([(v.routeA, route), (v.routeB, route), (v.cbA, codebookBytes sh), (v.cbB, codebookBytes sh)].filter
      (fun x => x.1.state ≠ 0)).map (fun x => (x.1.base, x.2)) ++
    (if sh.sketchEn then [(sh.projBase, projBytes sh)] else [])).find? (fun x => !s.pinned x.1 x.2) |>.map (fun x => x.1)

/-- The partition's full-vector array when it does not lie wholly in flash-direct space (R77). -/
def State.misplacedPart (s : State) (c p : Nat) : Option Nat :=
  let d := s.partDesc c p
  if flashDirect d.fullBase (fullSpan (s.coll c).shape d.ordCap) then none else some d.fullBase

/-! The partition map (R395-R398). -/

def State.mapBase (s : State) (slot : Nat) : Nat :=
  s.wide Reg.G.MAP_BASE_LO Reg.G.MAP_BASE_HI + slot * (s.fld Reg.G.MAP_MB * 0x80000)

/-- Collection entry of the current map: PARTS, CODED, FIRST; a node without a map serves every collection locally. -/
def State.mapColl (s : State) (c : Nat) : Nat × Bool × Nat :=
  match s.fabric.mapSlot with
  | none => (0, false, 0)
  | some m =>
    let w := s.w64 (s.mapBase m + 16 * c)
    (fieldOf w 0 21, bitOf w 21, fieldOf w 32 32)

def State.collLocal (s : State) (c : Nat) : Bool := decide ((s.mapColl c).1 = 0)

/-- A partition's map entry (R396). -/
structure MapEntry where
  h0 : Option Nat
  h1 : Option Nat
  old : Option Nat
  migSlot : Nat
  group : Nat
  fence : Nat
  deriving DecidableEq, Repr

def State.mapEntry (s : State) (c p : Nat) : Option MapEntry :=
  match s.fabric.mapSlot with
  | none => none
  | some m =>
    if p < (s.mapColl c).1 then
      let a := s.mapBase m + 16384 + 16 * ((s.mapColl c).2.2 + p)
      let w := s.w64 a
      some { h0 := if bitOf w 14 then some (fieldOf w 0 14) else none
             h1 := if bitOf w 30 then some (fieldOf w 16 14) else none
             old := if bitOf w 46 then some (fieldOf w 32 14) else none
             migSlot := fieldOf w 47 1
             group := fieldOf w 48 16
             fence := fieldOf (s.w64 (a + 8)) 0 48 }
    else none

/-- The node is listed for a partition at epoch `e` (R397); for a local collection wherever VALID (R396). -/
def State.listed (s : State) (c p e : Nat) : Bool :=
  if s.collLocal c then s.holdsPart c p
  else match s.mapEntry c p with
    | none => false
    | some m =>
      let me := some (s.fld Reg.G.NODE_ADDR)
      decide (m.h0 = me) || decide (m.h1 = me) || (decide (m.old = me) && decide (e < m.fence))

/-- Holders to which a probe goes under R398: none for a partition with no holder. -/
def State.probeHolders (s : State) (c p ctx e : Nat) : Option (List Nat) :=
  match s.mapEntry c p with
  | none => none
  | some m =>
    let alive (h : Option Nat) := h.toList.filter (fun n => !s.fabric.failed.contains n)
    let all := alive m.h0 ++ alive m.h1
    let hs := if (s.mapColl c).2.1 then all.take 1 else all
    if hs = [] then none
    else
      let h := hs.getD ((p + ctx) % hs.length) 0
      let newH := if m.migSlot = 0 then m.h0 else m.h1
      let dual := match m.old with
        | some o => decide (e < m.fence) && decide (newH = some h) && !s.fabric.failed.contains o
        | none => false
      some (h :: (if dual then m.old.toList else []))

/-- Cross-node work is permitted (R24) and the node is a member (R388). -/
def State.crossNode (s : State) : Bool :=
  (decide (s.fld Reg.G.SYNC_STATE = 2) ||
    (decide (s.fld Reg.G.SYNC_STATE = 3) && decide (s.time.estErrorNs ≤ s.fld Reg.G.HOLDOVER_LIMIT_NS))) &&
  decide (s.fld Reg.G.MEMBER_STATE = 2)

/-- Ports that are UP, ascending (R385). -/
def State.upPorts (s : State) : List Nat := (List.range 8).filter (fun p => decide (s.fld (Reg.Port.PORT_STATE p) = 2))

def txDefault (_ : Nat) : Nat := 0

/-- Length of a message in bytes (R109, R111, R227, R264, R265, R407); a message whose length the manual does not give
takes one frame. Log entry 26. -/
def NetMsg.len : NetMsg → Nat
  | .share r => 64 + 2 * r.qvec.length
  | .partialMsg p => 32 + 24 * p.entries.length
  | .attn _ m =>
    let up (n : Nat) : Nat := cdiv n 64 * 64
    64 + 2 * up (4 * m.m.length) + up (4 * (m.o.map List.length).sum)
  | .lookup r => 64 + 8 * r.entries.length + (if r.weighted then 4 * r.entries.length else 0)
  | .lookupPart p => 64 + (p.entries.map (fun e => cdiv (16 + 4 * e.2.2.length) 64 * 64)).sum
  | .gradient _ _ _ g => 64 + 4 * g.length
  | .hotRow _ _ _ d => 64 + d.length
  | .parity m => 72 + m.diff.length
  | .seal .. | .drop .. | .hotFetch .. | .ack .. | .suspect _ | .joinReq .. | .mapLate _ | .rebuilt .. | .startReport _ => 64

/-- Address that stands for the fabric manager's own destination address (R382, R391). -/
def manager : Nat := 16384

/-- A member sends everything, an assigned node control alone, others JOIN_REQ alone (R388). -/
def State.maySend (s : State) (body : NetMsg) : Bool :=
  match s.fld Reg.G.MEMBER_STATE, body with
  | 2, _ => true
  | _, .joinReq .. => true
  | 1, .ack .. | 1, .suspect _ | 1, .mapLate _ | 1, .rebuilt .. => true
  | _, _ => false

/-- Hand a message to an egress queue (R384): it is cut into frames of 8,192 B, all on one port (R385). Nothing is owed to
a node declared failed (R393). -/
def State.send (s : State) (dst queue : Nat) (body : NetMsg) : State :=
  if s.fabric.failed.contains dst || !s.maySend body then s else
  let key := 8 * dst + queue
  let no := SMap.get txDefault s.fabric.txNo key
  let ps := s.upPorts
  let n := body.len
  { s with fabric := { s.fabric with
      txNo := SMap.set txDefault s.fabric.txNo key ((no + 1) % 2 ^ 32)
      out := s.fabric.out ++ [{ dst := dst, queue := queue, no := no, comp := s.fabric.mapA % 2 ^ 32
                                port := ps.getD ((dst + no) % max 1 ps.length) 8, len := n, body := body
                                queued := List.range (cdiv n 8192), unacked := [] }] } }

/-! Half-sole service (R487, R488). -/

/-- Rerank-ready: every sector of the partition's full vectors is mapped by a ready set that the repair has covered. -/
def State.partRerankReady (s : State) (c p : Nat) : Bool :=
  let d := s.partDesc c p
  (List.range (cdiv (fullSpan (s.coll c).shape d.ordHigh) 4096)).all (fun i =>
    s.flash.sbs.any (fun y => bitOf (s.fld Reg.G.SET_READY) y.2.set && bitOf s.flash.covered y.2.set && y.2.sectors.contains (d.fullBase / 4096 + i)))

/-- A search or share over these partitions is served without rerank. -/
def State.unreranked (s : State) (c : Nat) (probes : List Nat) : Bool :=
  match s.startState with
  | 4 => true
  | 5 => probes.any (fun p => s.holdsPart c p && !s.partRerankReady c p)
  | _ => false

end Sys2Proof.Machine
end

