-- ==== Sys2Proof/Machine/Select.lean ====
section
/-! DEFINITION. What search computes, apart from when: the route walk (R86), sketches (R62), distance tables
(R89-R91, R180-R183, R559), scores (R95, R99) and selection (R117-R136). -/

namespace Sys2Proof.Machine

open Sys2Proof

/-! Sketch (R62, R175). -/

/-- One bit per projection row: dot product not below zero; NaN gives 0. -/
def State.sketchOf (s : State) (sh : Shape) (x : List F32) : List Bool :=
  (List.range 256).map (fun i =>
    F32.le 0#32 (dot s.freshCount i (s.bf16s (sh.projBase + 2 * sh.dim * i) sh.dim) x))

def sketchBytes (b : List Bool) : List Byte :=
  (List.range 32).map (fun i => BitVec.ofNat 8
    ((List.range 8).foldl (fun a m => a + b2n (b.getD (8 * i + m) false) * 2 ^ m) 0))

def State.hamming (s : State) (a : Nat) (sk : List Bool) : Nat :=
  ((List.range 256).filter (fun i => bitOf (s.byte (a + i / 8)).toNat (i % 8) != sk.getD i false)).length

/-- Unit norm (R84, R558): sum of squares, reciprocal square root within 2 ULP, scale, round to BF16. -/
def unitNorm (seed : Nat) (x : List F32) : List F32 :=
  let r := F32.rsqrt 2 (f32Sum seed 0 (x.map (fun v => F32.mul v v)))
  x.map (fun v => BF16.wide (F32.mul v r).toBf16)

/-! Route walk (R86). -/

/-- A route graph as a job pins it. -/
structure RouteView where
  base : Nat
  recSize : Nat
  count : Nat
  dim : Nat
  deriving DecidableEq, Repr

def State.routeView (s : State) (base partCount dim : Nat) : RouteView :=
  { base := base, recSize := fieldOf (s.w64 base) 32 16, count := partCount, dim := dim }

def RouteView.recAddr (g : RouteView) (p : Nat) : Nat := g.base + 64 + p * g.recSize

/-- Route distance key: the order of R121 with NaN after +infinity. -/
def routeKey (d : F32) : Int := match d.key with | some k => k | none => 2 ^ 40

/-- A scored record: distance key and partition number; the lower pair is nearer. -/
abbrev Scored := Int × Nat

def scoredLt (a b : Scored) : Bool := decide (a.1 < b.1) || (decide (a.1 = b.1) && decide (a.2 < b.2))

def insScored : List Scored → Scored → List Scored
  | [], x => [x]
  | y :: t, x => if scoredLt x y then x :: y :: t else y :: insScored t x

def State.routeScore (s : State) (g : RouteView) (metric : Nat) (q : List F32) (p : Nat) : Scored :=
  (routeKey (metricDist metric s.freshCount p q (s.bf16s (g.recAddr p + 0xC0) g.dim)), p)

/-- Walk state: records scored, best, expanded, and the addresses of skips (R74). -/
structure WalkSt where
  scored : List Nat
  best : List Scored
  expanded : List Nat
  skips : List (Nat × Nat)
  deriving DecidableEq, Repr

/-- Meet a neighbour: skip it, or score it once and keep the W nearest. A skip records the address and number. -/
def State.walkMeet (s : State) (g : RouteView) (metric w : Nat) (q : List F32) (src : Nat) (x : WalkSt) (n : Nat) : WalkSt :=
  if g.count ≤ n then { x with skips := x.skips ++ [(g.recAddr src, n)] }
  else if x.scored.contains n then x
  else if !bitOf (s.w64 (g.recAddr n)) 20 then { x with skips := x.skips ++ [(g.recAddr n, n)] }
  else { x with scored := n :: x.scored, best := (insScored x.best (s.routeScore g metric q n)).take w }

/-- The loop of R86, one expansion per unit of fuel. -/
def State.walkLoop (s : State) (g : RouteView) (metric w : Nat) (q : List F32) : Nat → WalkSt → WalkSt
  | 0, x => x
  | fuel + 1, x =>
    match x.best.find? (fun r => !x.expanded.contains r.2) with
    | none => x
    | some r =>
      if decide (w ≤ x.best.length) && (match x.best.getLast? with | some l => scoredLt l r | none => false) then x
      else
        let h := s.w64 (g.recAddr r.2)
        let ns := (List.range (min 32 (fieldOf h 24 6))).map (fun i => s.nat (g.recAddr r.2 + 0x40 + 4 * i) 4 % 2 ^ 20)
        s.walkLoop g metric w q fuel
          (ns.foldl (s.walkMeet g metric w q r.2) { x with expanded := r.2 :: x.expanded })

/-- Walk from ENTRY_PART; an entry record that is skipped scores nothing. -/
def State.walk (s : State) (g : RouteView) (metric w visits entry : Nat) (q : List F32) : WalkSt :=
  s.walkLoop g metric w q visits
    (s.walkMeet g metric w q entry { scored := [], best := [], expanded := [], skips := [] } entry)

/-- The probe list (R86): VALID 1 and GHOST 0 records of best, at most NPROBE. -/
def State.probeListOf (s : State) (g : RouteView) (nprobe : Nat) (x : WalkSt) : List Nat :=
  ((x.best.filter (fun r => !bitOf (s.w64 (g.recAddr r.2)) 21)).take nprobe).map (fun r => r.2)

/-- Count skips, and log the first of the stitch (R74). -/
def State.routeSkips (s : State) (dom : Nat) : List (Nat × Nat) → State
  | [] => s
  | (addr, n) :: t =>
    let s := s.accessErr
    let s := if s.sched.routeSkipLogged then s
      else
        let s := s.log 0x08 1 dom 0 0 addr (2 ^ 56 + n % 2 ^ 20)
        { s with sched := { s.sched with routeSkipLogged := true } }
    s.routeSkips dom t

/-! Distance tables (R89-R91, R180-R183, R559). -/

/-- Distance terms of one table (R89). `q` is at unit norm for cosine; `c` is the partition's centroid. -/
def State.tableTerms (s : State) (sh : Shape) (q c : List F32) (book seed : Nat) : List (List F32) :=
  let r := if sh.residual && decide (sh.metric = 0) then List.zipWith F32.sub q c else q
  let d := subDim sh
  (List.range (subCount sh)).map (fun j =>
    let rj := (r.drop (j * d)).take d
    (List.range (entryCount sh)).map (fun k =>
      let e := s.bf16s (book + (j * entryCount sh + k) * d * 2) d
      metricDist sh.metric seed (j * entryCount sh + k) rj e))

/-- The constant C(p) (R89). -/
def tableConst (sh : Shape) (q c : List F32) (seed : Nat) : F32 :=
  if sh.residual && decide (sh.metric ≠ 0) then F32.neg (dot seed 0 q c) else 0#32

def minF (l : List F32) : Option F32 := l.foldl (fun a x => match a with | none => some x | some y => some (if F32.lt x y then x else y)) none
def maxF (l : List F32) : Option F32 := l.foldl (fun a x => match a with | none => some x | some y => some (if F32.lt y x then x else y)) none

/-- Bias of a subquantizer: least finite term, 0 when none is finite (R91, R559). -/
def biasOf (terms : List F32) : F32 := (minF (terms.filter F32.isFinite)).getD 0#32

/-- Range of a subquantizer (R180, R559). -/
def rangeOf (terms : List F32) : F32 :=
  match maxF (terms.filter F32.isFinite) with
  | some m => F32.sub m (biasOf terms)
  | none => 0#32

/-- Least value of the form 2^E (1 + f/4) not below a positive finite FP32 value (R181). -/
def gridUp (x : F32) : F32 :=
  match x.val with
  | .fin _ m e =>
    let n := bitLen m
    let top := e + (n : Int) - 1
    let q := cdiv (m * 4) (2 ^ (n - 1))
    F32.ofVal (.fin false q (top - 2))
  | _ => x

def insF (l : List F32) (x : F32) : List F32 :=
  match l with
  | [] => [x]
  | y :: t => if F32.lt x y then x :: y :: t else y :: insF t x

/-- The common scale s from the ranges and SCALE_TAIL (R181). -/
def scaleOf (ranges : List F32) (tail : Nat) : F32 :=
  let l := ranges.foldl insF []
  let n := l.length
  match maxF l with
  | none => 0x3F800000#32
  | some top =>
    if top.toNat % 2 ^ 31 = 0 then 0x3F800000#32
    else
      let x := l.getD (n - n * tail / 4096 - 1) top
      let x := if x.toNat % 2 ^ 31 = 0 then (l.find? (fun y => F32.lt 0#32 y)).getD top else x
      F32.div (gridUp x) (F32.ofNat 15)

/-- One entry: value and whether it clips (R91, R182, R559). -/
def entryOf (top : Nat) (s b d : F32) : Nat × Bool :=
  match d.val with
  | .nan _ => (top, true)
  | .inf neg => (if neg then 0 else top, true)
  | .fin .. =>
    let x := F32.div (F32.sub d b) s
    match x.toInt with
    | some i => (min (max i 0).toNat top, decide ((top : Int) < i))
    | none => (x.toClamped top, true)

/-- Sum of biases plus the constant (R91). -/
def tableSum (seed : Nat) (t : Table) : F32 := F32.add (f32Sum seed t.porder (t.terms.map biasOf)) t.konst

/-- Quantize one table: entries, offset, clips, and whether its offset saturated (R91, R182, R185, R559). -/
def quantTable (top : Nat) (s m : F32) (seed : Nat) (t : Table) : Table × Nat × Bool :=
  let es := t.terms.map (fun l => l.map (entryOf top s (biasOf l)))
  let sum := tableSum seed t
  let x := F32.div (F32.sub sum m) s
  let exact : Int := match sum.val with
    | .nan _ => 0x10000
    | .inf neg => if neg then 0 else 0x10000
    | .fin .. => match x.toInt with
      | some i => i
      | none => 0x10000
  let bad := !sum.isFinite
  ({ t with entries := es.map (fun l => l.map (fun e => e.1)), off := min (max exact 0).toNat 0xFFFF, offExact := exact },
    (es.map (fun l => (l.filter (fun e => e.2)).length)).sum, bad || decide (0xFFFF < exact))

/-- Least finite sum over the query's tables (R91, R559). -/
def tableMin (seed : Nat) (ts : List Table) : F32 := (minF ((ts.map (tableSum seed)).filter F32.isFinite)).getD 0#32

/-- Clip limit in force (R182, R185). -/
def State.clipLimit (s : State) : Nat := if s.fld Reg.G.CLIP_LIMIT = 0xFFFF then 0x100 else s.fld Reg.G.CLIP_LIMIT

/-- `clipped` of `of` exceeds the limit (R182, R187). -/
def State.overClip (s : State) (clipped total : Nat) : Bool := decide (s.clipLimit * total < clipped * 65536)

/-! Scores (R95). -/

/-- Score of a code line at `a`, and whether the lane saturated. -/
def State.lineScore (s : State) (sh : Shape) (t : Table) (a : Nat) : Nat × Bool :=
  let sum := ((List.range (subCount sh)).map (fun j => (t.entries.getD j []).getD (s.codeAt sh a j) 0)).sum
  (min 0xFFFF (t.off + sum), decide ((0xFFFF : Int) < t.offExact + sum))

/-- The estimate s x score + m (R133). -/
def estimate (scale m : F32) (score : Nat) : F32 := F32.add (F32.mul scale (F32.ofNat score)) m

/-! Selection (R117-R136). -/

/-- Which key a selection uses (R120). -/
inductive KeyKind where
  | score | dist
  deriving DecidableEq, Repr

/-- A key as a number: unsigned code score (R122), or the distance's place (R121). -/
def Cand.key (k : KeyKind) (c : Cand) : Int :=
  match k with
  | .score => c.score
  | .dist => routeKey c.dist

/-- Input position within one source (R124); `list` holds ORIGIN at a fan-in merge (R125). -/
def Cand.posLt (a b : Cand) : Bool :=
  decide (a.list < b.list) || (decide (a.list = b.list) &&
    (decide (a.porder < b.porder) || (decide (a.porder = b.porder) && decide (a.ord < b.ord))))

/-- `nearer` of the manual: key, then position. -/
def Cand.nearer (k : KeyKind) (a b : Cand) : Bool :=
  decide (a.key k < b.key k) || (decide (a.key k = b.key k) && a.posLt b)

def insCand (k : KeyKind) : List Cand → Cand → List Cand
  | [], x => [x]
  | y :: t, x => if Cand.nearer k x y then x :: y :: t else y :: insCand k t x

def sortCands (k : KeyKind) (l : List Cand) : List Cand := l.foldl (insCand k) []

/-- Keep the first copy of each global ID in a sorted list (R127). -/
def dedupFrom : List Gid → List Cand → List Cand
  | _, [] => []
  | seen, x :: t => if seen.contains x.gid then dedupFrom seen t else x :: dedupFrom (x.gid :: seen) t

def dedup (l : List Cand) : List Cand := dedupFrom [] l

/-- What a selection yields: the list kept, and what it dropped. -/
structure Selected where
  kept : List Cand
  all : Nat
  nulls : Nat
  nans : Nat
  dups : Nat
  tied : Bool
  deriving DecidableEq, Repr

/-- One selection (R121-R123, R127, R130): null IDs drop first, then NaN distances, then copies, then the cut. -/
def selectTop (k : KeyKind) (n : Nat) (l : List Cand) : Selected :=
  let a := l.filter (fun c => c.gid ≠ nullIndex)
  let b := if k = .dist then a.filter (fun c => !c.dist.isNan) else a
  let d := dedup (sortCands k b)
  { kept := d.take n
    all := d.length
    nulls := l.length - a.length
    nans := a.length - b.length
    dups := b.length - d.length
    tied := match d[n - 1]?, d[n]? with
      | some x, some y => decide (0 < n) && decide (x.key k = y.key k)
      | _, _ => false }

end Sys2Proof.Machine
end

