-- ==== Sys2Proof/Machine/Blocks.lean ====
section
/-! DEFINITION. Engine blocks, shares and the slice budget (R21, R31, R32, R34, R35, R447, R448, R504, R505). -/

namespace Sys2Proof.Machine

open Sys2Proof

/-- Blocks of each engine kind. -/
def engineCount : Engine → Nat
  | .matrix | .vector => 16
  | .tile => 64
  | .sorter => 4
  | .nbIssue => 4

/-- SOURCE_KIND of an engine block in the error log (R458). -/
def sourceKind : Engine → Nat
  | .matrix => 6 | .vector => 7 | .tile => 8 | .sorter => 9 | .nbIssue => 10

/-- Block state: 0 AVAILABLE, 1 SUSPECT, 2 RETIRED (R529), or excluded because wedged (R463). A K-stack issue has no such
field. -/
def State.blockState (s : State) (e : Engine) (i : Nat) : Nat :=
  if s.ras.wedged.contains (sourceKind e, i) then 2 else
  match e with
  | .matrix => s.fld (Reg.Core.STATE 0 i)
  | .vector => s.fld (Reg.Core.STATE 1 i)
  | .tile => s.fld (Reg.Tile.STATE i)
  | .sorter => s.fld (Reg.Sorter.STATE i)
  | .nbIssue => 0

def State.setBlockState (s : State) (e : Engine) (i v : Nat) : State :=
  match e with
  | .matrix => s.setFld (Reg.Core.STATE 0 i) v
  | .vector => s.setFld (Reg.Core.STATE 1 i) v
  | .tile => s.setFld (Reg.Tile.STATE i) v
  | .sorter => s.setFld (Reg.Sorter.STATE i) v
  | .nbIssue => s

def State.costScale (s : State) (e : Engine) (i : Nat) : Nat :=
  match e with
  | .matrix => s.fld (Reg.Core.COST_SCALE 0 i)
  | .vector => s.fld (Reg.Core.COST_SCALE 1 i)
  | .tile => s.fld (Reg.Tile.COST_SCALE i)
  | .sorter => s.fld (Reg.Sorter.COST_SCALE i)
  | .nbIssue => s.fld (Reg.KS.COST_SCALE i)

/-- Count a slice that ended on its block. -/
def State.sliceRun (s : State) (e : Engine) (i : Nat) : State :=
  match e with
  | .matrix => s.bump (Reg.Core.SLICES_RUN 0 i)
  | .vector => s.bump (Reg.Core.SLICES_RUN 1 i)
  | .tile => s.bump (Reg.Tile.SLICES_RUN i)
  | .sorter | .nbIssue => s

def State.countOverrun (s : State) (e : Engine) (i : Nat) : State :=
  match e with
  | .matrix => s.bump (Reg.Core.OVERRUNS 0 i)
  | .vector => s.bump (Reg.Core.OVERRUNS 1 i)
  | .tile => s.bump (Reg.Tile.OVERRUNS i)
  | .sorter | .nbIssue => s

/-- Reserved admission (R503). -/
def State.reserved (s : State) : Bool := s.flag Reg.Sec.ADMIT_MODE

def State.matrixMask (s : State) (d : Nat) : Nat := s.fld (Reg.Dom.MATRIX_MASK d)
def State.tileMask (s : State) (d : Nat) : Nat := s.wide (Reg.Dom.TILE_MASK_LO d) (Reg.Dom.TILE_MASK_HI d)

/-- Enabled tenant domains (R493). -/
def State.tenants (s : State) : List Nat := (List.range 64).filter (fun d => decide (d ≠ 0) && s.flag (Reg.Dom.EN d))

/-- Block `i` belongs to the share of domain `d` (R504): D0 has the blocks in no enabled tenant's mask. -/
def State.inShare (s : State) (d : Nat) (e : Engine) (i : Nat) : Bool :=
  if !s.reserved then true
  else
    let m (x : Nat) : Nat := match e with
      | .matrix | .vector => s.matrixMask x
      | .tile => s.tileMask x
      | .sorter | .nbIssue => 0
    match e with
    | .sorter | .nbIssue => true
    | _ => if d = 0 then s.tenants.all (fun t => !bitOf (m t) i) else bitOf (m d) i

/-- Sixteenths of each sorter's budget (R504). -/
def State.sixteenths (s : State) (d : Nat) : Nat :=
  if !s.reserved then 16
  else if d = 0 then 16 - (s.tenants.map (fun t => s.fld (Reg.Dom.SORT_SIXTEENTHS t))).sum
  else s.fld (Reg.Dom.SORT_SIXTEENTHS d)

/-- Contexts of a domain's share (R504). -/
def State.ctxShare (s : State) (d : Nat) : Nat :=
  if !s.reserved then 512
  else if d = 0 then 512 - (s.tenants.map (fun t => s.fld (Reg.Dom.CTX_SHARE t))).sum
  else s.fld (Reg.Dom.CTX_SHARE d)

/-- The slice budget of a block in CCLK (R21), and of a sorter's share (R504). -/
def State.budget (s : State) (d : Nat) (e : Engine) : Nat :=
  let b := s.fld Reg.G.PERIOD_US * 1300 - s.fld Reg.G.BOUNDARY_CYCLES - s.fld Reg.G.SLICE_MARGIN
  match e with
  | .sorter => b * s.sixteenths d / 16
  | _ => b

/-- A cost with its block's COST_SCALE, in whole cycles (R31). -/
def scaled (cost scale : Nat) : Nat := cdiv (cost * scale) 256

/-- SCLK cycles as CCLK cycles (R3). -/
def sclk (n : Nat) : Nat := cdiv n 2

/-- Why a job cannot run on an engine: no block left of the kind (R448), no block of the share (R505), or its smallest
slice exceeds the budget on every AVAILABLE block (R32). -/
inductive Unfit where
  | fits | retired | share | tooBig
  deriving DecidableEq, Repr

def State.unfit (s : State) (d : Nat) (e : Engine) (cost : Nat) : Unfit :=
  let live := (List.range (engineCount e)).filter (fun i => decide (s.blockState e i ≠ 2))
  let mine := live.filter (s.inShare d e)
  let avail := mine.filter (fun i => decide (s.blockState e i = 0))
  if live = [] then .retired
  else if mine = [] || decide (s.budget d e = 0) then .share
  else if avail ≠ [] && avail.all (fun i => decide (s.budget d e < scaled cost (s.costScale e i))) then .tooBig
  else .fits

/-- A job that needs these engines at these smallest costs is refused (R32, R448, R505). -/
def State.anyUnfit (s : State) (d : Nat) (needs : List (Engine × Nat)) : Bool :=
  needs.any (fun n => s.unfit d n.1 n.2 ≠ .fits)

/-- Count a refusal for want of a share (R505, R517). -/
def State.countShareRefused (s : State) (d : Nat) (needs : List (Engine × Nat)) : State :=
  if s.reserved && needs.any (fun n => decide (s.unfit d n.1 n.2 = .share) || decide (s.unfit d n.1 n.2 = .tooBig)) then
    s.bump (Reg.Dom.SHARE_REFUSED d)
  else s

/-- End a slice of the kind given: it leaves the list, its block counts it, its job has run (R33). -/
def State.endSlice (s : State) (sid : Nat) : Option (Slice × State) :=
  match s.sched.slices.find? (fun x => x.id = sid) with
  | none => none
  | some x =>
    let s1 := { s with sched := { s.sched with slices := s.sched.slices.filter (fun y => y.id ≠ sid) } }
    some (x, s1.sliceRun x.engine x.idx)

/-- Meanings take effect only while the node runs (R474): a command to a node held in reset changes nothing. -/
def node (s : State) (f : State → State) : Host.Outcome State Fault Refusal := .next (if s.running then f s else s)

end Sys2Proof.Machine
end

