-- ==== Sys2Proof/Machine/Query.lean ====
section
/-! DEFINITION. The query path (R78-R116): admission, walk, tables, passes, selects, rerank, shares and completion. -/

namespace Sys2Proof.Machine

open Sys2Proof

/-- L, the candidates local select keeps (R79). -/
def Query.len (q : Query) : Nat := if q.rerankOff then q.k else max q.k q.depth

def State.putQuery (s : State) (j : Job) (q : Query) : State := s.putJob { j with work := .query q }

/-- A query or share by job number, while it is not doomed. -/
def State.query? (s : State) (id : Nat) : Option (Job × Query) :=
  match s.job? id with
  | some j => match j.work with
    | .query q => if j.doom = none then some (j, q) else none
    | _ => none
  | none => none

/-- All queries and shares in flight. -/
def State.queries (s : State) : List (Job × Query) :=
  s.sched.jobs.filterMap (fun j => match j.work with | .query q => some (j, q) | _ => none)

/-- Contexts in use (R82). -/
def State.ctxUsed (s : State) : List Nat :=
  s.sched.jobs.filterMap (fun j => match j.work with | .query q => q.ctx | .lookup l => some l.ctx | _ => none)

/-- The lowest free context; log entry 19. -/
def State.freeCtx (s : State) : Option Nat := (List.range 512).find? (fun c => !s.ctxUsed.contains c)

/-- A context is free for the domain (R82, R504). -/
def State.ctxOpen (s : State) (d : Nat) : Bool :=
  let mine := (s.sched.jobs.filter (fun j => decide (j.dom = d) &&
    (match j.work with | .query q => q.ctx.isSome | .lookup _ => true | _ => false))).length
  s.freeCtx.isSome && (!s.reserved || decide (mine < s.ctxShare d))

/-- Sorter for a binding that starts at `t` (R118, R448). -/
def State.bindSorter (s : State) (t : Nat) : Option Nat :=
  ((List.range 4).map (fun i => (t + i) % 4)).find? (fun i => decide (s.blockState .sorter i = 0))

/-- Candidate-store bytes (R119) in use. -/
def storeBytes (len : Nat) : Nat := 24 * (if len ≤ 1024 then len else 2 * len)
def State.poolUsed (s : State) : Nat := ((s.queries.filter (fun x => x.2.bound)).map (fun x => storeBytes x.2.len)).sum
def State.poolFits (s : State) (len : Nat) : Bool :=
  decide (s.poolUsed + storeBytes len ≤ s.fld Reg.G.SORT_POOL_MB * 0x100000)

/-- Entries offered to a sorter, 64 bits (R137). -/
def State.offered (s : State) (t n : Nat) : State :=
  let z : Nat → Nat := fun _ => 0
  { s with sched := { s.sched with sorterSeen := SMap.set z s.sched.sorterSeen t (SMap.get z s.sched.sorterSeen t + n) } }

/-- Count what a selection dropped (R121, R123, R127). `rerank` says where NaN distances are counted: a reranked one is never
admitted to the sorter (R106, R121). -/
def State.countSelect (s : State) (t n : Nat) (r : Selected) (rerank : Bool) : State :=
  let s := ((s.offered t (if rerank then n - r.nans else n)).bumpBy (Reg.Sorter.DUP_DROP t) r.dups).bumpBy (Reg.Sorter.NULL_DROP t) r.nulls
  if rerank then s.bumpBy Reg.G.RERANK_NAN r.nans else s.bumpBy (Reg.Sorter.NAN_DROP t) r.nans

/-! Completion (R114, R111). -/

def flagsWord (f : SFlags) : Nat :=
  b2n f.tied + 2 * b2n f.escalated + 4 * b2n f.listClipped + 8 * b2n f.routeShort + 16 * b2n f.slowPath +
  32 * b2n f.rerouted + 64 * b2n f.notLocal

def flagsOr (a b : SFlags) : SFlags :=
  { tied := a.tied || b.tied, escalated := a.escalated || b.escalated, listClipped := a.listClipped || b.listClipped,
    routeShort := a.routeShort || b.routeShort, slowPath := a.slowPath || b.slowPath,
    rerouted := a.rerouted || b.rerouted, notLocal := a.notLocal || b.notLocal }

/-- The search completion record (R114). -/
def State.searchWords (s : State) (j : Job) (q : Query) (st : Status) : List Nat :=
  [j.tag, statusWord st (flagsWord q.flags) + (if st.listValid then q.count else 0) * 2 ^ 32, j.epoch,
    s.stitches j.epoch + q.probeList.length % 2048 * 2 ^ 16, q.codesScored % 2 ^ 40, q.rerankReads % 2 ^ 32]

/-- A result index in the form asked for (R60). -/
def pairIndex (part ord : Nat) : Gid := BitVec.ofNat 64 (ord % 2 ^ 24 + part % 2 ^ 20 * 2 ^ 24)

/-- A share request for some probes (R109). -/
def Query.request (q : Query) (s : State) (epoch num : Nat) (probes : List Nat) (esc : Bool) : ShareReq :=
  { collector := s.fld Reg.G.NODE_ADDR, context := q.ctx.getD 0, compEpoch := s.fabric.mapA % 2 ^ 32, epoch := epoch,
    share := num, coll := q.coll, probes := probes, k := q.k, depth := q.depth, rerankOff := q.rerankOff,
    escalate := esc, sketchMax := q.sketchMax, qvec := q.qvec.map F32.toBf16 }

/-- Cut a list into runs of at most 64 (R108). -/
def chunks64 : Nat → List Nat → List (List Nat)
  | 0, _ => []
  | n + 1, l => if l = [] then [] else l.take 64 :: chunks64 n (l.drop 64)

/-- Probes of one kind by holder, holders in ascending order of address. -/
def groupBy (pairs : List (Nat × Nat)) : List (Nat × List Nat) :=
  ((pairs.map (fun x => x.1)).foldl insNat []).flatMap (fun h =>
    (chunks64 17 ((pairs.filter (fun x => x.1 = h)).map (fun x => x.2))).map (fun l => (h, l)))

/-- Group probes by holder; a dual probe to OLD_HOLDER goes in a share of its own; `none` when some probe has no
holder (R108, R398). -/
def State.groupHolders (s : State) (q : Query) (e : Nat) (probes : List Nat) : Option (List (Nat × List Nat)) :=
  let hs := probes.map (fun p => (p, s.probeHolders q.coll p (q.ctx.getD 0) e))
  if hs.any (fun x => x.2.isNone) then none
  else
    let nth (i : Nat) := hs.filterMap (fun x => ((x.2.getD [])[i]?).map (fun h => (h, x.1)))
    some (groupBy (nth 0) ++ groupBy (nth 1))

/-- Send shares, internally when the holder is this node (R108). -/
def State.sendShares (s : State) (q : Query) (epoch : Nat) : List ShareOut → State
  | [] => s
  | o :: t =>
    let req := q.request s epoch o.num o.probes o.escalate
    let s :=
      if o.holder = s.fld Reg.G.NODE_ADDR then
        { s with fabric := { s.fabric with shareWait := s.fabric.shareWait ++ [(o.holder, s.now, req)] } }
      else s.send o.holder 6 (.share req)
    s.sendShares q epoch t

/-- The collector's own tables escalated, so a request sent from then on carries ESCALATE (R109, R183). -/
def Query.escalated (q : Query) : Bool := decide (q.shape.codeFmt = 0) && (q.bits8 || q.needRebuild)

/-- Reissue a share after MOVED or to a replica (R45, R108, R112, R186, R400). -/
def State.reissue (s : State) (j : Job) (q : Query) (o : ShareOut) (moved esc : Bool) : State :=
  match s.groupHolders q j.epoch o.probes with
  | none => s.doomJob j.id .aborted
  | some gs =>
    let ep := s.fabric.mapA % 2 ^ 32
    if moved && gs.any (fun g => decide (g.1 = o.holder)) && decide (ep = o.compEpoch) then s.doomJob j.id .moved
    else if 1024 < q.nextShare + gs.length - 1 then s.doomJob j.id .aborted
    else
      let outs := (List.range gs.length).map (fun i =>
        ({ num := if i = 0 then o.num else q.nextShare + i - 1, holder := (gs.getD i (0, [])).1,
           probes := (gs.getD i (0, [])).2, got := none, replica := o.replica || !moved, escalate := o.escalate || esc || q.escalated,
           compEpoch := ep } : ShareOut))
      let q := { q with shares := q.shares.filter (fun x => x.num ≠ o.num) ++ outs, nextShare := q.nextShare + gs.length - 1 }
      let s := if moved then s.bump Reg.G.MOVED_REISSUED else s
      (s.putQuery j q).sendShares q j.epoch outs

/-- A share's answer reaches its collector (R45, R112): the first complete partial of a share from the node that now
holds it is kept, MOVED is reissued, any other is discarded. -/
def State.receivePartial (s : State) (m : PartialMsg) : State :=
  match s.queries.find? (fun x => decide (x.2.ctx = some m.context) && decide (x.1.epoch = m.epoch)) with
  | none => s
  | some (j, q) =>
    match q.shares.find? (fun h => decide (h.num = m.share) && h.got.isNone) with
    | none => s
    | some o =>
      if m.status = Status.moved.code then
        if m.holder = o.holder then s.reissue j q o true m.flags.escalated else s
      else
        s.putQuery j { q with
          shares := q.shares.map (fun h => if h.num = m.share then { h with got := some m } else h)
          lastPartialAt := s.now }

/-- Return a share's partial (R111), internally when the collector is this node (R108). -/
def State.returnPartial (s : State) (m : PartialMsg) : State :=
  let s := if m.status = Status.moved.code then s.bump Reg.G.MOVED_SENT else s
  if m.collector = s.fld Reg.G.NODE_ADDR then s.receivePartial m else s.send m.collector 6 (.partialMsg m)

/-- The partial of a share (R111). -/
def State.partialOf (s : State) (j : Job) (q : Query) (si : ShareIn) (st : Status) : PartialMsg :=
  let l := if st.listValid then q.finalList.getD [] else []
  { collector := si.collector, context := si.context, share := si.share, epoch := j.epoch
    holder := s.fld Reg.G.NODE_ADDR, status := st.code, flags := q.flags
    entries := l.map (fun c => { gid := c.gid, pair := c.pair, dist := if q.rerankOff then c.est else c.dist })
    codesScored := q.codesScored, rerankReads := q.rerankReads }

/-- Write the result entries (R114): K entries, null past the count. -/
def State.writeResults (s : State) (j : Job) (q : Query) : State :=
  s.store q.resultAddr (((List.range q.k).map (fun i => leBytes 8 (q.results.getD i nullIndex).toNat)).flatten) j.dom

/-- End a query or share with a status: results, then the record or the partial, then everything it held is released. -/
def State.finishQuery (s : State) (j : Job) (q : Query) (st : Status) : State :=
  let s := s.countEnd j.dom j.tag st
  match q.shareIn with
  | some si => (s.dropJob j.id).returnPartial (s.partialOf j q si st)
  | none =>
    let s := if st.listValid then s.writeResults j q else s
    (s.postRecord j.dom j.ring st (s.searchWords j q st)).dropJob j.id

/-- STALE_VERSION applies (R158). -/
def State.staleFor (s : State) (j : Job) (q : Query) : Bool :=
  let c := s.coll q.coll
  (q.latestOnly || q.shareIn.isSome) && (decide (j.epoch < c.routeSwap) || decide (j.epoch < c.cbSwap))

/-- Status of a list that was formed (R15, R16, R107, R130): `n` entries before the cut, `tied` the cut's tie. -/
def State.listStatus (s : State) (j : Job) (q : Query) (n : Nat) (tied : Bool) : Status :=
  if s.staleFor j q then .staleVersion
  else if n < q.k then .short
  else if tied then .tied
  else .ok

/-- Give the final list to the caller: a local query or a share ends; the collector of a routed query waits (R113). -/
def State.deliverFinal (s : State) (j : Job) (q : Query) (sel : Selected) : State :=
  let q := { q with
    finalList := some sel.kept
    flags := { q.flags with tied := q.flags.tied || sel.tied }
    count := sel.kept.length
    results := sel.kept.map (fun c => if q.pairForm then c.pair else c.gid) }
  if q.fan then s.putQuery j q else s.finishQuery j q (s.listStatus j q sel.all sel.tied)

/-! Admission (R80-R84, R561). -/

/-- A search descriptor (R78). -/
structure SearchDesc where
  latestOnly : Bool
  pairForm : Bool
  fan : Nat
  prefilter : Nat
  rerankOff : Bool
  coll : Nat
  sketchMax : Nat
  tag : Nat
  qvec : Nat
  result : Nat
  k : Nat
  depth : Nat
  nprobe : Nat
  reservedOk : Bool
  deriving DecidableEq, Repr

/-- The eight words of a descriptor at `a`. -/
def State.words8 (s : State) (a : Nat) : List Nat := (List.range 8).map (fun i => s.w64 (a + 8 * i))

/-- Bits of word `i` in use; every other bit is reserved (R12). -/
def reservedZero (ws : List Nat) (masks : List Nat) : Bool :=
  (List.range 8).all (fun i => decide (Nat.land (ws.getD i 0) (2 ^ 64 - 1 - masks.getD i 0) = 0))

def parseSearch (ws : List Nat) : SearchDesc :=
  let w (i : Nat) := ws.getD i 0
  { latestOnly := bitOf (w 0) 8, pairForm := bitOf (w 0) 9, fan := fieldOf (w 0) 10 2, prefilter := fieldOf (w 0) 12 2,
    rerankOff := bitOf (w 0) 14, coll := fieldOf (w 0) 16 10, sketchMax := fieldOf (w 0) 32 9, tag := w 1,
    qvec := fieldOf (w 2) 0 52, result := fieldOf (w 3) 0 52, k := fieldOf (w 4) 0 17, depth := fieldOf (w 4) 32 13,
    nprobe := fieldOf (w 5) 0 11,
    reservedOk := reservedZero ws [0x000001FF03FF7FFF, 2 ^ 64 - 1, 2 ^ 52 - 1, 2 ^ 52 - 1, 0x00001FFF0001FFFF, 0x7FF, 0, 0] }

/-- Collection of the domain, not ABSENT (R51). -/
def State.collOk (s : State) (c d : Nat) : Bool := decide ((s.coll c).st ≠ 0) && decide ((s.coll c).dom = d)

/-- Every partition descriptor whose layout the job pins, and the collection descriptor, read without poison (R561). -/
def State.collClean (s : State) (c : Nat) : Bool :=
  !s.poisoned (s.collAddr c) 64 &&
  (s.parts.filter (fun x => decide (x.1 / 2 ^ 20 = c) && x.2.built)).all
    (fun x => !s.poisoned (s.partAddr c (x.1 % 2 ^ 20)) 64)

/-- Codebook slots that a pinned layout or a valid side entry names (R83). -/
def State.slotsNamed (s : State) (c : Nat) : List Nat :=
  (s.builtParts c).flatMap (fun p =>
    let l := (s.part c p).cur
    l.cbSlot :: ((List.range l.sideCount).map (s.sideMeta l)).filterMap (fun m => if m.valid then some m.cbSlot else none))

/-- First structure that names a FREE slot, by the address of the descriptor that names it (R83). -/
def State.unpinnable (s : State) (c : Nat) : Option Nat :=
  let v := s.coll c
  if v.routeCur.isNone || v.cbCur.isNone then some (s.collAddr c)
  else
    (((s.builtParts c).filter (fun p =>
        let l := (s.part c p).cur
        (l.cbSlot :: ((List.range l.sideCount).map (s.sideMeta l)).filterMap
          (fun m => if m.valid then some m.cbSlot else none)).any
          (fun i => decide ((v.cb i).state = 0)))).head?).map (s.partAddr c)

/-- Smallest slices of a search (R32, R103, R134). -/
def searchNeeds (sh : Shape) (rerankOff : Bool) : List (Engine × Nat) :=
  [(.vector, 256 + cdiv sh.dim 64), (.matrix, 384 + cdiv sh.dim 12),
    (.tile, sclk ((if sh.codeFmt = 0 then 512 else 2048) + 1)), (.sorter, 65)] ++
  (if rerankOff then [] else [(.matrix, 256 + cdiv sh.dim 64)])

/-- The checks of the table "Descriptor checks at admission", in order, then those of R77, R32 and R505. -/
def State.searchChecks (s : State) (d : Nat) (x : SearchDesc) : List (Bool × Status) :=
  let v := s.coll x.coll
  let sh := v.shape
  let qv := s.bf16s x.qvec sh.dim
  let rerank := !x.rerankOff
  [
    (s.flag Reg.G.SEARCH_EN, .refused),
    (s.collOk x.coll d, .domainFault),
    (s.inDomain d x.qvec (2 * sh.dim) && s.inDomain d x.result (8 * x.k), .domainFault),
    (s.collClean x.coll && !s.poisoned x.qvec (2 * sh.dim), .poisoned),
    (decide (v.st = 2), .refused),
    (x.reservedOk && decide (x.fan < 2) && decide (x.prefilter < 3), .refused),
    (decide (x.qvec % 64 = 0) && decide (x.result % 64 = 0), .refused),
    (decide (1 ≤ x.k) && decide (x.k ≤ if rerank then 4096 else 65536), .refused),
    (decide (x.depth ≤ 4096) && decide (x.nprobe ≤ 1024), .refused),
    (qv.all F32.isFinite, .refused),
    (decide (sh.metric ≠ 2) || qv.any (fun y => decide (y.toNat % 2 ^ 31 ≠ 0)), .refused),
    (decide (x.fan = 0) || s.collLocal x.coll || s.crossNode, .refused),
    ((s.unpinnable x.coll).isNone, .refused),
    ((s.misplacedColl x.coll).isNone, .refused),
    (!s.anyUnfit d (searchNeeds sh x.rerankOff), .refused)]

/-- Status of the first check that fails. -/
def State.searchFail (s : State) (d : Nat) (x : SearchDesc) : Option Status := firstFail (s.searchChecks d x)

/-- What a refusal by one of the last three checks counts and logs (R77, R83, R505). -/
def State.refusalSigns (s : State) (d : Nat) (c : Nat) (checks : List (Bool × Status)) (needs : List (Engine × Nat)) : State :=
  if failsAtLast checks 2 then s.log 0x08 1 d 0 0 ((s.unpinnable c).getD 0) 0
  else if failsAtLast checks 1 then s.misplaced d ((s.misplacedColl c).getD 0)
  else if failsAtLast checks 0 then s.countShareRefused d needs
  else s

/-- Build the query of an admitted descriptor: defaults, pins and the query vector (R81, R83, R84). -/
def State.newQuery (s : State) (x : SearchDesc) (ctx sorter : Nat) : Query :=
  let v := s.coll x.coll
  let sh := v.shape
  let raw := s.bf16s x.qvec sh.dim
  let qv := if sh.metric = 2 then unitNorm s.freshCount raw else raw
  let pre : Option Nat := match x.prefilter with
    | 0 => if s.flag Reg.G.PREFILTER_DEF && sh.sketchEn then some (s.fld Reg.G.SKETCH_MAX_DEF) else none
    | 2 => if sh.sketchEn then some x.sketchMax else none
    | _ => none
  { ctx := some ctx, coll := x.coll, latestOnly := x.latestOnly, pairForm := x.pairForm
    fan := decide (x.fan = 1) && !s.collLocal x.coll, rerankOff := x.rerankOff, sketchMax := pre.map (min 256)
    k := x.k, depth := if x.depth = 0 then s.fld Reg.G.RERANK_DEF else x.depth
    nprobe := min (s.partCount x.coll) (if x.nprobe = 0 then s.fld Reg.G.NPROBE_DEF else x.nprobe)
    qvec := qv, sketch := if pre.isSome then s.sketchOf sh qv else [], resultAddr := x.result, shape := sh
    routeSlot := v.routeCur.getD 0, routeBase := (v.route (v.routeCur.getD 0)).base
    cbPins := [0, 1].filter (fun i => decide (2 ≤ (v.cb i).state)), cbBases := [v.cbA.base, v.cbB.base]
    pins := (s.builtParts x.coll).map (fun p => { part := p, ver := (s.part x.coll p).cur.ver })
    sorter := sorter, bound := true, boundAt := s.now }

/-- Bytes of a route graph (table 0) or a codebook set (R52, R62). -/
def versionBytes (s : State) (c table : Nat) : Nat :=
  let sh := (s.coll c).shape
  if table = 0 then 64 + s.partCount c * routeRecBytes sh.dim else codebookBytes sh

/-- A version that the query pins is poisoned (R442). -/
def State.pinPoison (s : State) (q : Query) : Bool :=
  s.poisoned q.routeBase (versionBytes s q.coll 0) || q.cbPins.any (fun i => s.poisoned (q.cbBases.getD i 0) (versionBytes s q.coll 1))

/-- The query takes its sorter and its store; `none` while none is free (R118, R119). A query that pins poisoned tables is doomed
(R442). -/
def State.seatQuery (s : State) (d r tag : Nat) (q : Query) (counted : Bool) : Option State :=
  match s.bindSorter (q.ctx.getD 0) with
  | none => none
  | some t =>
    if s.poolFits q.len then
      let s := if counted then s.bump Reg.Start.HS_UNRERANKED else s
      let a := (s.takeHead d r 1).addJob d r 0x01 tag (.query { q with sorter := t })
      some (if (q.sketch ≠ [] && s.poisoned q.shape.projBase (projBytes q.shape)) || s.pinPoison q then (a.1.doomJob a.2 .poisoned).fresh else a.1.fresh)
    else none

/-- A SEARCH that passed its checks takes context `c`; during HALF_SOLE_1 it is not reranked (R82, R487). -/
def State.startSearch (s : State) (d r c : Nat) (x : SearchDesc) : Option State :=
  let q := s.newQuery x c 0
  if s.unreranked x.coll [] && !x.rerankOff then s.seatQuery d r x.tag { q with rerankOff := true } true
  else s.seatQuery d r x.tag q false

/-- What the node does with the SEARCH descriptor at the head of a ring: `none` leaves it there (R82, R119, R448). -/
def State.takeSearch (s : State) (d r : Nat) : Option State :=
  let ws := s.words8 (s.headAddr d r)
  let x := parseSearch ws
  match s.freeCtx with
  | none => none
  | some c =>
    if !s.ctxOpen d then none
    else match s.searchFail d x with
      | some st =>
        let s := s.refusalSigns d x.coll (s.searchChecks d x) (searchNeeds (s.coll x.coll).shape x.rerankOff)
        let s := (s.takeHead d r 1).countEnd d x.tag st
        some (s.postRecord d r st [x.tag, statusWord st 0, s.now, 1])
      | none =>
        s.startSearch d r c x

/-- ABORT (R79): every live query of the domain with the tag, and a compaction before its swap (R154), is doomed. -/
def State.takeAbort (s : State) (d r : Nat) : State :=
  let tag := s.w64 (s.headAddr d r + 8)
  let s := s.takeHead d r 0
  let hit (j : Job) : Bool := decide (j.dom = d) && decide (j.tag = tag) &&
    (match j.work with
     | .query q => q.shareIn.isNone
     | .compact _ | .engine _ | .attend _ | .attnMerge _ | .lookup _ | .nbRun _ => true
     | .version _ | .routeEdit _ | .update _ | .hint _ | .embShare _ | .embUpdate _ | .stepClose _ | .hotSet _ | .embVersion _ => false)
  let behind (j : Job) : Bool := match j.work with
    | .engine e => s.sched.jobs.any (fun i => hit i && decide (i.id < j.id) && (match i.work with | .engine f => decide (f.chain = e.chain) | _ => false))
    | _ => false
  if s.sched.jobs.any hit then s.setJobs (s.sched.jobs.map (fun j => if hit j || behind j then j.doomed .aborted else j))
  else s.bump Reg.G.ABORT_MISS

/-! Route walk and shares. -/

/-- The route graph a query pins. -/
def State.routeOf (s : State) (q : Query) : RouteView := s.routeView q.routeBase (s.partCount q.coll) q.shape.dim

/-- The walk of a query (R86). -/
def State.walkOf (s : State) (q : Query) : WalkSt :=
  s.walk (s.routeOf q) q.shape.metric (max q.nprobe (s.fld Reg.G.WALK_BEAM)) (s.fld Reg.G.WALK_VISITS)
    (s.entryPart q.coll) q.qvec

/-- The pinned layout of a probe. -/
def State.pinnedLayout (s : State) (q : Query) (p : Nat) : Option Layout :=
  match q.pins.find? (fun x => x.part = p) with
  | some x => (s.part q.coll p).version x.ver
  | none => none

/-- Probes that become this node's own (R87): scanned where VALID and pinned, else done at once. -/
def State.ownProbes (s : State) (q : Query) (l : List Nat) : List Probe :=
  (List.range l.length).map (fun i =>
    let p := l.getD i 0
    { part := p, order := i, st := if (s.pinnedLayout q p).isSome && s.holdsPart q.coll p then 0 else 5, ready := 0,
      gathered := false, kept := [] })

/-! Tables (R90, R180). -/

/-- The tables a query needs: (probe order, slot), main slot first (R90). -/
def State.tablesNeeded (s : State) (j : Job) (q : Query) : List (Nat × Nat) :=
  (q.probes.filter (fun p => p.st ≠ 5)).flatMap (fun p =>
    match s.pinnedLayout q p.part with
    | none => []
    | some l =>
      let other := ((List.range l.sideCount).map (s.sideMeta l)).any
        (fun m => m.valid && decide (m.insEpoch ≤ j.epoch) && decide (m.cbSlot ≠ l.cbSlot))
      (p.order, l.cbSlot) :: (if other then [(p.order, 1 - l.cbSlot)] else []))

/-- Centroid of a partition in the pinned route graph (R64). -/
def State.centroid (s : State) (q : Query) (p : Nat) : List F32 :=
  s.bf16s ((s.routeOf q).recAddr p + 0xC0) q.shape.dim

/-- Compute one table's terms (step 1 of R180). -/
def State.makeTable (s : State) (q : Query) (order slot : Nat) : Table :=
  let p := (q.probes.getD order ⟨0, 0, 0, 0, false, []⟩).part
  let c := s.centroid q p
  { porder := order, slot := slot, terms := s.tableTerms q.shape q.qvec c (q.cbBases.getD slot 0) (s.freshCount + order)
    konst := tableConst q.shape q.qvec c (s.freshCount + order), entries := [], off := 0, offExact := 0 }

/-- Quantize every table with one scale (step 2 of R180, or the rebuild of R183). -/
def State.quantAll (s : State) (q : Query) (bits8 : Bool) : Query × List (Nat × Bool) :=
  let ranges := q.tables.flatMap (fun t => t.terms.map rangeOf)
  let s0 := scaleOf ranges (if bits8 then 0 else s.fld Reg.G.SCALE_TAIL)
  let sc := if bits8 then F32.div s0 (F32.ofNat 16) else s0
  let m := tableMin s.freshCount q.tables
  let r := q.tables.map (quantTable (if bits8 then 255 else 15) sc m s.freshCount)
  ({ q with tables := r.map (fun x => x.1), scale := sc, base := m, bits8 := bits8 }, r.map (fun x => x.2))

/-- Survivor marks in use (R98), in bytes. -/
def State.marksUsed (s : State) : Nat :=
  (s.queries.map (fun x => ((x.2.probes.filter (fun p => decide (p.st = 1) || decide (p.st = 3) || (p.gathered && decide (p.st ≠ 5)))).map
    (fun p => match s.pinnedLayout x.2 p.part with | some l => l.ordCap / 8 | none => 0)).sum)).sum

/-- Offer the probes to passes once their tables are built (R98, R180): with the prefilter a probe that finds room for
its marks waits for a sketch pass first. Returns the probes and how many found the pool full. -/
def State.offerProbes (s : State) (q : Query) : List Probe → Nat → List Probe × Nat
  | [], _ => ([], 0)
  | p :: t, used =>
    if p.st ≠ 0 then let r := s.offerProbes q t used; (p :: r.1, r.2)
    else
      let need := match s.pinnedLayout q p.part with | some l => l.ordCap / 8 | none => 0
      if q.sketchMax.isNone then let r := s.offerProbes q t used; ({ p with st := 2, ready := s.now } :: r.1, r.2)
      else if used + need ≤ s.fld Reg.G.PREFILTER_SRAM_MB * 0x100000 then
        let r := s.offerProbes q t (used + need); ({ p with st := 1, ready := s.now } :: r.1, r.2)
      else let r := s.offerProbes q t used; ({ p with st := 2, ready := s.now } :: r.1, r.2 + 1)

/-- All probes scanned and every list merged: local select is final (R104), or one last prune is due (R136). -/
def Query.scanned (q : Query) : Bool := q.built && q.probes.all (fun p => decide (p.st = 5)) && decide (q.arrived = [])

/-- LIST_CLIPPED (R100). -/
def Query.clipped (q : Query) : Bool :=
  q.clips.any (fun c =>
    decide (q.store.length < q.len) || (match q.store.getLast? with | some x => decide (c < x.score) | none => true))

/-- Make local select final when nothing is left to merge. -/
def State.settleLocal (s : State) (q : Query) : Query :=
  if q.scanned && !q.localFinal && decide (q.len ≤ 1024) then
    { q with localFinal := true, localFinalAt := s.now, flags := { q.flags with listClipped := q.flags.listClipped || q.clipped } }
  else q

/-- The query's tables are final: release the stage, offer the probes. -/
def State.tablesDone (s : State) (j : Job) (q : Query) : State :=
  let r := s.offerProbes q q.probes s.marksUsed
  let q := { q with probes := r.1, built := true, needRebuild := false,
                    tables := q.tables.map (fun t => { t with terms := [] }) }
  (s.bumpBy Reg.G.PREFILTER_SKIP r.2).putQuery j (s.settleLocal q)

/-- Count tables over the limit and saturated offsets (R185, R187). -/
def State.countTables (s : State) (entries : Nat) (r : List (Nat × Bool)) : State :=
  (s.bumpBy Reg.G.TABLES_OVER_LIMIT (r.filter (fun x => s.overClip x.1 entries)).length).bumpBy Reg.G.OFFSET_SAT
    (r.filter (fun x => x.2)).length

/-- All terms are held: choose s, quantize, and escalate where R182 asks (R180, R183, R185, R186). -/
def State.quantizeStep (s : State) (j : Job) (q : Query) : State :=
  let entries := subCount q.shape * entryCount q.shape
  let from8 := decide (q.shape.codeFmt = 1) || q.escalateIn
  let r := s.quantAll q from8
  let s := s.fresh
  if from8 then
    let s := if q.shape.codeFmt = 1 then s.countTables entries r.2
      else (s.bump Reg.G.QUERIES_ESCALATED).bumpBy Reg.G.OFFSET_SAT (r.2.filter (fun x => x.2)).length
    s.tablesDone j { r.1 with bits8 := decide (q.shape.codeFmt = 0),
                              flags := { q.flags with escalated := q.flags.escalated || decide (q.shape.codeFmt = 0) } }
  else
    let excess := r.2.any (fun x => s.overClip x.1 entries)
    let s := s.countTables entries r.2
    if excess && decide (s.fld Reg.G.CLIP_LIMIT ≠ 0xFFFF) then
      (s.bump Reg.G.QUERIES_ESCALATED).putQuery j { r.1 with staged := true, needRebuild := true, escAt := s.now,
                                                             flags := { q.flags with escalated := true } }
    else
      let s := if excess then s.bump Reg.G.ESC_SUPPRESSED else s
      s.tablesDone j r.1

/-- The escalated rebuild (R183). -/
def State.rebuildStep (s : State) (j : Job) (q : Query) : State :=
  let r := s.quantAll q true
  let s := s.fresh.countTables (subCount q.shape * entryCount q.shape) r.2
  s.tablesDone j r.1

/-- Stage pool bytes a query's terms take (R180), and in use. -/
def stageBytes (sh : Shape) (tables : Nat) : Nat := tables * (if sh.codeFmt = 0 then 8192 else 65536)
def State.stageUsed (s : State) : Nat :=
  (s.queries.map (fun x => stageBytes x.2.shape (x.2.tables.filter (fun t => t.terms ≠ [])).length)).sum

/-- The probe list stands: own probes, and shares for the probes of other holders (R86, R108). -/
def State.placeProbes (s : State) (j : Job) (q : Query) (list localP : List Nat) : State :=
  let probes := s.ownProbes q localP
  let q := { q with probes := probes,
                    flags := { q.flags with notLocal := q.flags.notLocal || probes.any (fun p => decide (p.st = 5)) } }
  let q := if probes.all (fun p => decide (p.st = 5)) then s.settleLocal { q with built := true } else q
  if !q.fan then s.putQuery j q
  else
    match s.groupHolders q j.epoch (list.filter (fun p => !localP.contains p)) with
    | none => s.finishQuery j q .aborted
    | some gs =>
      let outs := (List.range gs.length).map (fun i =>
        ({ num := i, holder := (gs.getD i (0, [])).1, probes := (gs.getD i (0, [])).2, got := none,
           replica := false, escalate := false, compEpoch := s.fabric.mapA % 2 ^ 32 } : ShareOut))
      let q := { q with shares := outs, nextShare := gs.length }
      (s.putQuery j q).sendShares q j.epoch outs

/-- An empty probe list ends the query; a misplaced partition refuses it (R87, R52). -/
def State.routeProbes (s : State) (j : Job) (q : Query) (list : List Nat) : State :=
  if list = [] then s.finishQuery j q (s.listStatus j q 0 false)
  else
    let localP := if q.fan then list.filter (fun p => s.listed q.coll p j.epoch) else list
    match localP.find? (fun p => s.holdsPart q.coll p && (s.misplacedPart q.coll p).isSome) with
    | some p => (s.misplaced j.dom ((s.misplacedPart q.coll p).getD 0)).finishQuery j q .refused
    | none => s.placeProbes j q list localP

/-- After the walk: the probe list, then shares for other holders and own probes (R86, R87, R108, R113). -/
def State.finishWalk (s : State) (j : Job) (q : Query) : State :=
  let g := s.routeOf q
  let x := s.walkOf q
  let list := s.probeListOf g q.nprobe x
  let s := (s.fresh).routeSkips j.dom x.skips
  if x.scored.any (fun p => s.poisoned (g.recAddr p) g.recSize) || s.poisoned g.base 64 then
    (s.putQuery j { q with routed := true }).doomJob j.id .poisoned
  else
    let q := { q with routed := true, probeList := list,
                      flags := { q.flags with routeShort := q.flags.routeShort || decide (list.length < q.nprobe) } }
    let level2 := decide (s.startState = 5) && !q.rerankOff && s.unreranked q.coll list
    let q := if level2 then { q with rerankOff := true } else q
    let s := if level2 then s.bump Reg.Start.HS_UNRERANKED else s
    s.routeProbes j q list

end Sys2Proof.Machine
end

