-- ==== Sys2Proof/Machine/Passes.lean ====
section
/-! DEFINITION. Passes over partitions and the slices of a search (R93-R107, R113, R134-R136). -/

namespace Sys2Proof.Machine

open Sys2Proof

/-! Forming passes (R93, R98). -/

/-- A waiting probe: job, order, slots it needs, stitch it became ready, and its place in joining order. -/
structure Waiting where
  job : Nat
  order : Nat
  need : Nat
  ready : Nat
  coll : Nat
  part : Nat
  ver : Nat
  gathered : Bool
  epoch : Nat
  ctx : Nat
  deriving DecidableEq, Repr

/-- Slots a probe takes in a code pass (R93, R184). -/
def Query.passSlots (q : Query) : Nat :=
  let byTable := if q.shape.codeFmt = 1 then 4 else if q.bits8 then 2 else 1
  max byTable (if 4096 < q.len then 8 else if 1024 < q.len then 4 else 1)

/-- Admission epoch first, then context number, then job number. -/
def Waiting.before (a b : Waiting) : Bool :=
  decide (a.epoch < b.epoch) || (decide (a.epoch = b.epoch) &&
    (decide (a.ctx < b.ctx) || (decide (a.ctx = b.ctx) && decide (a.job < b.job))))

def insWaiting : List Waiting → Waiting → List Waiting
  | [], x => [x]
  | y :: t, x => if x.before y then x :: y :: t else y :: insWaiting t x

/-- Probes that wait for a sketch pass or a code pass, ready before this boundary, in joining order. -/
def State.waiting (s : State) (sketch : Bool) : List Waiting :=
  (s.queries.flatMap (fun x =>
    if x.1.doom.isSome then []
    else (x.2.probes.filter (fun p => decide (p.st = if sketch then 1 else 2) && decide (p.ready < s.now))).map (fun p =>
      { job := x.1.id, order := p.order, need := if sketch then 1 else x.2.passSlots, ready := p.ready,
        coll := x.2.coll, part := p.part, ver := ((x.2.pins.find? (fun y => y.part = p.part)).map (fun y => y.ver)).getD 0,
        gathered := p.gathered, epoch := x.1.epoch,
        ctx := match x.2.shareIn with | some i => i.context | none => x.2.ctx.getD 0 }))).foldl insWaiting []

/-- Same partition, layout version and kind of pass. -/
def Waiting.same (a b : Waiting) : Bool :=
  decide (a.coll = b.coll) && decide (a.part = b.part) && decide (a.ver = b.ver) && (a.gathered == b.gathered)

/-- The first probe of each group. -/
def groupHeads : List Waiting → List Waiting → List Waiting
  | seen, [] => seen
  | seen, x :: t => if seen.any x.same then groupHeads seen t else groupHeads (seen ++ [x]) t

/-- Fill passes in order; the last starts when full or when its oldest probe has waited `hold` stitches (R93). -/
def fillPasses (cap hold now : Nat) : List Waiting → List Waiting → List (List Waiting)
  | cur, [] =>
    let used := (cur.map (fun x => x.need)).sum
    if cur ≠ [] && (decide (cap ≤ used) || cur.any (fun x => decide (hold ≤ now - 1 - x.ready))) then [cur] else []
  | cur, x :: t =>
    if (cur.map (fun y => y.need)).sum + x.need ≤ cap then fillPasses cap hold now (cur ++ [x]) t
    else cur :: fillPasses cap hold now [x] t

/-- Change one probe of a query. -/
def Query.setProbe (q : Query) (order : Nat) (f : Probe → Probe) : Query :=
  { q with probes := q.probes.map (fun p => if p.order = order then f p else p) }

/-- The pass's layout version, if the node still holds it. -/
def State.passLayout (s : State) (p : Pass) : Option Layout := (s.part p.coll p.part).version p.ver

/-- Start one pass. -/
def State.startPass (s : State) (sketch : Bool) (ws : List Waiting) : State :=
  match ws with
  | [] => s
  | x :: _ =>
    let l := (s.part x.coll x.part).version x.ver
    let slots := match l with
      | some l =>
        if sketch || decide (l.sideCount = 0) then []
        else
          let other := ws.any (fun w => match s.query? w.job with
            | some (_, q) => q.tables.any (fun t => decide (t.porder = w.order) && decide (t.slot ≠ l.cbSlot))
            | none => false)
          (l.cbSlot, 0) :: (if other then [(1 - l.cbSlot, 0)] else [])
      | none => []
    let p : Pass := { id := s.sched.nextPass, coll := x.coll, part := x.part, ver := x.ver, sketch := sketch,
                      gathered := x.gathered, members := ws.map (fun w => (w.job, w.order, w.need)), side := slots }
    let s := { s with sched := { s.sched with nextPass := s.sched.nextPass + 1, passes := s.sched.passes ++ [p] } }
    ws.foldl (fun s w => match s.query? w.job with
      | some (j, q) => s.putQuery j (q.setProbe w.order (fun p => { p with st := if sketch then 3 else 4 }))
      | none => s) s

/-- Form and start passes of one kind over the probes that `f` admits. -/
def State.formPasses (s : State) (sketch : Bool) (f : Waiting → Bool) : State :=
  let ws := (s.waiting sketch).filter f
  let groups := (groupHeads [] ws).map (fun h => ws.filter h.same)
  (groups.flatMap (fillPasses (if sketch then 16 else 8) (s.fld Reg.G.PROBE_HOLD) s.now [])).foldl
    (fun s l => s.startPass sketch l) s

/-! What a pass slice does. -/

/-- Lines one lane scores: candidates in input order, lines scored, saturated ones, poison met. -/
structure Scan where
  cands : List Cand
  scored : Nat
  sat : Nat
  poisoned : Bool
  deriving DecidableEq, Repr

def Scan.none : Scan := { cands := [], scored := 0, sat := 0, poisoned := false }

/-- Add one scored line. -/
def Scan.add (x : Scan) (c : Cand) (sat poisoned : Bool) : Scan :=
  { cands := x.cands ++ [c], scored := x.scored + 1, sat := x.sat + b2n sat, poisoned := x.poisoned || poisoned }

/-- A poisoned line is consumed and not scored (R101). -/
def Scan.met (x : Scan) : Scan := { x with poisoned := true }

/-- Score the main-layout ordinals `lo` to `lo + n - 1` for one probe (R95, R96, R98, R101). -/
def State.scanMain (s : State) (j : Job) (q : Query) (p : Probe) (t : Table) (l : Layout) (lo n : Nat) : Scan :=
  (List.range n).foldl (fun x i =>
    let o := lo + i
    if (!p.gathered || p.kept.contains o) && s.mainVisible l o j.epoch then
      if s.poisoned (l.codeAddr o) 64 then x.met else
      let r := s.lineScore q.shape t (l.codeAddr o)
      x.add { gid := s.idAt l o, pair := pairIndex p.part o, list := 0, porder := p.order, ord := o, score := r.1,
              est := estimate q.scale q.base r.1, dist := 0#32 } r.2
        (s.poisoned (l.idAddr o) 8)
    else x) Scan.none

/-- Score side-list entries of one codebook slot for one probe (R96, R97). -/
def State.scanSide (s : State) (j : Job) (q : Query) (p : Probe) (t : Table) (l : Layout) (lo n : Nat) : Scan :=
  (List.range n).foldl (fun x i =>
    let m := s.sideMeta l (lo + i)
    if sideVisible l m j.epoch && decide (m.cbSlot = t.slot) then
      if s.poisoned (l.sideAddr (lo + i)) 128 then x.met else
      let r := s.lineScore q.shape t (l.sideAddr (lo + i))
      x.add { gid := m.gid, pair := pairIndex p.part m.ord, list := 1, porder := p.order, ord := m.ord, score := r.1,
              est := estimate q.scale q.base r.1, dist := 0#32 } r.2 false
    else x) Scan.none

/-- The slice list (R99): the best lines by score at or below CUT, earlier first, and the score of the last entry when
the list was full and dropped a line. -/
def sliceList (cap cut : Nat) (l : List Cand) : List Cand × Option Nat :=
  let a := sortCands .score (l.filter (fun c => decide (c.score ≤ cut)))
  (a.take cap, if cap < a.length then (a[cap - 1]?).map (fun c => c.score) else none)

/-- Give a lane's scan to its query. -/
def State.takeScan (s : State) (j : Job) (q : Query) (need : Nat) (x : Scan) : State :=
  let s := s.bumpBy Reg.G.SCORE_SAT x.sat
  let r := sliceList (64 * need) q.cut x.cands
  let q := { q with arrived := q.arrived ++ r.1, clips := q.clips ++ r.2.toList, codesScored := q.codesScored + x.scored }
  let s := s.putQuery j q
  if x.poisoned then s.doomJob j.id .poisoned else s

/-- Count lines a tile read, in units of 1,024 (R529). -/
def State.tileRead (s : State) (t n : Nat) : State :=
  let z : Nat → Nat := fun _ => 0
  let v := SMap.get z s.sched.tileLines t + n
  ({ s with sched := { s.sched with tileLines := SMap.set z s.sched.tileLines t v } }).setFld (Reg.Tile.LINES_READ t) (v / 1024)

def State.pass? (s : State) (id : Nat) : Option Pass := s.sched.passes.find? (fun p => p.id = id)
def State.putPass (s : State) (p : Pass) : State :=
  { s with sched := { s.sched with passes := s.sched.passes.map (fun x => if x.id = p.id then p else x) } }

/-- The pass has admitted and ended every slice. -/
def State.passOver (s : State) (p : Pass) : Bool :=
  match s.passLayout p with
  | none => true
  | some l => decide (l.ordHigh ≤ p.next) && decide (p.running = 0) && p.side.all (fun x => decide (l.sideCount ≤ x.2))

/-- Close a pass that is over: its probes are done, or after a sketch pass wait for their gathered pass (R98). -/
def State.closePass (s : State) (id : Nat) : State :=
  match s.pass? id with
  | none => s
  | some p =>
    if !s.passOver p then s
    else
      let s := { s with sched := { s.sched with passes := s.sched.passes.filter (fun x => x.id ≠ id) } }
      p.members.foldl (fun s m => match s.query? m.1 with
        | none => s
        | some (j, q) =>
          if p.sketch then s.putQuery j (q.setProbe m.2.1 (fun x => { x with st := 2, gathered := true, ready := s.now }))
          else s.putQuery j (s.settleLocal (q.setProbe m.2.1 (fun x => { x with st := 5, kept := [] })))) s

/-- Members of a pass with their probes and queries, doomed jobs left out. -/
def State.passMembers (s : State) (p : Pass) : List (Nat × Nat × Nat) :=
  p.members.filter (fun m => (s.query? m.1).isSome)

/-- A code slice over main-layout ordinals. -/
def State.runCode (s : State) (p : Pass) (l : Layout) (lo n : Nat) : State :=
  (s.passMembers p).foldl (fun s m => match s.query? m.1 with
    | none => s
    | some (j, q) =>
      match q.probes.find? (fun x => x.order = m.2.1), q.tables.find? (fun t => decide (t.porder = m.2.1) && decide (t.slot = l.cbSlot)) with
      | some pr, some t => s.takeScan j q m.2.2 (s.scanMain j q pr t l lo n)
      | _, _ => s) s

/-- A side slice with the tables of one slot. -/
def State.runSide (s : State) (p : Pass) (l : Layout) (slot lo n : Nat) : State :=
  (s.passMembers p).foldl (fun s m => match s.query? m.1 with
    | none => s
    | some (j, q) =>
      match q.probes.find? (fun x => x.order = m.2.1), q.tables.find? (fun t => decide (t.porder = m.2.1) && decide (t.slot = slot)) with
      | some pr, some t => s.takeScan j q m.2.2 (s.scanSide j q pr t l lo n)
      | _, _ => s) s

/-- A sketch slice marks, for each query, the ordinals within SKETCH_MAX (R98). -/
def State.runSketch (s : State) (p : Pass) (l : Layout) (lo n : Nat) : State :=
  (s.passMembers p).foldl (fun s m => match s.query? m.1 with
    | none => s
    | some (j, q) =>
      let os := ((List.range n).map (fun i => lo + i)).filter (fun o => s.mainVisible l o j.epoch)
      let bad := os.any (fun o => s.poisoned (l.sketchAddr o) 32)
      let keep := os.filter (fun o => decide (s.hamming (l.sketchAddr o) q.sketch ≤ q.sketchMax.getD 0))
      let s := s.putQuery j (q.setProbe m.2.1 (fun x => { x with kept := x.kept ++ keep }))
      if bad then s.doomJob j.id .poisoned else s) s

/-- Ordinals of a gathered pass that at least one query kept (R98). -/
def State.keptLines (s : State) (p : Pass) (lo n : Nat) : Nat :=
  ((List.range n).filter (fun i => (s.passMembers p).any (fun m => match s.query? m.1 with
    | some (_, q) => q.probes.any (fun x => decide (x.order = m.2.1) && x.kept.contains (lo + i))
    | none => false))).length

/-- One slice of the pass ended: it counts out and the pass closes when over. -/
def State.passSliceEnd (s : State) (id : Nat) : State :=
  match s.pass? id with
  | some p => (s.putPass { p with running := p.running - 1 }).closePass id
  | none => s

/-! Selects (R104, R107, R117, R134-R136). -/

inductive SelMode where
  | idle | stream | append | prune | final
  deriving DecidableEq, Repr

/-- What the query's next sorter slice does. -/
def Query.selMode (q : Query) : SelMode :=
  if !q.localFinal then
    if q.len ≤ 1024 then (if q.arrived ≠ [] then .stream else .idle)
    else if q.arrived ≠ [] then
      (if 2 * q.len < q.store.length + q.arrived.length && decide (q.len < q.store.length) then .prune else .append)
    else if q.scanned then .prune
    else .idle
  else if q.finalList.isNone && (q.rerankOff || q.rerankDone) then .final
  else .idle

/-- Units a sorter slice of the query may still take. -/
def Query.selUnits (q : Query) : Nat :=
  match q.selMode with
  | .idle => 0
  | .stream => q.arrived.length
  | .append => min q.arrived.length (2 * q.len - q.store.length)
  | .prune | .final => q.store.length - q.selProg

/-- Sorter cost in CCLK of `n` entries at length `k` (R134). -/
def sorterCost (k n : Nat) : Nat :=
  if k ≤ 256 then 64 + cdiv n 4
  else if k ≤ 1024 then 64 + n
  else 64 + 64 * cdiv k 1024 + n * cdiv k 1024

def Query.selCost (q : Query) (n : Nat) : Nat :=
  match q.selMode with
  | .append => 64 + cdiv n 4
  | .final => sorterCost q.k n
  | _ => sorterCost q.len n

/-- Passes of R135: at most one per 1,024 kept, fewer when a pass runs short. -/
def selPasses (k all : Nat) : Nat := if k ≤ 1024 then 0 else min (cdiv k 1024) (all / 1024 + 1)

/-- A sorter slice of `n` units ends. -/
def State.runSelect (s : State) (j : Job) (q : Query) (n : Nat) : State :=
  match q.selMode with
  | .idle => s
  | .stream =>
    let sel := selectTop .score q.len (q.store ++ q.arrived.take n)
    let q := { q with store := sel.kept, arrived := q.arrived.drop n }
    (s.countSelect q.sorter n sel false).putQuery j (s.settleLocal q)
  | .append => (s.offered q.sorter n).putQuery j { q with store := q.store ++ q.arrived.take n, arrived := q.arrived.drop n }
  | .prune =>
    if q.selProg + n < q.store.length then s.putQuery j { q with selProg := q.selProg + n }
    else
      let sel := selectTop .score q.len q.store
      let s := (s.countSelect q.sorter 0 sel false).bumpBy (Reg.Sorter.EXT_PASSES q.sorter) (selPasses q.len sel.all)
      let last := q.scanned
      let q := { q with store := sel.kept, selProg := 0, localFinal := last, localFinalAt := s.now }
      s.putQuery j (if last then { q with flags := { q.flags with listClipped := q.flags.listClipped || q.clipped } } else q)
  | .final =>
    if q.selProg + n < q.store.length then s.putQuery j { q with selProg := q.selProg + n }
    else
      let sel := selectTop (if q.rerankOff then .score else .dist) q.k q.store
      let s := (s.countSelect q.sorter q.store.length sel true).bumpBy (Reg.Sorter.EXT_PASSES q.sorter) (selPasses q.k sel.all)
      s.deliverFinal j q sel

/-! Rerank (R105, R106, R177). -/

/-- Address of a candidate's full vector. -/
def State.candAddr (s : State) (q : Query) (c : Cand) : Nat :=
  fullAddr q.shape (s.partDesc q.coll (fieldOf c.pair.toNat 24 20)).fullBase c.ord

/-- Decode a full vector to BF16 elements (R177); NaN where the INT8 scale is not finite. -/
def State.decodeFull (s : State) (sh : Shape) (a : Nat) : Option (List F32) :=
  let bs := s.read a sh.dim
  match sh.fullFmt with
  | 0 => some (s.bf16s a sh.dim)
  | 1 => some (bs.map (fun b => F32.ofVal (e4m3.decode b.toNat)))
  | 2 => some (bs.map (fun b => F32.ofVal (e5m2.decode b.toNat)))
  | _ =>
    let sc : F32 := BitVec.ofNat 32 (s.nat (a + sh.dim) 4)
    if sc.isFinite then some (bs.map (fun b => BF16.wide (int8Decode sc b.toNat))) else none

/-- Distance of a candidate by the collection's metric (R106); an undecodable vector is a NaN distance. -/
def State.rerankDist (s : State) (q : Query) (i : Nat) (c : Cand) : F32 :=
  match s.decodeFull q.shape (s.candAddr q c) with
  | some x => metricDist q.shape.metric s.freshCount i q.qvec x
  | none => 0x7FC00000#32

/-- Issue the plane reads that have not been issued (R105). -/
def State.issueReads (s : State) (j : Job) (q : Query) : State :=
  if q.localFinal && !q.rerankOff && decide (q.localFinalAt < s.now) && decide (q.readsIssued < q.store.length) then
    s.putQuery j { q with readsIssued := q.store.length, rerankReads := q.rerankReads + (q.store.length - q.readsIssued) }
  else if q.localFinal && !q.rerankOff && decide (q.localFinalAt < s.now) && decide (q.store = []) then
    s.putQuery j { q with rerankDone := true }
  else s

/-- A plane read lands (R106): the last one makes the rerank possible from the next stitch on. -/
def State.readLanded (s : State) (j : Job) (q : Query) (i : Nat) : State :=
  if decide (i < q.readsIssued) && !q.readsLanded.contains i then
    s.putQuery j { q with readsLanded := insNat q.readsLanded i, landedAt := s.now }
  else s

/-- Candidates that may be reranked now. -/
def State.rerankReady (s : State) (q : Query) : Bool :=
  q.localFinal && !q.rerankOff && !q.rerankDone && decide (q.readsLanded.length = q.store.length) && decide (q.store ≠ []) &&
  decide (q.landedAt < s.now)

/-- Rerank the next `n` candidates; a full vector that came back poisoned is consumed here (R106, R437). -/
def State.runRerank (s : State) (j : Job) (q : Query) (n : Nat) : State :=
  if ((q.store.drop q.reranked).take n).any (fun c => s.poisoned (s.candAddr q c) (slotSize q.shape)) then s.doomJob j.id .poisoned else
  let store := (List.range q.store.length).map (fun i =>
    let c := q.store.getD i ⟨0#64, 0#64, 0, 0, 0, 0, 0#32, 0#32⟩
    if decide (q.reranked ≤ i) && decide (i < q.reranked + n) then { c with dist := s.rerankDist q i c } else c)
  let m := q.reranked + n
  (s.putQuery j { q with store := store, reranked := m, rerankDone := decide (q.store.length ≤ m) }).fresh

/-! Fan-in (R44, R112, R113, R125, R132). -/

/-- Every share has its partial and the collector's own list is final (R44). -/
def Query.sharesIn (q : Query) : Bool := q.fan && q.routed && q.finalList.isSome && q.shares.all (fun h => h.got.isSome)

/-- Sources ranked by the address of the node that served them, then by share. -/
def insSource : List PartialMsg → PartialMsg → List PartialMsg
  | [], x => [x]
  | y :: t, x =>
    if x.holder < y.holder || (decide (x.holder = y.holder) && decide (x.share < y.share)) then x :: y :: t else y :: insSource t x

/-- Entries of the merge with their input positions (R125). -/
def Query.mergeInput (q : Query) : List Cand :=
  let src := (q.shares.filterMap (fun h => h.got)).foldl insSource []
  let own := q.finalList.getD []
  (List.range own.length).map (fun i =>
    let c := own.getD i ⟨0#64, 0#64, 0, 0, 0, 0, 0#32, 0#32⟩
    { c with list := 0, porder := 0, ord := i, dist := if q.rerankOff then c.est else c.dist }) ++
  (List.range src.length).flatMap (fun r =>
    let m := src.getD r ⟨0, 0, 0, 0, 0, 0, {}, [], 0, 0⟩
    (List.range m.entries.length).map (fun i =>
      let e := m.entries.getD i ⟨0#64, 0#64, 0#32⟩
      ({ gid := e.gid, pair := e.pair, list := r + 1, porder := 0, ord := i, score := 0, est := e.dist, dist := e.dist } : Cand)))

/-- Statuses of shares that pass to the query (R112). -/
def Query.shareStatus (q : Query) : Status :=
  (q.shares.filterMap (fun h => h.got)).foldl (fun a m =>
    match Status.ofCode m.status with
    | some .ok | some .short | some .tied | some .moved | none => a
    | some .staleVersion => if q.latestOnly then a.first .staleVersion else a
    | some st => a.first st) .ok

/-- The fan-in merge ends (R113): distances only, counts added, flags ORed. -/
def State.runFanIn (s : State) (j : Job) (q : Query) (n : Nat) : State :=
  let input := q.mergeInput
  if q.mergeProg + n < input.length then s.putQuery j { q with mergeProg := q.mergeProg + n }
  else
    let sel := selectTop .dist q.k input
    let ms := q.shares.filterMap (fun h => h.got)
    let s := (s.countSelect q.sorter input.length sel false).bumpBy (Reg.Sorter.EXT_PASSES q.sorter) (selPasses q.k sel.all)
    let fl := ms.foldl (fun a m => flagsOr a m.flags) q.flags
    let q := { q with
      flags := { fl with tied := fl.tied || sel.tied, rerouted := fl.rerouted || q.shares.any (fun h => h.replica) }
      count := sel.kept.length
      results := sel.kept.map (fun c => if q.pairForm then c.pair else c.gid)
      codesScored := q.codesScored + (ms.map (fun m => m.codesScored)).sum
      rerankReads := q.rerankReads + (ms.map (fun m => m.rerankReads)).sum }
    s.finishQuery j q ((q.shareStatus).first (s.listStatus j q sel.all sel.tied))

/-! Shares at their holder (R108, R110, R118, R119, R399). -/

inductive ShareAnswer where
  | serve | moved (lag : Bool) | wait
  deriving DecidableEq, Repr

/-- The table "Answers to a share". -/
def State.shareAnswer (s : State) (arrived : Nat) (m : ShareReq) : ShareAnswer :=
  let cmp := m.compEpoch
  let a := s.fabric.mapA % 2 ^ 32
  let later := decide (cmp ≠ a) && decide ((cmp + 2 ^ 32 - a) % 2 ^ 32 < 2 ^ 31)
  if later then
    if s.fabric.mapDue.any (fun x => decide (x % 2 ^ 32 = cmp)) then
      (if arrived + 2 < s.now then .moved true else .wait)
    else .moved true
  else if cmp = a then
    if m.probes.all (fun p => s.listed m.coll p m.epoch) then .serve else .moved false
  else if s.fabric.mapPrevA.any (fun x => decide (x % 2 ^ 32 = cmp)) then
    if decide (arrived ≤ s.fabric.mapA + 1) && m.probes.all (s.holdsPart m.coll) then .serve else .moved false
  else .moved false

/-- A partial without entries. -/
def State.emptyPartial (s : State) (m : ShareReq) (st : Status) : PartialMsg :=
  { collector := m.collector, context := m.context, share := m.share, epoch := m.epoch, holder := s.fld Reg.G.NODE_ADDR,
    status := st.code, flags := {}, entries := [], codesScored := 0, rerankReads := 0 }

/-- First status a share fails with at its holder (R51, R77, R110, R561). -/
def State.shareChecks (s : State) (m : ShareReq) : List (Bool × Status) :=
  let v := s.coll m.coll
  [
    (decide (v.st ≠ 0), .domainFault),
    (s.collClean m.coll, .poisoned),
    ((slotAt v.routeA v.routeB v.routeSwap m.epoch).isSome && (slotAt v.cbA v.cbB v.cbSwap m.epoch).isSome, .aborted),
    ((s.misplacedColl m.coll).isNone, .refused),
    (m.probes.all (fun p => !s.holdsPart m.coll p || (s.misplacedPart m.coll p).isNone), Status.refused),
    (!s.anyUnfit v.dom (searchNeeds v.shape m.rerankOff), .refused)]

/-- Status of the first check that fails. -/
def State.shareFail (s : State) (m : ShareReq) : Option Status := firstFail (s.shareChecks m)

/-- The query of a share served (R110): versions of its EPOCH; a partition first swapped in later answers nothing
(R403). -/
def State.shareQuery (s : State) (m : ShareReq) (sorter : Nat) : Query :=
  let v := s.coll m.coll
  let route := (slotAt v.routeA v.routeB v.routeSwap m.epoch).getD 0
  { shareIn := some { collector := m.collector, context := m.context, share := m.share, compEpoch := m.compEpoch }
    coll := m.coll, rerankOff := m.rerankOff || m.probes.any (fun p => (s.mapColl m.coll).2.1 &&
      (match s.mapEntry m.coll p with | some e => decide (e.h0 ≠ some (s.fld Reg.G.NODE_ADDR)) && decide (e.h1 = some (s.fld Reg.G.NODE_ADDR)) | none => false))
    escalateIn := m.escalate, sketchMax := if v.shape.sketchEn then m.sketchMax else none
    k := m.k, depth := m.depth, nprobe := m.probes.length, qvec := m.qvec.map BF16.wide
    sketch := if m.sketchMax.isSome && v.shape.sketchEn then s.sketchOf v.shape (m.qvec.map BF16.wide) else []
    shape := v.shape, routeSlot := route, routeBase := (v.route route).base
    cbPins := [0, 1].filter (fun i => decide (2 ≤ (v.cb i).state)), cbBases := [v.cbA.base, v.cbB.base]
    pins := (s.builtParts m.coll).filterMap (fun p =>
      ((s.part m.coll p).versionAt m.epoch).map (fun l => { part := p, ver := l.ver }))
    sorter := sorter, bound := true, boundAt := s.now, routed := true, probeList := m.probes }

/-- Try one waiting share: answered and gone, or left waiting; refused before HALF_SOLE_1 (R470). -/
def State.tryShare (s : State) (w : Nat × Nat × ShareReq) : State :=
  let m := w.2.2
  let gone : State := { s with fabric := { s.fabric with shareWait := s.fabric.shareWait.erase w } }
  match s.shareAnswer w.2.1 m with
  | .wait => s
  | .moved lag =>
    (if lag then gone.setFld Reg.G.MAP_LAG 1 else gone).returnPartial (s.emptyPartial m .moved)
  | .serve =>
    if s.startState < 4 || 6 < s.startState then gone.returnPartial (s.emptyPartial m .refused) else
    match s.shareFail m with
    | some st =>
      let ck := s.shareChecks m
      let dom := (s.coll m.coll).dom
      let g := if failsAtLast ck 2 then gone.misplaced dom ((s.misplacedColl m.coll).getD 0)
        else if failsAtLast ck 1 then gone.misplaced dom (((m.probes.filterMap (fun p => if s.holdsPart m.coll p then s.misplacedPart m.coll p else none)).head?).getD 0)
        else if failsAtLast ck 0 then gone.countShareRefused dom (searchNeeds (s.coll m.coll).shape m.rerankOff)
        else gone
      g.returnPartial (s.emptyPartial m st)
    | none =>
      let q := s.shareQuery m 0
      let level := s.unreranked m.coll m.probes && !q.rerankOff
      match s.bindSorter ((m.context + m.share) % 4) with
      | some t =>
        if s.poolFits q.len then
          let degraded := q.rerankOff && !m.rerankOff
          let q := { q with sorter := t, probes := s.ownProbes q m.probes, rerankOff := q.rerankOff || level }
          let q := if q.probes.all (fun p => decide (p.st = 5)) then s.settleLocal { q with built := true } else q
          let s1 := (gone.addJob (s.coll m.coll).dom 8 0x01 0 (.query q))
          let s1 := if degraded then s1.1.bump Reg.G.DEGRADED_SHARES else s1.1
          let s1 := if level then s1.bump Reg.Start.HS_UNRERANKED else s1
          let s1 := s1.setJobs (s1.sched.jobs.map (fun j => if j.id = s.sched.nextJob then { j with epoch := m.epoch } else j)) |>.fresh
          if s.pinPoison q then s1.doomJob s.sched.nextJob .poisoned else s1
        else if w.2.1 + s.fld Reg.G.ADMIT_WAIT_MAX ≤ s.now then gone.returnPartial (s.emptyPartial m .refused)
        else s
      | none =>
        if (List.range 4).all (fun i => decide (s.blockState .sorter i = 2)) || decide (w.2.1 + s.fld Reg.G.ADMIT_WAIT_MAX ≤ s.now)
        then gone.returnPartial (s.emptyPartial m .refused)
        else s

/-- A share arrives (R110). -/
def State.arriveShare (s : State) (src : Nat) (m : ShareReq) : State :=
  let w := (src, s.now, m)
  ({ s with fabric := { s.fabric with shareWait := s.fabric.shareWait ++ [w] } }).tryShare w

/-- Try every share that waits, in order of arrival. -/
def State.tryShares (s : State) : State := s.fabric.shareWait.foldl State.tryShare s

/-! Costs of search slices (R88, R103), in CCLK, before COST_SCALE; `none` where the slice cannot be run now. -/

/-- Tombstones of an ordinal range (R96). -/
def Layout.tombsIn (l : Layout) (lo n : Nat) : Nat := (l.tombs.filter (fun t => decide (lo ≤ t.1) && decide (t.1 < lo + n))).length

def State.searchCost (s : State) : SliceKind → Option Nat
  | .routeWalk id n =>
    match s.query? id with
    | some (j, q) =>
      if !q.routed && decide (j.epoch < s.now) && decide (1 ≤ n) then
        some (256 + cdiv (n * max (2 * q.shape.dim) (s.routeOf q).recSize) 128)
      else none
    | none => none
  | .tableBuild id n =>
    match s.query? id with
    | some (j, q) =>
      let need := s.tablesNeeded j q
      if q.routed && decide (q.boundAt < s.now) && !q.built && !q.staged && decide (1 ≤ n) && decide (q.tables.length + n ≤ need.length) &&
          decide (s.stageUsed + stageBytes q.shape n ≤ s.fld Reg.G.TABLE_STAGE_MB * 0x100000) then
        some (384 + max (cdiv (n * q.shape.dim) 12) (cdiv (codebookBytes q.shape + n * 2 * q.shape.dim) 512))
      else none
    | none => none
  | .rebuild id n =>
    match s.query? id with
    | some (_, q) =>
      if q.needRebuild && decide (q.escAt < s.now) && decide (1 ≤ n) && decide (q.rebuiltTables + n ≤ q.tables.length) then
        some (384 + max (cdiv (n * q.shape.dim) 12) (cdiv (n * 2 * q.shape.dim) 512))
      else none
    | none => none
  | .sketchPass id lo n =>
    match s.pass? id with
    | some p => match s.passLayout p with
      | some l => if p.sketch && decide (lo = p.next) && decide (1 ≤ n) && decide (lo + n ≤ l.ordHigh) then some (sclk (64 + cdiv n 2)) else none
      | none => none
    | none => none
  | .codePass id lo n =>
    match s.pass? id with
    | some p => match s.passLayout p with
      | some l =>
        let tb := l.tombsIn lo n
        let setup := (if (s.coll p.coll).shape.codeFmt = 0 then 512 else 2048) + tb
        if !p.sketch && decide (lo = p.next) && decide (1 ≤ n) && decide (lo + n ≤ l.ordHigh) && decide (tb ≤ 1024) then
          some (sclk (setup + if p.gathered then 2 * s.keptLines p lo n else n))
        else none
      | none => none
    | none => none
  | .sideSlice id slot lo n =>
    match s.pass? id with
    | some p => match s.passLayout p with
      | some l =>
        if !p.sketch && decide (l.ordHigh ≤ p.next) && p.side.contains (slot, lo) && decide (1 ≤ n) && decide (lo + n ≤ l.sideCount) then
          some (sclk (512 + 2 * n))
        else none
      | none => none
    | none => none
  | .localSelect id n =>
    match s.query? id with
    | some (_, q) =>
      if decide (q.selMode ≠ .idle) && decide (n ≤ q.selUnits) && (decide (1 ≤ n) || decide (q.selUnits = 0)) then some (q.selCost n) else none
    | none => none
  | .rerank id n =>
    match s.query? id with
    | some (_, q) =>
      if s.rerankReady q && decide (1 ≤ n) && decide (q.reranked + n ≤ q.store.length) then
        some (256 + max (cdiv n 64 * cdiv q.shape.dim 64) (cdiv (n * slotSize q.shape) 512))
      else none
    | none => none
  | .fanIn id n =>
    match s.query? id with
    | some (_, q) =>
      if q.sharesIn && decide (q.lastPartialAt < s.now ∨ q.shares = []) && decide (q.mergeProg + n ≤ q.mergeInput.length) &&
          (decide (1 ≤ n) || decide (q.mergeInput = [])) then some (sorterCost q.k n) else none
    | none => none
  | _ => none

end Sys2Proof.Machine
end

