-- ==== Sys2Proof/Machine/Updates.lean ====
section
/-! DEFINITION. Inserts, deletes, compaction and versions (R139-R162, R173, R176, R560, R564). -/

namespace Sys2Proof.Machine

open Sys2Proof

/-! Partitions: what the node writes into a descriptor (R61, R152). -/

/-- Write the counts the node owns into the descriptor. -/
def State.syncCounts (s : State) (c p : Nat) : State :=
  let l := (s.part c p).cur
  let a := s.partAddr c p
  ((s.putField (a + 0x08) 0 25 l.ordHigh 0).putField (a + 0x20) 32 19 l.sideCount 0).putField (a + 0x38) 32 19
    l.tombs.length 0

/-- Raise the partition-full event (R58, R71). -/
def State.partFull (s : State) (c p : Nat) : State := s.putField (s.partAddr c p) 4 1 1 0

/-- The compaction in progress on a partition. -/
def State.compacting (s : State) (c p : Nat) : Option (Job × Compact) :=
  (s.sched.jobs.filterMap (fun j => match j.work with
    | .compact x => if decide (x.coll = c) && decide (x.part = p) && j.doom.isNone then some (j, x) else none
    | _ => none)).head?

def State.compactions (s : State) : List (Job × Compact) :=
  s.sched.jobs.filterMap (fun j => match j.work with | .compact x => some (j, x) | _ => none)

/-- Bytes in use of the tombstone-index region (R148). -/
def State.tombIndexUsed (s : State) : Nat :=
  (s.parts.map (fun x => (x.2.cur :: x.2.old).foldl (fun a l => a + 4 * l.tombs.length + l.ordCap / 8192 * 4) (4 * x.2.free.length))).sum +
  (s.compactions.map (fun x => 4 * x.2.new.tombs.length + x.2.new.ordCap / 8192 * 4)).sum

def State.tombIndexRoom (s : State) : Bool := decide (s.tombIndexUsed + 4 ≤ s.fld Reg.G.TOMB_INDEX_MB * 0x100000)

/-! Encoding (R62, R64, R173, R176). -/

/-- Index of the nearest entry, ties to the lower. -/
def nearestIdx (ds : List F32) : Nat :=
  ((List.range ds.length).foldl (fun (a : Nat × Int) i =>
    let k := routeKey (ds.getD i 0#32)
    if i = 0 || decide (k < a.2) then (i, k) else a) (0, 0)).1

/-- Code indices of a vector under a codebook (R173); `c` is the centroid for RESIDUAL 1. -/
def State.encodeVec (s : State) (sh : Shape) (x c : List F32) (book : Nat) : List Nat :=
  let r := if sh.residual then List.zipWith F32.sub x c else x
  let d := subDim sh
  (List.range (subCount sh)).map (fun j =>
    nearestIdx ((List.range (entryCount sh)).map (fun k =>
      metricDist sh.metric s.freshCount (j * entryCount sh + k) ((r.drop (j * d)).take d)
        (s.bf16s (book + (j * entryCount sh + k) * d * 2) d))))

/-- Code line of code indices (R63). -/
def codeBytes (sh : Shape) (ix : List Nat) : List Byte :=
  (List.range 64).map (fun i =>
    if sh.codeFmt = 0 then BitVec.ofNat 8 (ix.getD (2 * i) 0 + 16 * ix.getD (2 * i + 1) 0) else BitVec.ofNat 8 (ix.getD i 0))

/-- A vector in the collection's FULL_FMT, with clipped elements and a non-finite mark (R66, R176). -/
def fullBytes (sh : Shape) (x : List F32) : List Byte × Nat × Bool :=
  match sh.fullFmt with
  | 0 => (x.flatMap (fun v => leBytes 2 v.toBf16.toNat), 0, false)
  | 1 =>
    let r := x.map (fun v => e4m3.encode v.val)
    (r.map (fun e => BitVec.ofNat 8 e.1), (r.filter (fun e => e.2)).length, false)
  | 2 =>
    let r := x.map (fun v => e5m2.encode v.val)
    (r.map (fun e => BitVec.ofNat 8 e.1), (r.filter (fun e => e.2)).length, false)
  | _ =>
    let r := int8Quantize x
    (r.2.1.map (fun e => BitVec.ofNat 8 e) ++ leBytes 4 r.1.toNat, 0, r.2.2)

/-- Write an insert's full vector to its slot (R67), unless the node is HOLDER1 of a coded partition (R405). -/
def State.writeFull (s : State) (sh : Shape) (c p o : Nat) (x : List F32) (dom : Nat) : State :=
  let skip := (s.mapColl c).2.1 && (match s.mapEntry c p with
    | some e => decide (e.h0 ≠ some (s.fld Reg.G.NODE_ADDR)) && decide (e.h1 = some (s.fld Reg.G.NODE_ADDR))
    | none => false)
  if skip then s
  else
    let r := fullBytes sh x
    let s := s.store (fullAddr sh (s.partDesc c p).fullBase o) r.1 dom
    let s := if s.overClip r.2.1 sh.dim then s.bump Reg.G.FULLVEC_CLIP else s
    if r.2.2 then s.bump Reg.G.NONFINITE_BLOCKS else s

/-! Update descriptors (R139, R143). -/

structure UpdateDesc where
  insert : Bool
  encoded : Bool
  link : Bool
  codeSlot : Nat
  coll : Nat
  tag : Nat
  vec : Nat
  gid : Gid
  part : Nat
  ord : Nat
  reservedOk : Bool
  deriving DecidableEq, Repr

def parseUpdate (ws : List Nat) : UpdateDesc :=
  let w (i : Nat) := ws.getD i 0
  let ins := decide (fieldOf (w 0) 0 8 = 2)
  let enc := bitOf (w 0) 8
  { insert := ins, encoded := enc, link := bitOf (w 0) 9, codeSlot := fieldOf (w 0) 10 1, coll := fieldOf (w 0) 16 10,
    tag := w 1, vec := fieldOf (w 2) 0 52, gid := BitVec.ofNat 64 (w 3), part := fieldOf (w 4) 0 20, ord := fieldOf (w 4) 32 24,
    reservedOk := reservedZero ws
      [if ins then (if enc then 0x3FF07FF else 0x3FF03FF) else 0x3FF02FF, 2 ^ 64 - 1, if ins then 2 ^ 52 - 1 else 0,
        2 ^ 64 - 1, if ins then 0xFFFFF else 0x00FFFFFF000FFFFF, 0, 0, 0] }

/-- Bytes an insert reads at VEC_ADDR. -/
def updateSpan (sh : Shape) (x : UpdateDesc) : Nat := 2 * sh.dim + (if x.encoded then 96 else 0)

/-- Inserts of a partition prepared and not yet committed. -/
def State.insertsOpen (s : State) (c p : Nat) : Nat :=
  (s.sched.jobs.filter (fun j => match j.work with
    | .update u => u.insert && u.assigned && decide (u.coll = c) && decide (u.part = p)
    | _ => false)).length

/-- A side-list entry and an ordinal are free, in the old and, while compacting, the new layout (R58, R71, R151). -/
def State.insertRoom (s : State) (c p : Nat) : Bool :=
  let pt := s.part c p
  let l := pt.cur
  decide (l.sideCount < l.sideCap) && (decide (pt.free ≠ []) || decide (l.ordHigh < l.ordCap)) &&
  (match s.compacting c p with
   | some (_, x) => decide (x.new.sideCount + s.insertsOpen c p < x.new.sideCap) &&
       (decide (pt.free ≠ []) || decide (l.ordHigh < x.new.ordCap))
   | none => true)

/-- A tombstone entry and an index entry are free (R72, R148, R151). -/
def State.deleteRoom (s : State) (c p : Nat) : Bool :=
  let l := (s.part c p).cur
  decide (l.tombs.length < l.tombCap) && s.tombIndexRoom &&
  (match s.compacting c p with
   | some (_, x) => decide (x.new.tombs.length < x.new.tombCap)
   | none => true)

/-- Side-list index of the entry that carries an ordinal and a global ID. -/
def State.sideFind (s : State) (l : Layout) (o : Nat) (g : Gid) : Bool :=
  (List.range l.sideCount).any (fun i =>
    let m := s.sideMeta l i
    m.valid && decide (m.ord = o) && decide (m.gid = g))

/-- An insert taken and not yet committed holds the ordinal and the global ID: its side-list entry stands with VALID 0
(R141, R143). -/
def State.pendingInsert (s : State) (c p o : Nat) (g : Gid) : Bool :=
  s.sched.jobs.any (fun j => match j.work with
    | .update u => u.insert && u.assigned && decide (u.coll = c) && decide (u.part = p) && decide (u.ordinal = o) && decide (u.gid = g)
    | _ => false)

/-- The first check of the table "Update checks" that an update fails, then R77 and the smallest slice (R32). -/
def State.updateChecks (s : State) (d : Nat) (x : UpdateDesc) (chainOk : Bool) : List (Bool × Status) :=
  let v := s.coll x.coll
  let sh := v.shape
  let l := (s.part x.coll x.part).cur
  let vecs := s.bf16s x.vec sh.dim
  [
    (s.flag Reg.G.SEARCH_EN, .refused),
    (s.collOk x.coll d && (!x.insert || s.inDomain d x.vec (updateSpan sh x)), .domainFault),
    (!s.poisoned (s.collAddr x.coll) 64 && !s.poisoned (s.partAddr x.coll x.part) 64 &&
      (!x.insert || !s.poisoned x.vec (updateSpan sh x)), .poisoned),
    (s.listed x.coll x.part s.now || s.collLocal x.coll, .moved),
    ((decide (v.st = 1) || decide (v.st = 2)) && s.holdsPart x.coll x.part && (s.part x.coll x.part).built, .refused),
    (x.reservedOk && (!x.insert || decide (x.vec % 64 = 0)), .refused),
    (chainOk, .refused),
    (!x.insert || ((bitOf (s.w64 (s.partAddr x.coll x.part)) 1) && decide (x.gid ≠ nullIndex) && vecs.all F32.isFinite), .refused),
    (!x.insert || !x.encoded || decide (v.cbCur = some x.codeSlot), .refused),
    (!x.insert || (s.insertRoom x.coll x.part && v.cbCur.isSome), .refused),
    (x.insert || (decide (x.ord < l.ordHigh) && (decide (s.idAt l x.ord = x.gid) || s.sideFind l x.ord x.gid ||
      s.pendingInsert x.coll x.part x.ord x.gid)), .refused),
    (x.insert || (l.tomb? x.ord).isSome || s.deleteRoom x.coll x.part, .refused),
    ((s.misplacedColl x.coll).isNone && (s.misplacedPart x.coll x.part).isNone, .refused),
    (!x.insert || x.encoded || !s.anyUnfit d [(.matrix, 384 + cdiv sh.dim 12)], .refused)]

/-- Status of the first check that fails. -/
def State.updateFail (s : State) (d : Nat) (x : UpdateDesc) (chainOk : Bool) : Option Status := firstFail (s.updateChecks d x chainOk)

/-- The update record (R145). -/
def updateWords (tag : Nat) (st : Status) (dup carried : Bool) (slot eff part ord : Nat) : List Nat :=
  [tag, statusWord st (b2n dup + 2 * b2n carried + 4 * slot), eff, part + ord * 2 ^ 32]

/-- Complete an update that is refused when taken. The record's fields that only a commit gives are free (log entry 33). -/
def State.refuseUpdate (s : State) (d r : Nat) (x : UpdateDesc) (checks : List (Bool × Status)) (st : Status) : State :=
  let s := s.countEnd d x.tag st
  let s := if st = .refused then s.bump Reg.G.UPDATES_REFUSED else s
  let s := if failsAtLast checks 0 then s.countShareRefused d [(.matrix, 384 + cdiv (s.coll x.coll).shape.dim 12)]
    else if failsAtLast checks 1 then s.misplaced d (((s.misplacedColl x.coll).or (s.misplacedPart x.coll x.part)).getD 0)
    else if failsAtLast checks 4 then s.partFull x.coll x.part
    else s
  let f := s.freshCount
  s.fresh.postRecord d r st (updateWords x.tag st false false (freeBits f 0 1) (freeBits f 1 48) x.part
    (if x.insert then freeBits f 2 24 else x.ord))

/-- Take the lowest free ordinal, or ORD_HIGH (R57), and the next side-list entry (R70). -/
def Part.assign (p : Part) : Part × Nat × Nat :=
  let l := p.cur
  match p.free with
  | o :: t => ({ p with free := t, cur := { l with sideCount := l.sideCount + 1 } }, o, l.sideCount)
  | [] => ({ p with cur := { l with sideCount := l.sideCount + 1, ordHigh := l.ordHigh + 1 } }, l.ordHigh, l.sideCount)

/-- Metadata words of a side-list entry (R70). -/
def sideWords (gid : Gid) (epoch slot : Nat) (valid : Bool) (ord : Nat) : List Byte :=
  leBytes 8 gid.toNat ++ leBytes 8 (epoch % 2 ^ 48 + slot * 2 ^ 48 + b2n valid * 2 ^ 49) ++ leBytes 8 (ord % 2 ^ 24) ++ leBytes 8 0

/-- Prepare one update that passed its checks (R141): the job, its ordinal, its side-list entry with VALID 0 and its
full vector. -/
def State.prepare (s : State) (d r chain : Nat) (x : UpdateDesc) : State × Nat :=
  let v := s.coll x.coll
  let sh := v.shape
  let u : Update := { insert := x.insert, coll := x.coll, part := x.part, gid := x.gid, vecAddr := x.vec, encoded := x.encoded,
                      cbSlot := v.cbCur.getD 0, routeBase := (v.route (v.routeCur.getD 0)).base, routeSlot := v.routeCur.getD 0,
                      ordinal := x.ord, chain := chain, prepared := !x.insert || x.encoded }
  if !x.insert then s.addJob d r 0x03 x.tag (.update u)
  else
    let a := (s.part x.coll x.part).assign
    let l := (s.part x.coll x.part).cur
    let s := (s.setPart x.coll x.part a.1).syncCounts x.coll x.part
    let s := if a.1.cur.sideCount * 4 = 3 * l.sideCap then s.partFull x.coll x.part else s
    let code := if x.encoded then s.read (x.vec + 2 * sh.dim) 96 else List.replicate 96 0#8
    let s := s.store (l.sideAddr a.2.2) (code ++ sideWords x.gid 0 u.cbSlot false a.2.1) d
    let full := s.wbFull
    let s := if full then s else s.writeFull sh x.coll x.part a.2.1 (s.bf16s x.vec sh.dim) d
    s.addJob d r 0x02 x.tag (.update { u with ordinal := a.2.1, sideIdx := a.2.2, assigned := true, vecWait := full })

/-- Descriptor address `i` slots past the head. -/
def State.slotAddr (s : State) (d r i : Nat) : Nat :=
  s.workBase d r + ((s.ring d r).workHead + i) % s.workSlots d r * 64

/-- Descriptors visible on the ring. -/
def State.visibleCount (s : State) (d r : Nat) : Nat :=
  let g := s.ring d r
  if s.headVisible d r then (g.workTail + 2 ^ 32 - g.workHead) % 2 ^ 32 else 0

/-- Length of the LINK chain at the head, and whether it is sound: `none` while its last descriptor is not visible
(R140). A poisoned slot or another opcode ends the chain before it. -/
def State.chainAt (s : State) (d r : Nat) : Nat → Nat → Option (Nat × Bool)
  | 0, _ => none
  | fuel + 1, i =>
    if s.visibleCount d r ≤ i then none
    else
      let w := s.w64 (s.slotAddr d r i)
      let op := fieldOf w 0 8
      if s.poisoned (s.slotAddr d r i) 64 || (decide (op ≠ 2) && decide (op ≠ 3)) then some (i, false)
      else if bitOf w 9 then s.chainAt d r fuel (i + 1)
      else some (i + 1, true)

/-- Take a whole LINK chain, or a single update (R140, R143): the first failing status is every member's. `none` leaves
the chain on the ring. -/
def State.takeUpdates (s : State) (d r : Nat) : Option State :=
  match s.chainAt d r (s.visibleCount d r + 1) 0 with
  | none => none
  | some (n, sound) =>
    if s.compRoom d r < n then none
    else
      let xs := (List.range n).map (fun i => parseUpdate (s.words8 (s.slotAddr d r i)))
      let bad := (xs.filterMap (fun x => s.updateFail d x sound)).head?
      match bad with
      | some st => some (xs.foldl (fun t x => (t.takeHead d r 1).refuseUpdate d r x (s.updateChecks d x sound) st) s)
      | none =>
        let chain := s.sched.nextJob
        let r1 := xs.foldl (fun (a : State × List Nat × Option Status) x =>
          match a.2.2, a.1.updateFail d x sound with
          | none, none =>
            let y := (a.1.takeHead d r 1).prepare d r chain x
            (y.1, a.2.1 ++ [y.2], none)
          | some st, _ | none, some st =>
            let y := (a.1.takeHead d r 1).addJob d r (if x.insert then 2 else 3) x.tag
              (.update { insert := x.insert, coll := x.coll, part := x.part, ordinal := x.ord, chain := chain, prepared := true,
                         status := st })
            (y.1, a.2.1 ++ [y.2], some st)) (s, [], none)
        let s1 := r1.1
        some { s1 with sched := { s1.sched with batches := match s1.sched.batches.getLast? with
          | some (t, l) => if t = s1.now then s1.sched.batches.dropLast ++ [(t, l ++ r1.2.1)] else s1.sched.batches ++ [(s1.now, r1.2.1)]
          | none => [(s1.now, r1.2.1)] } }

/-- An update job that can still be prepared. -/
def State.update? (s : State) (id : Nat) : Option (Job × Update) :=
  match s.job? id with
  | some j => match j.work with
    | .update u => if j.doom = none then some (j, u) else none
    | _ => none
  | none => none

/-- The encode of an insert ends (R139): code and sketch go into its side-list entry; the slot is the one CURRENT now. -/
def State.runEncode (s : State) (j : Job) (u : Update) : State :=
  let v := s.coll u.coll
  let sh := v.shape
  let slot := v.cbCur.getD u.cbSlot
  let x := s.bf16s u.vecAddr sh.dim
  let g := s.routeView u.routeBase (s.partCount u.coll) sh.dim
  let c := s.bf16s (g.recAddr u.part + 0xC0) sh.dim
  let code := codeBytes sh (s.encodeVec sh x c (v.cb slot).base)
  let sk := if sh.sketchEn then sketchBytes (s.sketchOf sh x) else List.replicate 32 0#8
  let bad := s.poisoned u.vecAddr (2 * sh.dim) || s.poisoned (v.cb slot).base (codebookBytes sh) ||
    (sh.residual && s.poisoned (g.recAddr u.part) (routeRecBytes sh.dim))
  let l := (s.part u.coll u.part).cur
  let s := (s.store (l.sideAddr u.sideIdx) (code ++ sk ++ sideWords u.gid 0 slot false u.ordinal) j.dom).fresh
  s.putJob { j with work := .update { u with cbSlot := slot, prepared := true, status := if bad then .poisoned else u.status } }

/-! Committing a batch (R141, R142, R144, R151, R560). -/

/-- Append an entry to a layout's tombstone table and index, and set its filter bit (R72, R141). -/
def State.addTomb (s : State) (l : Layout) (o e : Nat) : State × Layout :=
  let s := s.store (l.tombBase + 16 * l.tombs.length) (leBytes 8 o ++ leBytes 8 e) 0
  (s.setFilter l o true, { l with tombs := insTomb l.tombs (o, e) })

/-- Copy the side-list entry's content into another layout's side list (R151). -/
def State.carrySide (s : State) (old new : Layout) (i dom : Nat) : State × Layout :=
  (s.store (new.sideAddr new.sideCount) (s.read (old.sideAddr i) 128) dom, { new with sideCount := new.sideCount + 1 })

def State.putCompact (s : State) (j : Job) (x : Compact) : State := s.putJob { j with work := .compact x }

/-- Commit one insert with its effective epoch. -/
def State.commitInsert (s : State) (j : Job) (u : Update) (eff : Nat) : State :=
  let l := (s.part u.coll u.part).cur
  let s := s.store (l.sideAddr u.sideIdx + 0x60) (sideWords u.gid eff u.cbSlot true u.ordinal) j.dom
  let s := match s.compacting u.coll u.part with
    | some (cj, x) => let r := s.carrySide l x.new u.sideIdx j.dom; r.1.putCompact cj { x with new := { r.2 with ordHigh := l.ordHigh } }
    | none => s
  (s.bump Reg.G.INSERTS_DONE).postRecord j.dom j.ring .ok
    (updateWords j.tag .ok false (s.compacting u.coll u.part).isSome u.cbSlot eff u.part u.ordinal)

/-- Commit one delete (R144: a second tombstone is not written). -/
def State.commitDelete (s : State) (j : Job) (u : Update) (eff : Nat) : State :=
  let p := s.part u.coll u.part
  let carried := (s.compacting u.coll u.part).isSome
  match p.cur.tomb? u.ordinal with
  | some e =>
    s.fresh.postRecord j.dom j.ring .ok (updateWords j.tag .ok true carried (freeBits s.freshCount 0 1) e u.part u.ordinal)
  | none =>
    let r := s.addTomb p.cur u.ordinal eff
    let s := (r.1.setPart u.coll u.part { p with cur := r.2 }).syncCounts u.coll u.part
    let s := match s.compacting u.coll u.part with
      | some (cj, x) => let y := s.addTomb x.new u.ordinal eff; y.1.putCompact cj { x with new := y.2 }
      | none => s
    (s.fresh.bump Reg.G.DELETES_DONE).postRecord j.dom j.ring .ok
      (updateWords j.tag .ok false carried (freeBits s.freshCount 0 1) eff u.part u.ordinal)

/-- An update that does not commit (R560): an insert's ordinal returns to the free list. -/
def State.failUpdate (s : State) (j : Job) (u : Update) (st : Status) : State :=
  let p := s.part u.coll u.part
  let s := if u.assigned then
      s.setPart u.coll u.part { p with free := insNat p.free u.ordinal } else s
  let s := if st = .refused then s.bump Reg.G.UPDATES_REFUSED else s
  let f := s.freshCount
  (s.fresh.countEnd j.dom j.tag st).postRecord j.dom j.ring st
    (updateWords j.tag st false false (if u.insert then u.cbSlot else freeBits f 0 1) (freeBits f 1 48) u.part
      (if u.insert && !u.assigned then freeBits f 2 24 else u.ordinal))

/-- Updates of a batch that are still jobs. -/
def State.batchJobs (s : State) (ids : List Nat) : List (Job × Update) :=
  ids.filterMap (fun i => (s.job? i).bind (fun j => match j.work with | .update u => some (j, u) | _ => none))

/-- Full vectors that waited for the write buffer are handed over while it has room (R141, R334). -/
def State.handVectors (s : State) : State :=
  s.sched.jobs.foldl (fun s j => match j.work with
    | .update u =>
      if u.vecWait && !s.wbFull then
        let sh := (s.coll u.coll).shape
        let s := s.writeFull sh u.coll u.part u.ordinal (s.bf16s u.vecAddr sh.dim) j.dom
        s.putJob { j with work := .update { u with vecWait := false } }
      else s
    | _ => s) s

/-- A chain's status: the first of its members' (R143, R560). -/
def chainStatus (l : List (Job × Update)) (chain : Nat) : Status :=
  (l.filter (fun x => x.2.chain = chain)).foldl (fun a x =>
    if a = .ok then (match x.1.doom with | some st => st | none => x.2.status) else a) .ok

/-- Every update of the batch is prepared or has failed (R141, R560). -/
def State.batchReady (s : State) (ids : List Nat) : Bool :=
  (s.batchJobs ids).all (fun x => (x.2.prepared && !x.2.vecWait) || decide (x.2.status ≠ .ok) || x.1.doom.isSome)

end Sys2Proof.Machine
end

