-- ==== Sys2Proof/Machine/Maint.lean ====
section
/-! DEFINITION. Compaction, table versions, route edits, and what the node reads of collections at a boundary
(R53, R54, R149-R162, R164, R564). -/

namespace Sys2Proof.Machine

open Sys2Proof

/-- A maintenance record (R162). `phase` 0 SWAPPED, 1 RELEASED. -/
def maintWords (tag : Nat) (st : Status) (phase epoch : Nat) (r : Rel) : List Nat :=
  [tag, statusWord st phase, epoch, r.fold, r.records + r.dropped * 2 ^ 32, r.sideCarried + r.tombCarried * 2 ^ 32, r.poisonDropped]

/-- Complete a maintenance request at once with a failure: its second completion slot is given back. No swap gives its
record an EPOCH (log entry 33). -/
def State.failMaint (s : State) (d r tag : Nat) (st : Status) (fold : Nat) : State :=
  let s := (s.fresh.countEnd d tag st).postRecord d r st (maintWords tag st 0 (freeBits s.freshCount 0 48) { fold := fold })
  let g := s.ring d r
  let s := s.setRing d r { g with reserved := g.reserved - 1 }
  s.setFld (Reg.Ring.RING_BUSY d r) (b2n ((s.ring d r).reserved ≠ 0))

/-! Compaction. -/

structure CompactDesc where
  target : Nat
  dropPoison : Bool
  coll : Nat
  tag : Nat
  base : Nat
  side : Nat
  tomb : Nat
  part : Nat
  ordCap : Nat
  sideCap : Nat
  tombCap : Nat
  reservedOk : Bool
  deriving DecidableEq, Repr

def parseCompact (ws : List Nat) : CompactDesc :=
  let w (i : Nat) := ws.getD i 0
  { target := fieldOf (w 0) 8 1, dropPoison := bitOf (w 0) 9, coll := fieldOf (w 0) 16 10, tag := w 1
    base := fieldOf (w 2) 0 52, side := fieldOf (w 3) 0 52, tomb := fieldOf (w 4) 0 52, part := fieldOf (w 5) 0 20
    ordCap := fieldOf (w 5) 32 25, sideCap := fieldOf (w 6) 0 19, tombCap := fieldOf (w 6) 32 19
    reservedOk := reservedZero ws [0x3FF03FF, 2 ^ 64 - 1, 2 ^ 52 - 1, 2 ^ 52 - 1, 2 ^ 52 - 1, 0x01FFFFFF000FFFFF,
      0x0007FFFF0007FFFF, 0] }

/-- Smallest slices of a compaction (R155). -/
def compactNeeds (sh : Shape) (recode : Bool) : List (Engine × Nat) :=
  (.tile, sclk 514) :: (if recode then [(.matrix, 384 + cdiv sh.dim 12)] else [])

/-- A power of two. -/
def isPow2 (n : Nat) : Bool := decide (n ≠ 0) && decide (2 ^ n.log2 = n)

def State.compactChecks (s : State) (d : Nat) (x : CompactDesc) : List (Bool × Status) :=
  let v := s.coll x.coll
  let l := (s.part x.coll x.part).cur
  let oc := if x.ordCap = 0 then l.ordCap else x.ordCap
  let sc := if x.sideCap = 0 then l.sideCap else x.sideCap
  let tc := if x.tombCap = 0 then l.tombCap else x.tombCap
  [
    (s.flag Reg.G.SEARCH_EN, .refused),
    (s.collOk x.coll d && s.inDomain d x.base (layoutBytes oc) && s.inDomain d x.side (128 * sc) && s.inDomain d x.tomb (16 * tc),
      .domainFault),
    (!s.poisoned (s.collAddr x.coll) 64 && !s.poisoned (s.partAddr x.coll x.part) 64, .poisoned),
    (decide (v.st = 2) && s.holdsPart x.coll x.part && (s.part x.coll x.part).built, .refused),
    (x.reservedOk && decide (x.base % 0x10000 = 0), .refused),
    (decide (oc % 8192 = 0) && decide (l.ordHigh ≤ oc) && decide (oc ≤ 2 ^ 24) && isPow2 sc && decide (1024 ≤ sc) &&
      decide (sc ≤ 262144) && decide (1024 ≤ tc) && decide (tc ≤ 262144), .refused),
    (decide ((v.cb x.target).state = 2) || decide ((v.cb x.target).state = 3), .refused),
    ((s.compacting x.coll x.part).isNone, .refused),
    ((s.misplacedColl x.coll).isNone && (s.misplacedPart x.coll x.part).isNone, .refused),
    (!s.anyUnfit d (compactNeeds v.shape (decide (x.target ≠ l.cbSlot))), .refused)]

/-- Status of the first check that fails. -/
def State.compactFail (s : State) (d : Nat) (x : CompactDesc) : Option Status := firstFail (s.compactChecks d x)

/-- What the node does with the COMPACT at the head of a ring at a boundary (R150, R154); `none` leaves it there. -/
def State.takeCompact (s : State) (d r : Nat) : Option State :=
  let x := parseCompact (s.words8 (s.headAddr d r))
  let full := decide (s.fld Reg.G.COMPACT_MAX ≤ s.compactions.length)
  let since := ((s.sched.compactWait.find? (fun y => y.1 = ringKey d r)).map (fun y => y.2)).getD s.now
  if full && decide (s.now < since + s.fld Reg.G.ADMIT_WAIT_MAX) then none
  else
    let s := { s with sched := { s.sched with compactWait := s.sched.compactWait.filter (fun y => y.1 ≠ ringKey d r) } }
    let s := s.takeHead d r 2
    match (if full then some Status.refused else s.compactFail d x) with
    | some st =>
      let ck := s.compactChecks d x
      let s := if full then s
        else if failsAtLast ck 1 then s.misplaced d (((s.misplacedColl x.coll).or (s.misplacedPart x.coll x.part)).getD 0)
        else if failsAtLast ck 0 then s.countShareRefused d (compactNeeds (s.coll x.coll).shape (decide (x.target ≠ (s.part x.coll x.part).cur.cbSlot)))
        else s
      some (s.failMaint d r x.tag st (freeBits s.freshCount 1 48))
    | none =>
      let v := s.coll x.coll
      let p := s.part x.coll x.part
      let l := p.cur
      let new : Layout := { ver := p.nextVer, base := x.base, sideBase := x.side, tombBase := x.tomb,
                            ordCap := if x.ordCap = 0 then l.ordCap else x.ordCap
                            sideCap := if x.sideCap = 0 then l.sideCap else x.sideCap
                            tombCap := if x.tombCap = 0 then l.tombCap else x.tombCap
                            cbSlot := x.target, ordHigh := l.ordHigh, sideCount := 0, tombs := [] }
      let s := s.setPart x.coll x.part { p with nextVer := p.nextVer + 1 }
      let pins := [0, 1].filter (fun i => decide (2 ≤ (v.cb i).state))
      some ((s.addJob d r 0x04 x.tag (.compact
        { coll := x.coll, part := x.part, target := x.target, dropPoison := x.dropPoison, fold := s.now, pinned := l, new := new
          cbPins := pins, ordHigh := l.ordHigh, sideEnd := l.sideCount })).1 |> fun t =>
          if pins.any (fun i => s.poisoned (v.cb i).base (versionBytes s x.coll 1)) then t.doomJob s.sched.nextJob .poisoned else t)

/-- Note a COMPACT that waits for COMPACT_MAX (R154). -/
def State.noteCompactWait (s : State) (d r : Nat) : State :=
  if s.sched.compactWait.any (fun y => y.1 = ringKey d r) then s
  else { s with sched := { s.sched with compactWait := s.sched.compactWait ++ [(ringKey d r, s.now)] } }

def State.compact? (s : State) (id : Nat) : Option (Job × Compact) :=
  match s.job? id with
  | some j => match j.work with
    | .compact x => if j.doom = none then some (j, x) else none
    | _ => none
  | none => none

/-- Code of a record under TARGET_SLOT: as it stands, or re-encoded from its full vector (R150); `none` where the vector
cannot be decoded or is poisoned. -/
def State.foldCode (s : State) (x : Compact) (srcSlot codeAddr o : Nat) : Option (List Byte) :=
  if srcSlot = x.target then some (s.read codeAddr 64)
  else
    let v := s.coll x.coll
    let sh := v.shape
    let a := fullAddr sh (s.partDesc x.coll x.part).fullBase o
    let c := s.bf16s ((s.routeView (v.route (v.routeCur.getD 0)).base (s.partCount x.coll) sh.dim).recAddr x.part + 0xC0) sh.dim
    match s.decodeFull sh a with
    | some y =>
      if y.all F32.isFinite && !s.poisoned a (slotSize sh) then some (codeBytes sh (s.encodeVec sh y c (v.cb x.target).base)) else none
    | none => none

/-- Write one record of the new layout: `none` makes it a hole (R68, R69). -/
def State.writeRecord (s : State) (l : Layout) (o dom : Nat) (rec : Option (List Byte × List Byte × Gid)) : State :=
  match rec with
  | none => (s.store (l.idAddr o) (leBytes 8 nullIndex.toNat) dom).setFilter l o true
  | some (code, sk, gid) =>
    let s := s.store (l.codeAddr o) code dom
    let s := s.store (l.sketchAddr o) sk dom
    let s := s.store (l.idAddr o) (leBytes 8 gid.toNat) dom
    s.setFilter l o (l.tomb? o).isSome

/-- Fold one record that survives, or make it a hole where it is poisoned (R150, R154). -/
def State.foldOne (s : State) (dom : Nat) (x : Compact) (o srcSlot codeAddr : Nat) (sk : List Byte) (gid : Gid) (poison : Bool) :
    State × Compact :=
  match (if poison then none else s.foldCode x srcSlot codeAddr o) with
  | some code => (s.writeRecord x.new o dom (some (code, sk, gid)), { x with records := x.records + 1 })
  | none =>
    if x.dropPoison then
      (s.writeRecord x.new o dom none, { x with poisonDropped := x.poisonDropped + 1, dropped := x.dropped ++ [o] })
    else (s, { x with poisoned := true })

/-- Deleted at or before the fold epoch. -/
def Compact.gone (x : Compact) (o : Nat) : Bool := match x.pinned.tomb? o with | some d => decide (d ≤ x.fold) | none => false

/-- Main fold of ordinals `lo` to `lo + n - 1` (R150). -/
def State.runMainFold (s : State) (j : Job) (x : Compact) (lo n : Nat) : State :=
  let r := (List.range n).foldl (fun (a : State × Compact) i =>
    let s := a.1
    let x := a.2
    let l := x.pinned
    let o := lo + i
    let bad := s.poisoned (l.codeAddr o) 64 || s.poisoned (l.sketchAddr o) 32 || s.poisoned (l.idAddr o) 8
    if s.idAt l o = nullIndex && !bad then (s.writeRecord x.new o j.dom none, x)
    else if x.gone o then (s.writeRecord x.new o j.dom none, { x with dropped := x.dropped ++ [o] })
    else s.foldOne j.dom x o l.cbSlot (l.codeAddr o) (s.read (l.sketchAddr o) 32) (s.idAt l o) bad) (s, x)
  let x := { r.2 with mainEnded := r.2.mainEnded + n }
  let s := r.1.putCompact j x
  if x.poisoned then s.doomJob j.id .poisoned else s

/-- Side fold of side-list entries (R150). -/
def State.runSideFold (s : State) (j : Job) (x : Compact) (lo n : Nat) : State :=
  let r := (List.range n).foldl (fun (a : State × Compact) i =>
    let s := a.1
    let x := a.2
    let l := x.pinned
    let m := s.sideMeta l (lo + i)
    if m.valid && decide (m.insEpoch ≤ x.fold) then
      if x.gone m.ord then (s, { x with dropped := x.dropped ++ [m.ord] })
      else s.foldOne j.dom x m.ord m.cbSlot (l.sideAddr (lo + i)) (s.read (l.sideAddr (lo + i) + 64) 32) m.gid
        (s.poisoned (l.sideAddr (lo + i)) 128)
    else (s, x)) (s, x)
  let x := { r.2 with sideEnded := r.2.sideEnded + n }
  let s := r.1.putCompact j x
  if x.poisoned then s.doomJob j.id .poisoned else s

/-- Every slice of the build has ended (R152). -/
def Compact.done (x : Compact) : Bool := decide (x.ordHigh ≤ x.mainEnded) && decide (x.sideEnd ≤ x.sideEnded) && !x.poisoned

/-- Write a layout's place and counts into the partition descriptor (R152). -/
def State.writeDesc (s : State) (c p : Nat) (l : Layout) : State :=
  let a := s.partAddr c p
  let s := s.putField a 2 1 l.cbSlot 0
  let s := s.putField (a + 0x08) 32 25 l.ordCap 0
  let s := s.putField (a + 0x10) 0 52 l.base 0
  let s := s.putField (a + 0x18) 0 52 l.sideBase 0
  let s := s.putField (a + 0x20) 0 19 l.sideCap 0
  let s := s.putField (a + 0x28) 0 52 l.tombBase 0
  (s.putField (a + 0x38) 0 19 l.tombCap 0).syncCounts c p

/-- Every ordinal of the new layout that the folds did not reach is a hole: null index, filter bit 1 (R68, R69, R150). -/
def State.fillHoles (s : State) (l : Layout) (lo dom : Nat) : State :=
  let hi := (lo + 7) / 8 * 8
  let s := s.store (l.idAddr lo) (List.replicate (8 * (l.ordCap - lo)) 0xFF#8) dom
  let s := (List.range (min hi l.ordCap - lo)).foldl (fun s i => s.setFilter l (lo + i) true) s
  s.store (l.filterAddr hi) (List.replicate (l.ordCap / 8 - hi / 8) 0xFF#8) dom

/-- The swap of a compaction that is done (R152). -/
def State.swapLayout (s : State) (j : Job) (x : Compact) : State :=
  let p := s.part x.coll x.part
  let new := { x.new with since := s.now, ordHigh := p.cur.ordHigh }
  let rel : Rel := { dom := j.dom, ring := j.ring, tag := j.tag, fold := x.fold, records := x.records
                     dropped := x.dropped.length - x.poisonDropped, sideCarried := x.new.sideCount
                     tombCarried := x.new.tombs.length, poisonDropped := x.poisonDropped, freed := x.dropped }
  let old := { p.cur with rel := some rel }
  let s := (s.setPart x.coll x.part { p with cur := new, old := old :: p.old }).fillHoles new x.ordHigh j.dom
  let s := s.writeDesc x.coll x.part new
  (s.postRecord j.dom j.ring .ok (maintWords j.tag .ok 0 s.now rel)).dropJob j.id

/-- Swap every layout that is due (R30 step 4, R152). -/
def State.layoutSwaps (s : State) (f : Job → Bool) : State :=
  s.compactions.foldl (fun s y => match s.compact? y.1.id with
    | some (j, x) => if f j && x.done && decide (x.fold < s.now) then s.swapLayout j x else s
    | none => s) s

/-- A job pins this layout version. -/
def State.layoutPinned (s : State) (c p ver : Nat) : Bool :=
  s.sched.jobs.any (fun j => match j.work with
    | .query q => decide (q.coll = c) && q.pins.any (fun y => decide (y.part = p) && decide (y.ver = ver))
    | .compact x => decide (x.coll = c) && decide (x.part = p) && decide (x.pinned.ver = ver)
    | _ => false)

/-- Epoch at which the version after this one was swapped in. -/
def Part.swappedAway (p : Part) (l : Layout) : Nat :=
  (((p.cur :: p.old).filter (fun y => decide (l.since ≤ y.since) && decide (y.ver ≠ l.ver) && decide (l.ver < y.ver))).map
    (fun y => y.since)).foldl min (2 ^ 48)

/-- Release the old layouts of a partition that are due (R153): ordinals freed, a RELEASED record. -/
def State.releaseLayouts (s : State) (c p : Nat) : State :=
  let pt := s.part c p
  if 2 ^ 20 ≤ p then s
  else pt.old.foldl (fun s l =>
    let pt := s.part c p
    if !s.layoutPinned c p l.ver && decide (pt.swappedAway l + s.fld Reg.G.FANOUT_GRACE ≤ s.now) then
      let free := match l.rel with | some r => r.freed.foldl insNat pt.free | none => pt.free
      let s := s.setPart c p { pt with old := pt.old.filter (fun y => y.ver ≠ l.ver), free := free }
      match l.rel with
      | some r => s.postRecord r.dom r.ring .ok (maintWords r.tag .ok 1 s.now r)
      | none => s
    else s) s

def State.compactCost (s : State) : SliceKind → Option Nat
  | .mainFold id lo n =>
    match s.compact? id with
    | some (_, x) =>
      let tb := x.pinned.tombsIn lo n
      if decide (lo = x.mainAdmitted) && decide (1 ≤ n) && decide (lo + n ≤ x.ordHigh) then
        some (sclk (512 + tb + max n (cdiv (n * 104) 64)))
      else none
    | none => none
  | .sideFold id lo n =>
    match s.compact? id with
    | some (_, x) =>
      let tb := x.pinned.tombs.length
      if decide (x.ordHigh ≤ x.mainEnded) && decide (lo = x.sideAdmitted) && decide (1 ≤ n) && decide (lo + n ≤ x.sideEnd) then
        some (sclk (512 + tb + 2 * n))
      else none
    | none => none
  | _ => none

/-! Versions (R156-R158). -/

/-- Requests for one table of one collection at this boundary (R157). -/
def State.seenRequest (s : State) (c table : Nat) : Bool := s.sched.versionSeen.contains (c, table)
def State.markRequest (s : State) (c table : Nat) : State :=
  { s with sched := { s.sched with versionSeen := (c, table) :: s.sched.versionSeen } }

/-- Offset of a slot's base field in the collection descriptor (R52). -/
def slotOff (table slot : Nat) : Nat := 0x10 + 0x10 * table + 8 * slot

/-- Word of a VERSION descriptor's fields: table, slot, collection, tag, base, reserved zero. -/
structure VersionDesc where
  table : Nat
  slot : Nat
  coll : Nat
  tag : Nat
  base : Nat
  reservedOk : Bool
  deriving DecidableEq, Repr

def parseVersion (ws : List Nat) : VersionDesc :=
  let w (i : Nat) := ws.getD i 0
  { table := fieldOf (w 0) 8 2, slot := fieldOf (w 0) 10 1, coll := fieldOf (w 0) 16 10, tag := w 1, base := fieldOf (w 2) 0 52
    reservedOk := reservedZero ws [0x3FF07FF, 2 ^ 64 - 1, 2 ^ 52 - 1, 0, 0, 0, 0, 0] }

def State.versionChecks (s : State) (d : Nat) (x : VersionDesc) (seen : Bool) : List (Bool × Status) :=
  let v := s.coll x.coll
  let sl := if x.table = 0 then v.route x.slot else v.cb x.slot
  let h := s.w64 x.base
  [
    (s.flag Reg.G.SEARCH_EN, .refused),
    (s.collOk x.coll d && s.inDomain d x.base (versionBytes s x.coll x.table), .domainFault),
    (!s.poisoned (s.collAddr x.coll) 64, .poisoned),
    (decide (v.st = 1) || decide (v.st = 2), .refused),
    (x.reservedOk && decide (x.table < 2) && decide (x.base % 0x10000 = 0), .refused),
    (!seen, .refused),
    (decide (sl.state = 0), .refused),
    (s.pinned x.base (versionBytes s x.coll x.table), .refused),
    (decide (x.table ≠ 0) || (decide (fieldOf h 0 21 = s.partCount x.coll) && decide (fieldOf h 32 16 = routeRecBytes v.shape.dim)), .refused)]

/-- Status of the first check that fails. -/
def State.versionFail (s : State) (d : Nat) (x : VersionDesc) (seen : Bool) : Option Status := firstFail (s.versionChecks d x seen)

/-- Put a slot of a collection in a new state. -/
def State.setSlot (s : State) (c table slot : Nat) (f : VSlot → VSlot) : State :=
  let v := s.coll c
  s.setColl c (if table = 0 then v.setRoute slot (f (v.route slot)) else v.setCb slot (f (v.cb slot)))

/-- Take a VERSION descriptor at a boundary (R157). -/
def State.takeVersion (s : State) (d r : Nat) : State :=
  let x := parseVersion (s.words8 (s.headAddr d r))
  let seen := s.seenRequest x.coll x.table
  let s := (s.takeHead d r 2).markRequest x.coll x.table
  match s.versionFail d x seen with
  | some st =>
    let s := if failsAtLast (s.versionChecks d x seen) 1 then s.misplaced d x.base else s
    s.failMaint d r x.tag st 0
  | none =>
    let s := s.store (s.collAddr x.coll + slotOff x.table x.slot) (leBytes 8 x.base) 0
    let s := s.setSlot x.coll x.table x.slot (fun v => { v with state := 1, base := x.base })
    (s.addJob d r 0x05 x.tag (.version { coll := x.coll, table := x.table, slot := x.slot, base := x.base })).1

/-- A loaded slot becomes CURRENT and the other RETIRED (R156), with the record of R162. -/
def State.makeCurrent (s : State) (j : Job) (c table slot : Nat) : State :=
  let rel : Rel := { dom := j.dom, ring := j.ring, tag := j.tag }
  let other := 1 - slot
  let v := s.coll c
  let had := if table = 0 then (v.route other).state else (v.cb other).state
  let s := s.setSlot c table other (fun x => if x.state = 2 then { x with state := 3, since := s.now, rel := some rel } else x)
  let s := s.setSlot c table slot (fun x => { x with state := 2, since := s.now })
  let v := s.coll c
  let s := s.setColl c (if table = 0 then { v with routeSwap := s.now } else { v with cbSwap := s.now })
  let s := (s.postRecord j.dom j.ring .ok (maintWords j.tag .ok 0 s.now {})).dropJob j.id
  if had = 2 then s
  else
    let g := s.ring j.dom j.ring
    s.setRing j.dom j.ring { g with reserved := g.reserved - 1 }

/-- Version swaps that are due (R30 step 4): checked VERSIONs and copied ROUTE_EDITs of a boundary before this one. -/
def State.versionSwaps (s : State) (f : Nat → Bool) : State :=
  s.sched.jobs.foldl (fun s j0 => match s.job? j0.id with
    | some j =>
      if j.doom.isSome || decide (s.now ≤ j.epoch) then s
      else match j.work with
        | .version x => if f x.coll then s.makeCurrent j x.coll x.table x.slot else s
        | .routeEdit x => if f x.coll && x.ready then s.makeCurrent j x.coll 0 x.slot else s
        | _ => s
    | none => s) s

/-- Jobs and shares that pin a route or codebook slot (R164). -/
def State.slotPins (s : State) (c table slot : Nat) : Nat :=
  (s.sched.jobs.filter (fun j => match j.work with
    | .query q => decide (q.coll = c) && (if table = 0 then decide (q.routeSlot = slot) else q.cbPins.contains slot)
    | .update u => decide (u.coll = c) && decide (table = 0) && decide (u.routeSlot = slot)
    | .compact x => decide (x.coll = c) && decide (table = 1) && x.cbPins.contains slot
    | _ => false)).length

/-- Layouts and committed side entries naming a codebook slot (R164). -/
def State.cbRefs (s : State) (c slot : Nat) : Nat :=
  ((s.parts.filter (fun x => decide (x.1 / 2 ^ 20 = c) && x.2.built)).map (fun x =>
    ((x.2.cur :: x.2.old).map (fun l => b2n (l.cbSlot = slot) +
      ((List.range l.sideCount).filter (fun i => (s.sideMeta l i).valid && decide ((s.sideMeta l i).cbSlot = slot))).length)).sum)).sum +
  (s.compactions.filter (fun x => decide (x.2.coll = c) && decide (x.2.target = slot))).length

/-- RETIRED slots whose release is due (R156): FREE, and the RELEASED record. -/
def State.releaseSlot (s : State) (c table slot : Nat) : State :=
  let v := s.coll c
  let sl := if table = 0 then v.route slot else v.cb slot
  if decide (sl.state = 3) && decide (s.slotPins c table slot = 0) && decide (sl.since + s.fld Reg.G.FANOUT_GRACE ≤ s.now) &&
      (decide (table = 0) || decide (s.cbRefs c slot = 0)) then
    let s := s.setSlot c table slot (fun x => { x with state := 0, rel := none })
    match sl.rel with
    | some r => s.postRecord r.dom r.ring .ok (maintWords r.tag .ok 1 s.now {})
    | none => s
  else s

def State.releaseSlots (s : State) (c : Nat) : State :=
  (((s.releaseSlot c 0 0).releaseSlot c 0 1).releaseSlot c 1 0).releaseSlot c 1 1

/-! Route edits (R159, R160). -/

structure RouteEditDesc where
  repair : Bool
  coll : Nat
  tag : Nat
  base : Nat
  list : Nat
  count : Nat
  reservedOk : Bool
  deriving DecidableEq, Repr

def parseRouteEdit (ws : List Nat) : RouteEditDesc :=
  let w (i : Nat) := ws.getD i 0
  { repair := bitOf (w 0) 8, coll := fieldOf (w 0) 16 10, tag := w 1, base := fieldOf (w 2) 0 52, list := fieldOf (w 3) 0 52
    count := fieldOf (w 4) 0 20
    reservedOk := reservedZero ws [0x3FF01FF, 2 ^ 64 - 1, 2 ^ 52 - 1, 2 ^ 52 - 1, 0xFFFFF, 0, 0, 0] }

def State.routeEditChecks (s : State) (d : Nat) (x : RouteEditDesc) (seen : Bool) : List (Bool × Status) :=
  let v := s.coll x.coll
  [
    (s.flag Reg.G.SEARCH_EN, .refused),
    (s.collOk x.coll d && s.inDomain d x.base (versionBytes s x.coll 0) && s.inDomain d x.list (4 * x.count), .domainFault),
    (!s.poisoned (s.collAddr x.coll) 64, .poisoned),
    (decide (v.st = 1) || decide (v.st = 2), .refused),
    (x.reservedOk && decide (x.base % 0x10000 = 0), .refused),
    (!seen, .refused),
    (v.routeCur.isSome && decide ((v.route (1 - v.routeCur.getD 0)).state = 0), .refused),
    (s.pinned x.base (versionBytes s x.coll 0), .refused),
    (!s.anyUnfit d [(.vector, 256 + cdiv v.shape.dim 64)], .refused),
    (!s.poisoned x.list (4 * x.count), .poisoned)]

/-- Status of the first check that fails. -/
def State.routeEditFail (s : State) (d : Nat) (x : RouteEditDesc) (seen : Bool) : Option Status := firstFail (s.routeEditChecks d x seen)

/-- Take a ROUTE_EDIT descriptor at a boundary. -/
def State.takeRouteEdit (s : State) (d r : Nat) : State :=
  let x := parseRouteEdit (s.words8 (s.headAddr d r))
  let seen := s.seenRequest x.coll 0
  let s := (s.takeHead d r 2).markRequest x.coll 0
  match s.routeEditFail d x seen with
  | some st =>
    let ck := s.routeEditChecks d x seen
    let s := if failsAtLast ck 2 then s.misplaced d x.base
      else if failsAtLast ck 1 then s.countShareRefused d [(.vector, 256 + cdiv (s.coll x.coll).shape.dim 64)]
      else s
    s.failMaint d r x.tag st 0
  | none =>
    let v := s.coll x.coll
    let src := v.routeCur.getD 0
    let slot := 1 - src
    let s := s.store (s.collAddr x.coll + slotOff 0 slot) (leBytes 8 x.base) 0
    let s := s.setSlot x.coll 0 slot (fun y => { y with state := 1, base := x.base })
    (s.addJob d r 0x06 x.tag (.routeEdit
      { coll := x.coll, repair := x.repair, slot := slot, base := x.base, src := (v.route src).base
        ghosts := (List.range x.count).map (fun i => s.nat (x.list + 4 * i) 4) })).1

/-- A route record as the repair sees it. -/
structure RouteRec where
  valid : Bool
  ghost : Bool
  nbrs : List Nat
  deriving DecidableEq, Repr

def State.routeRec (s : State) (g : RouteView) (p : Nat) : RouteRec :=
  let h := s.w64 (g.recAddr p)
  { valid := bitOf h 20, ghost := bitOf h 21
    nbrs := (List.range (min 32 (fieldOf h 24 6))).map (fun i => s.nat (g.recAddr p + 0x40 + 4 * i) 4 % 2 ^ 20) }

/-- Ghosts reachable from a frontier through ghosts only: `fuel` rounds. -/
def ghostReach (rs : List RouteRec) : Nat → List Nat → List Nat
  | 0, seen => seen
  | fuel + 1, seen =>
    let more := seen.flatMap (fun g => ((rs[g]?).map (fun r => r.nbrs.filter (fun n => match rs[n]? with
      | some y => y.ghost
      | none => false))).getD [])
    ghostReach rs fuel (more.foldl insNat seen)

/-- Repair one record (R160): its ghost neighbours go, live records reached through them come in, nearest first. -/
def State.repairRec (s : State) (g : RouteView) (metric : Nat) (rs : List RouteRec) (p : Nat) (r : RouteRec) : RouteRec :=
  if !r.valid || r.ghost then r
  else
    let isGhost (n : Nat) : Bool := match rs[n]? with | some y => y.ghost | none => false
    let gs := r.nbrs.filter isGhost
    let keep := r.nbrs.filter (fun n => !isGhost n)
    let reach := ghostReach rs rs.length (gs.foldl insNat [])
    let live := (reach.flatMap (fun x => ((rs[x]?).map (fun y => y.nbrs)).getD [])).foldl insNat []
    let cand := live.filter (fun n => (match rs[n]? with | some y => y.valid && !y.ghost | none => false) &&
      decide (n ≠ p) && !keep.contains n)
    let me := s.bf16s (g.recAddr p + 0xC0) g.dim
    let sorted := (cand.map (fun n => s.routeScore g metric me n)).foldl insScored []
    { r with nbrs := keep ++ (sorted.take (32 - keep.length)).map (fun x => x.2) }

/-- Write a record's head and neighbours into the copy. -/
def State.writeRoute (s : State) (g : RouteView) (p dom : Nat) (r : RouteRec) : State :=
  let a := g.recAddr p
  let s := s.putField a 20 1 (b2n r.valid) dom
  let s := s.putField a 21 1 (b2n r.ghost) dom
  let s := s.putField a 24 6 r.nbrs.length dom
  s.store (a + 0x40) (r.nbrs.flatMap (leBytes 4)) dom

/-- The copy ends: ghosts set, repair run, the slot ready (R159, R160). -/
def State.finishRouteEdit (s : State) (j : Job) (x : RouteEditReq) : State :=
  let dim := (s.coll x.coll).shape.dim
  let n := s.partCount x.coll
  let src := s.routeView x.src n dim
  let bytes := 64 + n * src.recSize
  let bad := s.poisoned x.src bytes
  let s := s.routeSkips j.dom ((x.ghosts.filter (fun p => decide (n ≤ p))).map (fun p => (x.base, p)))
  let s := s.store x.base (s.read x.src bytes) j.dom
  let g := s.routeView x.base n dim
  let gh := x.ghosts.filter (fun p => decide (p < n))
  let rs := (List.range n).map (fun p => let r := s.routeRec g p; { r with ghost := r.ghost || gh.contains p })
  let out := if x.repair then
      (List.range n).map (fun p =>
        let r := rs.getD p ⟨false, false, []⟩
        if r.ghost then { valid := false, ghost := false, nbrs := [] } else s.repairRec g (s.coll x.coll).shape.metric rs p r)
    else rs
  let s := (List.range n).foldl (fun s p => s.writeRoute g p j.dom (out.getD p ⟨false, false, []⟩)) s
  let s := (s.putJob { j with work := .routeEdit { x with copied := n, ready := true } }).fresh
  if bad then s.doomJob j.id .poisoned else s

def State.routeEdit? (s : State) (id : Nat) : Option (Job × RouteEditReq) :=
  match s.job? id with
  | some j => match j.work with
    | .routeEdit x => if j.doom = none then some (j, x) else none
    | _ => none
  | none => none

def State.maintCost (s : State) : SliceKind → Option Nat
  | .routeCopy id n =>
    match s.routeEdit? id with
    | some (_, x) =>
      let dim := (s.coll x.coll).shape.dim
      if decide (1 ≤ n) && !x.ready && decide (x.copied + n ≤ s.partCount x.coll) then
        some (256 + cdiv (n * max (2 * dim) (s.routeView x.src 0 dim).recSize) 128)
      else none
    | none => none
  | .insertEncode id =>
    match s.update? id with
    | some (_, u) =>
      let sh := (s.coll u.coll).shape
      if u.insert && !u.prepared && decide (u.status = .ok) then
        some (384 + max (cdiv sh.dim 12) (cdiv (codebookBytes sh + 2 * sh.dim) 512))
      else none
    | none => none
  | _ => none

/-! What a boundary reads (R53, R54, R164, R564). -/

/-- Numbers `(k - base) / unit` of the table entries with some byte listed in memory. -/
def State.touched (s : State) (base unit count : Nat) : List Nat :=
  ((s.mem.bytes.filter (fun p => decide (base ≤ p.1) && decide (p.1 < base + unit * count))).map
    (fun p => (p.1 - base) / unit)).foldl insNat []

/-- A lockable field's value, number `i`, and its byte offset in the descriptor (R54). -/
def Shape.field (x : Shape) (i : Nat) : Nat :=
  match i with
  | 0 => x.metric | 1 => x.fullFmt | 2 => x.codeFmt | 3 => b2n x.residual | 4 => b2n x.sketchEn | 5 => x.dim | _ => x.projBase

def fieldByte (i : Nat) : Nat := match i with | 0 => 1 | 1 => 1 | 2 => 1 | 3 => 1 | 4 => 1 | 5 => 2 | _ => 0x30

/-- Compare a locked collection's fields with memory: a field that newly differs is counted and logged (R54). -/
def State.compareLocked (s : State) (c : Nat) : State :=
  let v := s.coll c
  let m := s.readShape c
  let diff := (List.range 7).filter (fun i => decide (m.field i ≠ v.shape.field i))
  let new := diff.filter (fun i => !v.differ.contains i)
  let s := new.foldl (fun s i => s.accessErr.log 0x08 1 v.dom 0 0 (s.collAddr c) (2 * 2 ^ 56 + fieldByte i)) s
  s.setColl c { (s.coll c) with differ := diff }

/-- Read one collection's STATE (R53, R164). A poisoned descriptor leaves what was last read clean (R561). -/
def State.readColl (s : State) (c : Nat) : State :=
  if s.poisoned (s.collAddr c) 64 then s
  else
    let v := s.coll c
    let w := s.collWord c 0
    let st := fieldOf w 0 2
    let base (i : Nat) := fieldOf (s.collWord c (2 + i)) 0 52
    let v := { v with dom := fieldOf w 2 6 }
    if st = 0 then s.setColl c { v with st := 0, routeA := {}, routeB := {}, cbA := {}, cbB := {}, differ := [] }
    else
      let opened := decide (v.st = 0) && (decide (st = 1) || decide (st = 2))
      let v := if opened then
          { v with routeA := { state := 2, base := base 0 }, routeB := {}, cbA := { state := 2, base := base 2 }, cbB := {},
                   routeSwap := 0, cbSwap := 0 }
        else v
      let v := if st = 1 then
          { v with routeA := { v.routeA with base := base 0 }, routeB := { v.routeB with base := base 1 }
                   cbA := { v.cbA with base := base 2 }, cbB := { v.cbB with base := base 3 } }
        else v
      let lock := decide (v.st ≠ 2) && decide (st = 2)
      let v := if lock || decide (st = 1) then { v with shape := s.readShape c, differ := [] } else v
      let s := s.setColl c { v with st := st }
      if decide (st = 2) && !lock then s.compareLocked c else s

/-- Build a partition's free list and tombstone index at the first read of VALID 1 (R564). -/
def State.buildPart (s : State) (c p : Nat) : State :=
  let d := s.partDesc c p
  let l0 : Layout := { ver := (s.part c p).nextVer, base := d.layoutBase, sideBase := d.sideBase, tombBase := d.tombBase
                       ordCap := d.ordCap, sideCap := d.sideCap, tombCap := d.tombCap, cbSlot := d.cbSlot, ordHigh := d.ordHigh
                       sideCount := d.sideCount, since := s.now }
  let tombs := (List.range d.tombCount).foldl (fun l i =>
    insTomb l (fieldOf (s.w64 (d.tombBase + 16 * i)) 0 24, fieldOf (s.w64 (d.tombBase + 16 * i + 8)) 0 48)) []
  let named := ((List.range d.sideCount).map (s.sideMeta l0)).filterMap (fun m => if m.valid then some m.ord else none)
  let free := (List.range d.ordHigh).filter (fun o => decide (s.idAt l0 o = nullIndex) && !named.contains o)
  s.setPart c p { built := true, cur := { l0 with tombs := tombs }, old := (s.part c p).old, free := free,
                  nextVer := (s.part c p).nextVer + 1 }

/-- Read VALID of the partitions of a BUILDING or ACTIVE collection. -/
def State.readParts (s : State) (c : Nat) : State :=
  let v := s.coll c
  if v.st = 1 || v.st = 2 then
    (s.touched (s.partAddr c 0) 64 (s.partCount c)).foldl (fun s p =>
      let pt := s.part c p
      if s.poisoned (s.partAddr c p) 64 then s
      else if s.holdsPart c p then (if pt.built then s else s.buildPart c p)
      else if pt.built then s.setPart c p { pt with built := false } else s) s
  else s

/-- Collections that a boundary looks at: those with a listed descriptor byte, and those the node holds something of. -/
def State.boundaryColls (s : State) : List Nat :=
  (s.colls.map (fun x => x.1)).foldl insNat (s.touched (s.collAddr 0) 64 1024)

def State.readCollections (s : State) : State :=
  s.boundaryColls.foldl (fun s c => (s.readColl c).readParts c) s

end Sys2Proof.Machine
end

