-- ==== Sys2Proof/Machine/Skive.lean ====
section
/-! DEFINITION. The Skive codec (R244-R252): block modes, canonical codes, the coded stream, the group index. -/

namespace Sys2Proof.Machine

open Sys2Proof

/-- Exponent of a BF16 element, and its sign and fraction as a byte (R244, R247). -/
def skExp (v : Nat) : Nat := v / 128 % 256
def skRest (v : Nat) : Nat := v / 32768 * 128 + v % 128

/-- Elements of a block: little-endian 16-bit values (R244). -/
def skElems : List Byte → List Nat
  | a :: b :: t => (a.toNat + 256 * b.toNat) :: skElems t
  | _ => []

/-- Exponent values present with their counts. -/
def skCounts (es : List Nat) : List (Nat × Nat) :=
  ((List.range 256).map (fun e => (e, es.count e))).filter (fun x => x.2 ≠ 0)

def insCount : List (Nat × Nat) → Nat × Nat → List (Nat × Nat)
  | [], x => [x]
  | y :: t, x => if y.2 < x.2 || (decide (y.2 = x.2) && decide (x.1 < y.1)) then x :: y :: t else y :: insCount t x

/-- Exponents by count, ties to the lower (R248). -/
def skRanked (es : List Nat) : List (Nat × Nat) := (skCounts es).foldl insCount []

/-- A node of the Huffman build: weight and the symbols below it. -/
def insNode : List (Nat × List Nat) → Nat × List Nat → List (Nat × List Nat)
  | [], x => [x]
  | y :: t, x => if x.1 < y.1 then x :: y :: t else y :: insNode t x

/-- Merge the two lightest nodes until one is left; every merge lengthens the codes below it. -/
def huffMerge : Nat → List (Nat × List Nat) → List Nat → List Nat
  | 0, _, lens => lens
  | fuel + 1, a :: b :: t, lens =>
    let syms := a.2 ++ b.2
    huffMerge fuel (insNode t (a.1 + b.1, syms)) (lens.mapIdx (fun i l => if syms.contains i then l + 1 else l))
  | _ + 1, _, lens => lens

/-- Code lengths of symbols 0-16 from their weights (R248): one used symbol takes length 1. -/
def huffLens (ws : List Nat) : List Nat :=
  let used := (List.range 17).filter (fun i => ws.getD i 0 ≠ 0)
  let zero := List.replicate 17 0
  match used with
  | [i] => zero.set i 1
  | _ => huffMerge 17 ((used.map (fun i => (ws.getD i 0, [i]))).foldl insNode []) zero

/-- Used symbols in the canonical order: length, then number. -/
def canonOrder (lens : List Nat) : List (Nat × Nat) :=
  ((List.range 15).map (fun l => ((List.range 17).filter (fun i => lens.getD i 0 = l + 1)).map (fun i => (i, l + 1)))).flatten

/-- Canonical codes: (symbol, length, code). -/
def canonCodes : List (Nat × Nat) → Nat → Nat → List (Nat × Nat × Nat)
  | [], _, _ => []
  | (i, l) :: t, prevLen, next =>
    let c := next * 2 ^ (l - prevLen)
    (i, l, c) :: canonCodes t l (c + 1)

/-- Header content of a CODED block: exponents of symbols 0-15 and the lengths of symbols 0-16. -/
structure SkTable where
  syms : List Nat
  lens : List Nat
  deriving DecidableEq, Repr

/-- The encoder's table for the exponents of a block (R248). -/
def skTable (es : List Nat) : SkTable :=
  let r := skRanked es
  let top := r.take 16
  let esc := ((r.drop 16).map (fun x => x.2)).sum
  let ws := top.map (fun x => x.2) ++ List.replicate (16 - top.length) 0 ++ [esc]
  { syms := top.map (fun x => x.1) ++ List.replicate (16 - top.length) 0, lens := huffLens ws }

/-- Most significant bit first. -/
def msbBits : Nat → Nat → List Bool
  | 0, _ => []
  | n + 1, v => bitOf v n :: msbBits n v

/-- The stream's bits (R247). -/
def skStream (t : SkTable) (es : List Nat) : List Bool :=
  let cs := canonCodes (canonOrder t.lens) 0 0
  let code (i : Nat) : List Bool := match cs.find? (fun c => c.1 = i) with | some c => msbBits c.2.1 c.2.2 | none => []
  es.flatMap (fun e =>
    match (List.range 16).find? (fun i => decide (t.lens.getD i 0 ≠ 0) && decide (t.syms.getD i 0 = e)) with
    | some i => code i
    | none => code 16 ++ msbBits 8 e)

/-- Bits as bytes: bit k of the stream is bit k mod 8 of byte k / 8. -/
def bitsToBytes (bs : List Bool) : List Byte :=
  (List.range (cdiv bs.length 8)).map (fun i =>
    BitVec.ofNat 8 (((List.range 8).map (fun j => if bs.getD (8 * i + j) false then 2 ^ j else 0)).sum))

/-- Block header (R246). -/
def skHeader (mode size lenEsc crc : Nat) (t : SkTable) : List Byte :=
  leBytes 8 (mode + size * 2 ^ 4 + lenEsc * 2 ^ 17 + crc * 2 ^ 32) ++ t.syms.map (BitVec.ofNat 8) ++
  leBytes 8 (((List.range 16).map (fun j => t.lens.getD j 0 * 2 ^ (4 * j))).sum)

def skEmpty : SkTable := { syms := List.replicate 16 0, lens := List.replicate 17 0 }

/-- Pad to whole units of 64 bytes. -/
def padUnits (b : List Byte) : List Byte := b ++ List.replicate (cdiv b.length 64 * 64 - b.length) 0#8

def skRaw (b : List Byte) : List Byte := padUnits (skHeader 1 65 0 (crc32c b) skEmpty ++ b)

/-- Encode one block: its mode and stored bytes (R244, R245). -/
def skEncode (b : List Byte) (poisoned : Bool) : Nat × List Byte :=
  if poisoned then (3, padUnits (skHeader 3 1 0 0 skEmpty))
  else if b.all (fun x => x = 0#8) then (2, padUnits (skHeader 2 1 0 (crc32c b) skEmpty))
  else
    let v := skElems b
    let es := v.map skExp
    let t := skTable es
    let stream := bitsToBytes (skStream t es)
    let size := cdiv (32 + 2048 + stream.length) 64
    if size ≤ 63 then
      (0, padUnits (skHeader 0 size (t.lens.getD 16 0) (crc32c b) t ++ v.map (fun x => BitVec.ofNat 8 (skRest x)) ++ stream))
    else (1, skRaw b)

/-- The table of a stored header. -/
def skReadTable (h : List Byte) : SkTable :=
  { syms := (List.range 16).map (fun j => (h.getD (8 + j) 0#8).toNat)
    lens := (List.range 16).map (fun j => fieldOf (leNat ((h.drop 24).take 8)) (4 * j) 4) ++ [fieldOf (leNat (h.take 8)) 17 4] }

/-- The header meets R248: the Kraft equality or one symbol of length 1, and no exponent named twice. -/
def SkTable.ok (t : SkTable) : Bool :=
  let used := (List.range 17).filter (fun i => t.lens.getD i 0 ≠ 0)
  let kraft := (used.map (fun i => 2 ^ (15 - t.lens.getD i 0))).sum
  let named := (used.filter (fun i => i < 16)).map (fun i => t.syms.getD i 0)
  (decide (kraft = 2 ^ 15) || (decide (used.length = 1) && used.all (fun i => decide (t.lens.getD i 0 = 1)))) &&
  named.all (fun e => decide (named.count e = 1))

/-- Decoder state over the bits of a stream: code so far and its length, bits left of an escaped exponent, exponents
found (last first), and whether padding or an unknown code failed. -/
structure SkScan where
  acc : Nat := 0
  len : Nat := 0
  esc : Nat := 0
  out : List Nat := []
  bad : Bool := false
  deriving DecidableEq, Repr

def skBit (t : SkTable) (cs : List (Nat × Nat × Nat)) (x : SkScan) (b : Bool) : SkScan :=
  if x.out.length = 2048 then { x with bad := x.bad || b }
  else
    let acc := 2 * x.acc + b2n b
    if x.esc = 1 then { x with acc := 0, len := 0, esc := 0, out := acc :: x.out }
    else if 1 < x.esc then { x with acc := acc, esc := x.esc - 1 }
    else
      match cs.find? (fun c => decide (c.2.1 = x.len + 1) && decide (c.2.2 = acc)) with
      | some c => if c.1 = 16 then { x with acc := 0, len := 0, esc := 8 } else { x with acc := 0, len := 0, out := t.syms.getD c.1 0 :: x.out }
      | none => if x.len + 1 < 15 then { x with acc := acc, len := x.len + 1 } else { x with bad := true }

/-- Decode one stored block against its index entry: the 4,096 bytes, or poison; `none` where the block has failed
(R252). -/
def skDecode (b : List Byte) (idxSize idxMode : Nat) : Option (List Byte × Bool) :=
  let w := leNat (b.take 8)
  let mode := fieldOf w 0 2
  let crc := fieldOf w 32 32
  let body (d : List Byte) : Option (List Byte × Bool) := if crc32c d = crc then some (d, false) else none
  if fieldOf w 4 7 ≠ idxSize ∨ mode ≠ idxMode then none
  else if mode = 3 then (if (b.drop 32).all (· = 0#8) then some (List.replicate 4096 0#8, true) else none)
  else if mode = 2 then (if (b.drop 32).all (· = 0#8) then body (List.replicate 4096 0#8) else none)
  else if mode = 1 then (if (b.drop 4128).all (· = 0#8) then body ((b.drop 32).take 4096) else none)
  else
    let t := skReadTable b
    let bits := ((b.take (64 * idxSize)).drop 2080).flatMap (fun x => (List.range 8).map (bitOf x.toNat))
    let r := bits.foldl (skBit t (canonCodes (canonOrder t.lens) 0 0)) {}
    if t.ok && !r.bad && decide (r.out.length = 2048) then
      body ((List.range 2048).flatMap (fun i =>
        let f := (b.getD (32 + i) 0#8).toNat
        leBytes 2 (f / 128 * 32768 + r.out.getD (2047 - i) 0 * 128 + f % 128)))
    else none

/-- Encode with the verify lane (R254): a block that does not decode to its input is stored RAW; the last part says so. -/
def skEncodeChecked (b : List Byte) (poisoned : Bool) : Nat × List Byte × Bool :=
  let e := skEncode b poisoned
  if e.1 = 0 && skDecode e.2 (e.2.length / 64) 0 ≠ some (b, false) then (1, skRaw b, true) else (e.1, e.2, false)

/-- The 64-byte index of a group's blocks (R249). -/
def skIndex : List (Nat × List Byte × Bool) → Nat → List Byte
  | [], _ => []
  | e :: t, off => leBytes 4 (off + e.2.1.length / 64 * 2 ^ 11 + e.1 * 2 ^ 18) ++ skIndex t (off + e.2.1.length / 64)

/-- A group as stored: index, then its blocks (R249). -/
def skGroup (bs : List (Nat × List Byte × Bool)) : List Byte := skIndex bs 1 ++ (bs.map (fun e => e.2.1)).flatten

end Sys2Proof.Machine
end

