-- ==== Sys2Proof/Machine/Flash.lean ====
section
/-! DEFINITION. The memory tiers and the flash layer (R319-R351): pages, write-backs, runs, superblocks, the write buffer,
the journal, the map rebuild, and Skive at the crossing (R240-R255). -/

namespace Sys2Proof.Machine

open Sys2Proof

def State.setFlash (s : State) (f : FlashSt) : State := { s with flash := f }

/-- Little-endian BF16 elements, widened. -/
def bf16List : List Byte → List F32
  | a :: b :: t => BF16.wide (BitVec.ofNat 16 (a.toNat + 256 * b.toNat)) :: bf16List t
  | _ => []

/-! Free frames (R326, R332). -/

def State.freeLow (s : State) : Nat := s.fld Reg.G.FREE_LOW_GB * 16384
def State.freeHigh (s : State) : Nat := s.fld Reg.G.FREE_HIGH_GB * 16384

/-- Memory is short (R332). -/
def State.memShort (s : State) : Bool := decide (s.freeFrames < s.freeLow) && !s.pageList.any s.evictable

/-! Fetches (R324, R331, R333). -/

/-- Ask for a page: it takes a frame and is FETCHING; without a frame it stays in flash. -/
def State.fetchPage (s : State) (p : Nat) : State :=
  let g := s.page p
  if g.st = .flash then (s.takeFrame p g .fetching).getD s else s

/-- Log and write the lines of a 4 KB sector as poison (R331, R343). -/
def State.poisonSector (s : State) (sec : Nat) : State :=
  let s := (List.range 64).foldl (fun s i => s.markPoison (64 * sec + i) 0) s
  s.log 0x05 2 0 2 0 (4096 * sec) 64

/-- A fetched page has landed, in its frame or in staging (R324, R332); its bad sectors land as poison. -/
def State.landPage (s : State) (p : Nat) (bad : List Nat) : State :=
  let g := s.page p
  let s := s.setFlash { s.flash with landed := if g.st = .fetching || s.flash.stageReq.contains p then insNat s.flash.landed p else s.flash.landed }
  if g.st = .fetching then
    let s := (s.setPage p { g with st := .resident, since := s.now }).bump Reg.G.PAGES_FETCHED
    let s := s.setFlash { s.flash with rereads := s.flash.rereads.filter (fun x => x.1 ≠ p) }
    (bad.filter (· < 16)).foldl (fun s i => s.poisonSector (16 * p + i)) s
  else if s.flash.stageReq.contains p then
    let s := s.setFlash { s.flash with stageReq := s.flash.stageReq.filter (· ≠ p), staged := insNat s.flash.staged p }
    (bad.filter (· < 16)).foldl (fun s i => s.poisonSector (16 * p + i)) (s.bump Reg.G.PAGES_STAGED)
  else s

/-- Skive's reread of a failed block of a coded page (R253). -/
def State.reread (s : State) (p block : Nat) (ok : Bool) : State :=
  let g := s.page p
  if g.coded && decide (block < 16) && (decide (g.st = .fetching) || s.flash.stageReq.contains p) && !s.flash.rereads.contains (p, block) then
    let s := s.setFlash { s.flash with rereads := (p, block) :: s.flash.rereads }
    if ok then s.bump Reg.Skive.RETRY_OK
    else
      let s := (List.range 64).foldl (fun s i => s.markPoison (1024 * p + 64 * block + i) 0) (s.bump Reg.Skive.BLOCKS_POISONED)
      s.log 0x05 2 0 11 0 (p * 0x10000) 64
  else s

/-! Runs (R336-R341). -/

/-- Rebuild set of a flash-direct sector (R329 SET, R337). -/
def State.fdSet (s : State) (sec : Nat) : Nat :=
  match s.flash.fdSets.find? (fun x => decide (x.1 ≤ sec) && decide (sec < x.2.1)) with
  | some x => x.2.2
  | none => 0

/-- Start a run: its sectors' bytes as they are now, its SEQ (R339). -/
def State.startRun (s : State) (kind : RunKind) (set : Nat) (sectors : List Nat) (dirty : Nat) (coded each : Bool) : State × Nat :=
  let f := s.flash
  let inRun (a : Nat) : Bool := sectors.contains a
  let r : Run := { id := f.nextRun, kind := kind, set := set, seq := f.seq, sectors := sectors
                   data := s.mem.bytes.filter (fun x => inRun (x.1 / 4096))
                   poison := (s.mem.poison.filter (fun x => inRun (x.1 / 64))).map (fun x => x.1)
                   dirty := dirty, coded := coded, each := each }
  (s.setFlash { f with nextRun := f.nextRun + 1, runs := f.runs ++ [r], seq := f.seq + (if each then max 1 sectors.length else 1) }, f.nextRun)

/-- Number of a superblock on its Shank, and how many are free (FREE_SB_A, FREE_SB_B). -/
def sbDefault (_ : Nat) : Superblock := {}
def State.sb (s : State) (n : Nat) : Superblock := SMap.get sbDefault s.flash.sbs n
def State.setSb (s : State) (n : Nat) (v : Superblock) : State := s.setFlash { s.flash with sbs := SMap.set sbDefault s.flash.sbs n v }
def State.sbsOf (s : State) (shank : Nat) : List (Nat × Superblock) := s.flash.sbs.filter (fun x => x.1 % 2 = shank)
def State.freeSb (s : State) (shank : Nat) : Nat := s.flash.sbTotal - ((s.sbsOf shank).filter (fun x => x.2.st ≠ 0)).length

/-- Parity blocks in use on a Shank: one for each superblock open or not yet verified (R340, R342). -/
def State.parityInUse (s : State) (shank : Nat) : Nat :=
  ((s.sbsOf shank).filter (fun x => decide (x.2.st = 1) || decide (x.2.st = 2))).length

/-- The Shank's open superblock of a set (R337). -/
def State.openSb (s : State) (shank set : Nat) : Option Nat :=
  ((s.sbsOf shank).find? (fun x => decide (x.2.st = 1) && decide (x.2.set = set))).map (fun x => x.1)

/-- No free superblock of the Shank has fewer erases (R346). -/
def State.leastErased (s : State) (n : Nat) : Bool :=
  let e := (s.sb n).erases
  let l := s.sbsOf (n % 2)
  (decide (e = 0) || decide (l.length = s.flash.sbTotal)) && l.all (fun x => decide (x.2.st ≠ 0) || decide (e ≤ x.2.erases))

/-- A run of the set may go to superblock `n`: the open one, or a free one that may open. -/
def State.sbTakes (s : State) (n set : Nat) : Bool :=
  let v := s.sb n
  decide (n / 2 < s.flash.sbTotal) &&
  ((decide (v.st = 1) && decide (v.set = set)) ||
   (decide (v.st = 0) && (s.openSb (n % 2) set).isNone && decide (s.parityInUse (n % 2) < 16) && s.leastErased n))

/-- Sectors land in superblock `n`: older copies are no longer valid. -/
def State.placeIn (s : State) (n set : Nat) (sectors : List Nat) : State :=
  let sbs := s.flash.sbs.map (fun x => (x.1, { x.2 with sectors := x.2.sectors.filter (fun y => !sectors.contains y) }))
  let s := s.setFlash { s.flash with sbs := sbs.filter (fun x => x.2 ≠ {}) }
  let v := s.sb n
  s.setSb n { v with st := 1, set := set, written := s.now, sectors := v.sectors ++ sectors }

def seqDefault (_ : Nat) : Nat := 0
def State.sectorSeq (s : State) (sec : Nat) : Nat := SMap.get seqDefault s.flash.seqOf sec

/-- Give sectors their SEQ: one for the run, or one each. -/
def putSeqs (m : SMap Nat) (seq : Nat) (each : Bool) : List Nat → SMap Nat
  | [] => m
  | x :: t => putSeqs (SMap.set seqDefault m x seq) (if each then seq + 1 else seq) each t

/-- The page has a copy in flash. -/
def State.inFlash (s : State) (p : Nat) : Bool := (List.range 16).any (fun i => s.sectorSeq (16 * p + i) ≠ 0)

/-- The durable copy takes a run's sectors; poison there covers 4 KB (R440). -/
def State.durable (s : State) (r : Run) : State :=
  let f := s.flash
  let out (a : Nat) : Bool := !r.sectors.contains a
  s.setFlash { f with
    dur := r.data.foldl (fun m x => SMap.set byteDefault m x.1 x.2) (f.dur.filter (fun x => out (x.1 / 4096)))
    durPoison := (r.poison.flatMap (fun l => (List.range 64).map (fun i => l / 64 * 64 + i))).foldl (fun m l => SMap.set poisonDefault m l true) (f.durPoison.filter (fun x => out (x.1 / 64)))
    seqOf := putSeqs f.seqOf r.seq r.each r.sectors
    runs := f.runs.filter (fun x => x.id ≠ r.id) }

/-- JOURNAL_DURABLE: every record of an epoch at or below it is durable (R347); it stands still until SEQ has resumed (R490). -/
def State.journalDurable (s : State) : Nat :=
  if !s.flash.seqResumed then 0 else
  ((s.flash.journal.filter (fun x => x.st ≠ 2)).map (fun x => x.epoch - 1)).foldl min s.now

/-! Write-out (R240-R245, R250, R254, R326, R327). -/

/-- The page lies wholly inside one enabled Skive region (R241, R258). -/
def State.inSkRegion (s : State) (p : Nat) : Bool :=
  ((s.regs.filter (fun x => decide (0x18000 ≤ x.1) && decide (x.1 < 0x18400) && decide (x.1 % 16 = 0))).map
    (fun x => (x.1 - 0x18000) / 16)).any (fun r =>
      let base := s.fld (Reg.SkRegion.BASE r) + 2 ^ 16 * s.fld (Reg.SkRegion.BASE_H r)
      s.flag (Reg.SkRegion.EN r) && decide (base ≤ p) && decide (p < base + s.fld (Reg.SkRegion.GROUPS r)))

/-- The page lies in a region encrypted under a tenant's key (R243). -/
def State.protectedPage (s : State) (p : Nat) : Bool :=
  match s.regionOf (p * 0x10000) with
  | some r => r.enc && decide (r.dom ≠ 0)
  | none => false

/-- Count a coded group's blocks. -/
def State.countBlock (s : State) (e : Nat × List Byte × Bool) : State :=
  let s := s.bumpBy Reg.Skive.UNITS_OUT (e.2.1.length / 64)
  let s := if e.2.2 then (s.bump Reg.Skive.ENC_MISMATCH) else s
  match e.1 with
  | 0 => s.bump Reg.Skive.BLOCKS_CODED
  | 1 => s.bump Reg.Skive.BLOCKS_RAW
  | 2 => s.bump Reg.Skive.BLOCKS_ZERO
  | _ => s

/-- Choose the stored form of a page (R241, R243, R245, R250): counted, and whether it is a coded group. -/
def State.codeGroup (s : State) (p : Nat) : State × Bool :=
  let g := s.page p
  let skv := g.skv || s.inSkRegion p
  if !skv then (s, false)
  else if s.protectedPage p then (s.bump Reg.Skive.PROT_SKIP, false)
  else if !s.flag Reg.Skive.SKIVE_EN then (s, false)
  else
    let bs := (List.range 16).map (fun i =>
      skEncodeChecked (s.read (p * 0x10000 + 4096 * i) 4096) (s.poisoned (p * 0x10000 + 4096 * i) 4096))
    if 65536 ≤ (skGroup bs).length then (s.bump Reg.Skive.GROUPS_PLAIN, false)
    else (bs.foldl State.countBlock (s.bumpBy Reg.Skive.UNITS_OUT 1), true)

/-- Write a page out (R326): the dirty sectors alone when at most 8 are dirty and the fine pool has room, else all. -/
def State.writeOut (s : State) (p : Nat) (sync : Bool) : State × Nat :=
  let c := s.codeGroup p
  let s := c.1
  let g := s.page p
  let fine := !c.2 && !g.coded && s.inFlash p && decide (popcount g.dirty 16 ≤ 8) && Config.fineRoom s.freshCount
  let secs := ((List.range 16).filter (fun i => !fine || bitOf g.dirty i)).map (fun i => 16 * p + i)
  let s := s.setPage p { g with st := if sync then g.st else .writing, dirty := 0, skv := g.skv || s.inSkRegion p, since := s.now }
  let r := s.fresh.startRun (if sync then .synced p else .evict p) g.set secs g.dirty c.2 fine
  r

/-- Lines of a page that the directory tracks. -/
def State.cachedLines (s : State) (p : Nat) : List Nat := (s.link.dir.map (fun x => x.1)).filter (fun l => l / 1024 = p)

/-- Recall every cached copy of a page's lines (R327): true when none is left. -/
def State.recallLine (s : State) (l : Nat) : State :=
  let s := s.reclaim l
  let e := s.dir l
  if e.req.isSome then s
  else
    let hs := e.holders.filter (· ≠ 2)
    if hs = [] then s.setDir l {}
    else s.sendSnoops l { e with nodeMask := 0 } { op := 9, agent := 2, txn := 0, line := l, dom := 0, data := [], mask := 0, target := 0 }
      (hs.map (fun a => { agent := a, kind := 2, attempt := 0 }))

def State.recallPage (s : State) (p : Nat) : State × Bool :=
  let s := (s.cachedLines p).foldl State.recallLine s
  (s, decide (s.cachedLines p = []))

/-- No free user sector remains (R331). -/
def State.tierFull (s : State) : Bool := decide (s.flash.userGb * 262144 ≤ s.flash.seqOf.length)

/-- Begin to evict a page whose copies are recalled: a clean page is dropped at the next boundary window, a dirty one is
written back. -/
def State.beginEvict (s : State) (p : Nat) : State :=
  let g := s.page p
  if g.dirty = 0 && s.inFlash p then s.setPage p { g with st := .writing, since := s.now }
  else if s.tierFull && !s.inFlash p then s.setFld Reg.G.TIER_FULL 1
  else (s.writeOut p false).1

/-- Evict one page, or recall its copies first. -/
def State.evictPage (s : State) (p : Nat) : State :=
  let r := s.recallPage p
  if r.2 then r.1.beginEvict p
  else r.1.setFlash { r.1.flash with evictWait := insNat r.1.flash.evictWait p }

/-- Evictions that waited for their recalls. -/
def State.evictWaiting (s : State) : State :=
  let l := s.flash.evictWait
  l.foldl (fun s p => if s.evictable p then s.evictPage p else s) (s.setFlash { s.flash with evictWait := [] })

/-! Migration (R326). -/

/-- Among the candidates of least (count, dirty) one is free to choose; log entry 18. -/
def State.victim (s : State) : Option Nat :=
  let l := s.pageList.filter (fun p => s.evictable p && !s.flash.evictWait.contains p)
  let key (p : Nat) : Nat := 2 * (s.page p).count + b2n ((s.page p).dirty ≠ 0)
  let best := (l.map key).foldl min (2 ^ 16)
  match l.filter (fun p => key p = best) with
  | [] => none
  | [p] => some p
  | c => some (c.getD (Config.pick s.freshCount c.length % c.length) 0)

/-- Pages whose frames come back when their write-backs end. -/
def State.leaving (s : State) : Nat :=
  (s.pages.filter (fun x => decide (x.2.st = .writing))).length + s.flash.evictWait.length

def State.evictLoop (s : State) : Nat → State
  | 0 => s
  | fuel + 1 =>
    if s.freeHigh ≤ s.freeFrames + s.leaving then s
    else match s.victim with
      | some p =>
        let t := s.evictPage p
        if t.flag Reg.G.TIER_FULL && !s.flag Reg.G.TIER_FULL then t else State.evictLoop t.fresh fuel
      | none => s

/-- FLASH pages to promote, by descending count. -/
def insPromote : List (Nat × Nat) → Nat × Nat → List (Nat × Nat)
  | [], x => [x]
  | y :: t, x => if y.1 < x.1 then x :: y :: t else y :: insPromote t x

def State.promotions (s : State) : List Nat :=
  (((s.pages.filter (fun x => decide (x.2.st = .flash) && decide (s.fld Reg.G.PROMOTE_AT ≤ x.2.count))).map
    (fun x => (x.2.count, x.1))).foldl insPromote []).map (fun x => x.2)

/-- The migration of a boundary whose epoch is a multiple of MIG_PERIOD. -/
def State.migrate (s : State) : State :=
  let s := s.setFlash { s.flash with migrated := s.now }
  let s := s.pageList.foldl (fun s p => let g := s.page p; s.setPage p { g with count := g.count / 2 }) s
  let s := if s.freeFrames < s.freeLow then s.evictLoop s.pages.length else s
  s.promotions.foldl (fun s p => if s.freeHigh < s.freeFrames then s.fetchPage p else s) s

def State.migrationDue (s : State) : Bool :=
  decide (s.time.phase < 650) && decide (s.now % max 1 (s.fld Reg.G.MIG_PERIOD) = 0) && decide (s.flash.migrated ≠ s.now)

/-- What comes back from flash: the poison of the durable copy (R440). -/
def State.takePoison (s : State) (sectors : List Nat) : State :=
  let ls := (s.flash.durPoison.map (fun x => x.1)).filter (fun l => sectors.contains (l / 64) && !s.mem.linePoison l)
  { s with mem := ls.foldl (fun m l => m.poisonLine l (SMap.get metaDefault m.meta_ l % 256)) s.mem }

/-- A page whose run is durable leaves WRITING for FLASH in a boundary window (R324). -/
def State.leaveWriting (s : State) (p : Nat) : State :=
  let g := s.page p
  if decide (g.st = .writing) && decide (s.time.phase < 650) && decide (g.since < s.now) && !s.flash.runs.any (fun r => r.kind = .evict p) then
    ((s.takePoison ((List.range 16).map (fun i => 16 * p + i))).setPage p { g with st := .flash, skv := false, dirty := 0, since := s.now }).bump
      Reg.G.PAGES_EVICTED
  else s

/-- A slice or a sampled coherent access adds one to a page's count (R326). -/
def State.countAccess (s : State) (p : Nat) : State :=
  let g := s.page p
  if g.st = .unbacked then s else s.setPage p { g with count := min 255 (g.count + 1) }

/-- One in every 16 coherent accesses counts; log entry 24. -/
def State.sampleAccess (s : State) (a : Nat) : State :=
  let s := s.setFlash { s.flash with samples := (s.flash.samples + 1) % 16 }
  if s.flash.samples = 0 && decide (a < tieredEnd) then s.countAccess (a / 0x10000) else s

/-! Hints (R329, R330). -/

structure HintDesc where
  hint : Nat
  set : Nat
  tag : Nat
  base : Nat
  pages : Nat
  reservedOk : Bool
  deriving DecidableEq, Repr

def parseHint (ws : List Nat) : HintDesc :=
  let w (i : Nat) := ws.getD i 0
  { hint := fieldOf (w 0) 8 4, set := fieldOf (w 0) 16 3, tag := w 1, base := fieldOf (w 2) 0 52, pages := fieldOf (w 3) 0 32
    reservedOk := reservedZero ws [0x70FFF, 2 ^ 64 - 1, 2 ^ 52 - 1, 2 ^ 32 - 1, 0, 0, 0, 0] }

def hintWords (tag : Nat) (st : Status) (done epoch : Nat) : List Nat := [tag, statusWord st 0, done, epoch]

/-- The hint has a meaning in the area of its range (the table "Hints"). -/
def hintArea (x : HintDesc) : Bool :=
  let e := x.base + 0x10000 * x.pages
  (decide (x.hint < 7) && decide (e ≤ tieredEnd)) || (decide (4 ≤ x.hint) && decide (x.hint < 7) && flashDirect x.base (0x10000 * x.pages))

/-- Pinned frames now. -/
def State.pinnedFrames (s : State) : Nat := (s.pages.filter (fun x => x.2.pin && x.2.framed)).length

/-- A PIN of these pages leaves FREE_HIGH_GB of unpinned frames (R330). -/
def State.pinFits (s : State) (base pages : Nat) : Bool :=
  let have_ := (s.pages.filter (fun x => x.2.pin && x.2.framed && decide (base ≤ x.1) && decide (x.1 < base + pages))).length
  decide (s.freeHigh + s.pinnedFrames + (pages - have_) ≤ s.poolStacks.length * s.framesPerStack)

def State.hintFail (s : State) (d : Nat) (x : HintDesc) : Option Status :=
  firstFail [
    (s.inDomain d x.base (0x10000 * x.pages), .domainFault),
    (x.reservedOk && decide (x.base % 0x10000 = 0) && hintArea x && decide (x.pages ≠ 0) &&
      (decide (x.hint ≠ 6) || decide (x.set ≠ 7)), .refused),
    (decide (x.hint ≠ 2) || s.pinFits (x.base / 0x10000) x.pages, .refused),
    ((List.range x.pages).all (fun i => if tieredEnd ≤ x.base then !(List.range 16).any (fun k => s.unscannedSector (x.base / 4096 + 16 * i + k))
      else !s.unscanned (x.base / 0x10000 + i)), .refused)]

def State.finishHint (s : State) (j : Job) (st : Status) (done : Nat) : State :=
  ((s.countEnd j.dom j.tag st).postRecord j.dom j.ring st (hintWords j.tag st done s.now)).dropJob j.id

/-- Pages of a range that the tier map lists. -/
def State.pagesIn (s : State) (base pages : Nat) : List Nat := s.pageList.filter (fun p => decide (base ≤ p) && decide (p < base + pages))

/-- Dirty sectors of a flash-direct range in the write buffer. -/
def State.wbIn (s : State) (lo n : Nat) : List Nat :=
  (s.flash.wbuf.map (fun x => x.sector)).filter (fun x => decide (lo ≤ x) && decide (x < lo + n))

/-- Program a buffered sector (R334): the rest of its image is the sector's present content. -/
def State.flushSector (s : State) (sec : Nat) : State × Nat :=
  (s.setFlash { s.flash with wbuf := s.flash.wbuf.filter (fun x => x.sector ≠ sec) }).startRun .sectors (s.fdSet sec) [sec] 0 false false

/-- Start what a SYNC can start now: pages whose copies are recalled, sectors of the write buffer. -/
def State.syncStart (s : State) (h : Hint) : State × Hint :=
  h.left.foldl (fun (a : State × Hint) x =>
    let s := a.1
    let h := a.2
    if tieredEnd ≤ h.base then
      let r := s.flushSector x
      (r.1, { h with runs := h.runs ++ [r.2] })
    else
      let r := s.recallPage x
      let g := r.1.page x
      if !r.2 then (r.1, { h with left := h.left ++ [x] })
      else if g.st = .resident && g.dirty ≠ 0 then
        let w := r.1.writeOut x true
        (w.1, { h with runs := h.runs ++ [w.2] })
      else (r.1, h)) (s, { h with left := [] })

/-- Pages of a hint that are done. -/
def State.hintDone (s : State) (h : Hint) : Nat :=
  (s.pagesIn (h.base / 0x10000) h.pages).foldl (fun n p =>
    let g := s.page p
    if (g.st = .flash || g.st = .fetching) || (h.hint = 2 && !g.pin) then n - 1 else n) h.pages

/-- Drive a WILLNEED, PIN or SYNC on, and complete it when it is done. -/
def State.driveHint (s : State) (j : Job) (h : Hint) : State :=
  let base := h.base / 0x10000
  match h.hint with
  | 0 =>
    let s := (s.pagesIn base h.pages).foldl State.fetchPage s
    if s.hintDone h = h.pages then s.finishHint j .ok h.pages else s
  | 2 =>
    let s := (s.pagesIn base h.pages).foldl (fun s p =>
      let s := s.fetchPage p
      let g := s.page p
      if g.st = .resident || g.st = .writing then (if g.st = .writing then s.cancelWriteback p { g with pin := true } else s.setPage p { g with pin := true })
      else s) s
    if s.hintDone h = h.pages then s.finishHint j .ok h.pages else s
  | 4 =>
    let r := s.syncStart h
    let h' := r.2
    let s := r.1.putJob { j with work := .hint h' }
    if h'.left = [] && h'.runs.all (fun i => !s.flash.runs.any (fun x => x.id = i)) then s.finishHint j .ok h.pages else s
  | _ => s

def State.driveHints (s : State) : State :=
  s.sched.jobs.foldl (fun s j => match s.job? j.id with
    | some j => match j.work with
      | .hint h => if j.doom = none then s.driveHint j h else s
      | _ => s
    | none => s) s

/-- Nothing of the bytes named stays, in memory or in flash; of the pages `ps`, UNBACKED now, PIN stays where asked (R329, R496). -/
def State.wipe (s : State) (inside : Nat → Bool) (ps : List Nat) (keepPin : Bool) : State :=
  let f := s.flash
  let out (p : Nat) : Bool := !inside (0x10000 * p)
  let s := s.setFlash { f with
    runs := (f.runs.filter (fun x => match x.kind with | .evict p | .synced p => out p | .sectors | .journal => true)).map (fun x =>
      { x with sectors := x.sectors.filter (fun y => !inside (4096 * y)), data := x.data.filter (fun y => !inside y.1), poison := x.poison.filter (fun y => !inside (64 * y)) })
    evictWait := f.evictWait.filter out, staged := f.staged.filter out, stageReq := f.stageReq.filter out
    wbuf := f.wbuf.filter (fun x => !inside (4096 * x.sector)), seqOf := f.seqOf.filter (fun x => !inside (4096 * x.1))
    dur := f.dur.filter (fun x => !inside x.1), durPoison := f.durPoison.filter (fun x => !inside (64 * x.1))
    sbs := (f.sbs.map (fun x => (x.1, { x.2 with sectors := x.2.sectors.filter (fun y => !inside (4096 * y)) }))).filter (fun x => x.2 ≠ {}) }
  let m := s.mem
  let s := { s with mem := { bytes := m.bytes.filter (fun x => !inside x.1), poison := m.poison.filter (fun x => !inside (64 * x.1))
                             meta_ := m.meta_.filter (fun x => !inside (64 * x.1)) } }
  ps.foldl (fun s p => let g := s.page p; s.setPage p { pin := keepPin && g.pin, set := g.set }) s

/-- A DISCARD at its boundary (R330): refused while a page of its range is held other than by PIN; waits for recalls. -/
def State.applyDiscard (s : State) (j : Job) (h : Hint) : State :=
  let lo := h.base / 0x10000
  let inside (a : Nat) : Bool := decide (h.base ≤ a) && decide (a < h.base + 0x10000 * h.pages)
  if tieredEnd ≤ h.base then (s.wipe inside [] true).finishHint j .ok h.pages
  else
    let ps := s.pagesIn lo h.pages
    if ps.any s.pageHeld then s.finishHint j .refused 0
    else
      let r := ps.foldl (fun (a : State × Bool) p => let r := a.1.recallPage p; (r.1, a.2 && r.2)) (s, true)
      if !r.2 then r.1
      else (r.1.wipe inside ps true).finishHint j .ok h.pages

def State.applyDiscards (s : State) : State :=
  s.sched.jobs.foldl (fun s j => match s.job? j.id with
    | some j => match j.work with
      | .hint h => if h.hint = 5 && decide (j.doom = none) then s.applyDiscard j h else s
      | _ => s
    | none => s) s

/-- Take a TIER_HINT descriptor (R329). -/
def State.takeHint (s : State) (d r : Nat) : State :=
  let x := parseHint (s.words8 (s.headAddr d r))
  let s := s.takeHead d r 1
  match s.hintFail d x with
  | some st => (s.countEnd d x.tag st).postRecord d r st (hintWords x.tag st 0 s.now)
  | none =>
    let lo := x.base / 0x10000
    let ps := s.pagesIn lo x.pages
    let all := (List.range x.pages).map (fun i => lo + i)
    let h : Hint := { hint := x.hint, base := x.base, pages := x.pages, set := x.set }
    let done (s : State) : State := s.postRecord d r .ok (hintWords x.tag .ok x.pages s.now)
    let job (s : State) (h : Hint) : State :=
      let a := s.addJob d r 0x50 x.tag (.hint h)
      match a.1.job? a.2 with
      | some j => a.1.driveHint j h
      | none => a.1
    match x.hint with
    | 0 => job (all.foldl (fun s p => let g := s.page p; s.setPage p { g with count := s.fld Reg.G.PROMOTE_AT }) s) h
    | 1 => done (ps.foldl (fun s p => let g := s.page p; s.setPage p { g with count := 0 }) s)
    | 2 => job (all.foldl (fun s p => let g := s.page p; if g.st = .unbacked then (s.takeFrame p { g with dirty := 0xFFFF } .resident).getD s else s) s) h
    | 3 => done (ps.foldl (fun s p => let g := s.page p; s.setPage p { g with pin := false }) s)
    | 4 =>
      let inside (z : Nat) : Bool := decide (x.base ≤ 4096 * z) && decide (4096 * z < x.base + 0x10000 * x.pages)
      let left := if tieredEnd ≤ x.base then s.wbIn (x.base / 4096) (16 * x.pages)
        else ps.filter (fun p => decide ((s.page p).dirty ≠ 0) && decide ((s.page p).st = .resident))
      job s { h with left := left, runs := (s.flash.runs.filter (fun y => y.sectors.any inside)).map (fun y => y.id) }
    | 5 => (s.addJob d r 0x50 x.tag (.hint h)).1
    | _ =>
      done (if tieredEnd ≤ x.base then s.setFlash { s.flash with fdSets := (x.base / 4096, x.base / 4096 + 16 * x.pages, x.set) :: s.flash.fdSets }
        else all.foldl (fun s p => let g := s.page p; s.setPage p { g with set := x.set }) s)

/-! Superblocks (R342, R345, R346). -/

/-- Rewrite sectors into their set's open superblock of the same Shank, opening one where none is open: `none` while no
superblock can be had. -/
def State.relocate (s : State) (n : Nat) (sectors : List Nat) : Option State :=
  if sectors = [] then some s
  else
    let v := s.sb n
    let place := match s.openSb (n % 2) v.set with
      | some m => if m = n then none else some m
      | none => ((List.range s.flash.sbTotal).map (fun i => 2 * i + n % 2)).find? (fun m => decide (m ≠ n) && s.sbTakes m v.set)
    match place with
    | none => none
    | some m =>
      let f := s.flash
      let s := s.setFlash { f with
        seqOf := (sectors.zipIdx).foldl (fun a x => SMap.set seqDefault a x.1 (f.seq + x.2 / 16)) f.seqOf, seq := f.seq + cdiv sectors.length 16 }
      some (s.placeIn m v.set sectors)

/-- Least and greatest erase counts of a Shank's blocks, on each of its channels (R353). -/
def State.countErases (s : State) (shank : Nat) : State :=
  let l := (s.sbsOf shank).map (fun x => x.2.erases)
  let lo := if l.length < s.flash.sbTotal then 0 else l.foldl min (2 ^ 16)
  let hi := l.foldl max 0
  (List.range 16).foldl (fun s i => (s.setFld (Reg.Flash.ERASE_MIN (16 * shank + i)) lo).setFld (Reg.Flash.ERASE_MAX (16 * shank + i)) hi) s

/-- Relocate a closed superblock and erase its blocks. -/
def State.collect (s : State) (n : Nat) : State :=
  match s.relocate n (s.sb n).sectors with
  | none => s
  | some t => (t.setSb n { erases := (t.sb n).erases + 1 }).countErases (n % 2)

def Superblock.closed (v : Superblock) : Bool := decide (v.st = 2) || decide (v.st = 3)

/-- Close a full superblock and verify it (R342). -/
def State.verifySb (s : State) (n : Nat) (weak rebuilt : List Nat) : State :=
  let v := s.sb n
  if v.st = 1 ∨ v.st = 2 then
    let s := s.setSb n { v with st := 2 }
    match s.relocate n (weak.filter (fun x => v.sectors.contains x)) with
    | none => s
    | some t => (t.setSb n { (t.sb n) with st := 3 }).bumpBy Reg.G.PARITY_REBUILDS (rebuilt.filter (fun x => weak.contains x && v.sectors.contains x)).length
  else s

/-- The closed superblock with the fewest valid sectors. -/
def State.gcVictim (s : State) (shank : Nat) : Option Nat :=
  let l := (s.sbsOf shank).filter (fun x => x.2.closed)
  let best := (l.map (fun x => x.2.sectors.length)).foldl min (2 ^ 40)
  match l.filter (fun x => x.2.sectors.length = best) with
  | [] => none
  | [x] => some x.1
  | c => some ((c.getD (Config.pick s.freshCount c.length % c.length) (0, {})).1)

def State.garbage (s : State) (shank : Nat) : State :=
  if decide (shank < 2) && decide (s.freeSb shank ≤ s.fld Reg.G.GC_LOW) then
    match s.gcVictim shank with
    | some n => s.fresh.collect n
    | none => s
  else s

/-- Wear levelling of a Shank (R346). -/
def State.wear (s : State) (shank : Nat) : State :=
  let l := s.sbsOf shank
  let lo := if l.length < s.flash.sbTotal then 0 else (l.map (fun x => x.2.erases)).foldl min (2 ^ 16)
  let hi := (l.map (fun x => x.2.erases)).foldl max 0
  if decide (shank < 2) && decide (s.fld Reg.G.WEAR_GAP < hi - lo) then
    let c := l.filter (fun x => x.2.closed)
    let old := (c.map (fun x => x.2.written)).foldl min (2 ^ 48)
    match c.find? (fun x => x.2.written = old) with
    | some x => s.collect x.1
    | none => s
  else s

def State.readDisturb (s : State) (n : Nat) : State :=
  if (s.sb n).closed && decide (s.fld Reg.G.READ_DISTURB_LIMIT ≤ (s.sb n).reads) then s.collect n else s

def State.patrol (s : State) (n : Nat) (soft : Bool) : State := if (s.sb n).closed && soft then s.collect n else s

/-- A failed program or erase retires the block; a spare takes its place (R346). -/
def State.programFail (s : State) (n ch : Nat) (erase : Bool) : State :=
  if ch < 32 ∧ ch / 16 = n % 2 then
    let s := s.bump (if erase then Reg.Flash.ERASE_FAILS ch else Reg.Flash.PROGRAM_FAILS ch)
    (s.bump (Reg.Flash.BLOCKS_RETIRED ch)).setFld (Reg.Flash.SPARES_LEFT ch) (s.fld (Reg.Flash.SPARES_LEFT ch) - 1)
  else s

/-! Reads (R343, R344). -/

/-- Count the recovery steps of one sector read on its channel; step 5 is failure. -/
def State.countRead (s : State) (ch step retries : Nat) : State :=
  let extra := (if 2 ≤ step then retries else 0) + (if 3 ≤ step then 2 else 0) + (if step = 4 then 16 else 0)
  let s := s.bumpBy (Reg.Flash.READS ch) (1 + extra)
  let s := if 2 ≤ step then s.bumpBy (Reg.Flash.RETRY_READS ch) retries else s
  let s := if 3 ≤ step then s.bump (Reg.Flash.SOFT_DECODES ch) else s
  let s := if 4 ≤ step then s.bump (Reg.Flash.UNCORRECTABLE ch) else s
  if step = 4 then s.bump Reg.G.PARITY_REBUILDS else s

/-- The read of a candidate that is under way (R105), and its candidate's place in the store. -/
def State.readDue (s : State) (job cand : Nat) : Option (Job × Query) :=
  match s.query? job with
  | some (j, q) => if decide (cand < q.readsIssued) && !q.readsLanded.contains cand then some (j, q) else none
  | none => none

/-- A channel, a recovery step and rereads that R343 knows. -/
def State.readOk (s : State) (ch step retries : Nat) : Bool :=
  decide (ch < 32) && decide (1 ≤ step) && decide (step ≤ 5) && decide (retries ≤ s.fld Reg.G.READ_RETRY_MAX)

/-- A sector read for a candidate's full vector ends (R105, R343). -/
def State.planeRead (s : State) (job cand ch step retries : Nat) : State :=
  match s.readDue job cand with
  | some (j, q) =>
    let a := s.candAddr q (q.store.getD cand ⟨0#64, 0#64, 0, 0, 0, 0, 0#32, 0#32⟩)
    let s := s.countRead ch step retries
    let s := s.setFlash { s.flash with sbs := s.flash.sbs.map (fun (x : Nat × Superblock) =>
      if x.2.sectors.contains (a / 4096) then (x.1, { x.2 with reads := x.2.reads + 1 }) else x) }
    let s := if step = 5 then s.poisonSector (a / 4096) else s
    s.readLanded j q cand
  | none => s

def thresholdDefault (_ : Nat) : Int := 0

/-- Move a bin's offset one step (R344). -/
def State.adjust (s : State) (ch lun bin : Nat) (up : Bool) : State :=
  if ch < 32 then
    let k := ch * 2 ^ 40 + lun % 2 ^ 8 * 2 ^ 32 + bin % 2 ^ 32
    let v := SMap.get thresholdDefault s.flash.threshold k
    s.setFlash { s.flash with threshold := SMap.set thresholdDefault s.flash.threshold k (if up then v + 1 else v - 1) }
  else s

/-! The write buffer (R334). -/

def State.wbFlush (s : State) (sec : Nat) : State :=
  match s.flash.wbuf.find? (fun x => x.sector = sec) with
  | some x =>
    if x.mask = 2 ^ 4096 - 1 || decide (x.since + s.fld Reg.G.WB_FLUSH ≤ s.now) then ((s.flushSector sec).1).handVectors else s
  | none => s

/-! The journal (R347-R349). -/

def JRec.bytes (x : JRec) : Nat := 64 + cdiv x.payload.length 64 * 64

/-- The 64-byte header of a record (R348). -/
def JRec.header (x : JRec) : List Byte :=
  leBytes 8 (x.kind + 16 * x.cbSlot + x.bytes / 64 * 2 ^ 16) ++ leBytes 8 x.epoch ++ leBytes 8 (x.number + x.part * 2 ^ 32) ++
  leBytes 8 (x.position + x.step * 2 ^ 32) ++ leBytes 8 x.gid.toNat ++ leBytes 8 x.seq ++ List.replicate 16 0#8

def JRec.image (x : JRec) : List Byte := x.header ++ x.payload ++ List.replicate (x.bytes - 64 - x.payload.length) 0#8

def journalBytes (l : List JRec) : Nat := (l.map JRec.bytes).sum

/-- Drop the oldest records beyond JOURNAL_GB. -/
def trimJournal (cap : Nat) : List JRec → Nat → List JRec × Nat
  | [], e => ([], e)
  | x :: t, e => if cap < journalBytes (x :: t) then trimJournal cap t (max e x.epoch) else (x :: t, e)

/-- Append a record to the journal buffer (R142, R347). -/
def State.journal (s : State) (x : JRec) : State :=
  let r := trimJournal (s.fld Reg.G.JOURNAL_GB * 2 ^ 30) (s.flash.journal ++ [x]) s.flash.jErased
  s.setFlash { s.flash with journal := r.1, jErased := r.2 }

/-- Program the journal buffer into set 7. -/
def State.journalFlush (s : State) : State :=
  let buf := s.flash.journal.filter (fun x => x.st = 0)
  if buf ≠ [] && (decide (0x10000 ≤ journalBytes buf) || decide (s.flash.jFlushed + s.fld Reg.G.JOURNAL_FLUSH ≤ s.now)) then
    let r := s.startRun .journal 7 [] 0 false false
    let s := r.1
    s.setFlash { s.flash with jFlushed := s.now, journal := s.flash.journal.map (fun x =>
      if x.st = 0 then { x with st := 1, run := r.2, seq := s.flash.seq - 1 } else x) }
  else s

/-! The map rebuild (R350, R351). -/

/-- The header scan: what it finds of superblocks and user capacity, and the order of the set scans. -/
def State.mapRebuild (s : State) (sbTotal userGb : Nat) : State :=
  let s := (s.setFld Reg.G.RUNS_TORN 0).setFld Reg.G.VEC_REPLAYED 0
  let s := (s.setFld Reg.G.REBUILD_DONE 0).setFld Reg.G.SET_READY 0
  s.setFlash { s.flash with scanning := true, scanStart := s.now, sbTotal := sbTotal, userGb := userGb, seqResumed := false, covered := 0
                            setsLeft := (List.range 8).map (fun i => fieldOf (s.fld Reg.G.REBUILD_ORDER) (4 * i) 4) }

/-- Values of SEQ that a run takes. -/
def Run.seqs (r : Run) : Nat := if r.each then max 1 r.sectors.length else 1

/-- Number the runs that wait from a value on, in order. -/
def renumber : List Run → Nat → List Run × Nat
  | [], n => ([], n)
  | r :: t, n => let x := renumber t (n + r.seqs); ({ r with seq := n } :: x.1, x.2)

/-- SEQ resumes past every value seen (R350 step 3); runs that waited take their values now (R490). -/
def State.resumeSeq (s : State) : State :=
  if s.flash.seqResumed then s
  else
    let m := max ((s.flash.seqOf.map (fun x => x.2)).foldl max 0) ((s.flash.journal.map (fun x => x.seq)).foldl max 0)
    let x := renumber s.flash.runs (m + 2 ^ 20)
    s.setFlash { s.flash with
      seq := x.2, runs := x.1, seqResumed := true
      journal := s.flash.journal.map (fun (y : JRec) => match x.1.find? (fun r => y.st = 1 && r.id = y.run) with | some r => { y with seq := r.seq } | none => y) }

/-- Some ready set holds flash-direct data. -/
def State.fdReady (s : State) : Bool :=
  (List.range 7).any (fun k => bitOf (s.fld Reg.G.SET_READY) k &&
    s.flash.sbs.any (fun x => decide (x.2.set = k) && x.2.sectors.any (fun y => decide (tieredEnd ≤ 4096 * y))))

/-- Set that maps a sector; 8 for none. -/
def State.setOfSector (s : State) (x : Nat) : Nat := ((s.flash.sbs.find? (fun y => y.2.sectors.contains x)).map (fun y => y.2.set)).getD 8

/-- Sets that the repair may cover now: ready ones, and with the rebuild done what no set maps. -/
def State.coverable (s : State) : List Nat :=
  ((List.range 8).filter (fun k => bitOf (s.fld Reg.G.SET_READY) k && !bitOf s.flash.covered k)) ++
  (if s.flag Reg.G.REBUILD_DONE && !bitOf s.flash.covered 8 then [8] else [])

/-- Rewrite full vectors older than their insert records, in the sets not yet covered (R350 step 4). -/
def State.vectorRepair (s : State) : State :=
  let ks := s.coverable
  if ks = [] || !bitOf (s.fld Reg.G.SET_READY) 7 || !(s.fdReady || s.flag Reg.G.REBUILD_DONE) then s
  else
    let s := s.resumeSeq
    let s := s.setFlash { s.flash with covered := s.flash.covered + (ks.map (fun k => 2 ^ k)).sum }
    (s.flash.journal.filter (fun x => decide (x.kind = 1) && decide (x.st = 2))).foldl (fun s x =>
      let sh := s.readShape x.number
      let a := fullAddr sh (s.partDesc x.number x.part).fullBase x.position
      if (sectorsOf a (slotSize sh)).any (fun y => ks.contains (s.setOfSector y.1) && decide (s.sectorSeq y.1 < x.seq)) then
        (s.writeFull sh x.number x.part x.position (bf16List (x.payload.drop 96)) 0).bump Reg.G.VEC_REPLAYED
      else s) s

/-- The scan of a set ends (R350, R351). -/
def State.setReady (s : State) (set torn : Nat) (bad : List Nat) : State :=
  if s.flash.scanning && decide (s.flash.setsLeft.head? = some set) then
    let left := s.flash.setsLeft.drop 1
    let s := s.setFlash { s.flash with setsLeft := left, scanning := decide (left ≠ []) }
    let s := (s.setFld Reg.G.SET_READY (s.fld Reg.G.SET_READY ||| 2 ^ set)).bumpBy Reg.G.RUNS_TORN torn
    let s := (bad.filter (fun x => s.sectorSeq x ≠ 0)).foldl State.poisonSector s
    let s := if left = [] then
        ((s.resumeSeq).setFld Reg.G.REBUILD_DONE 1).setFld Reg.G.REBUILD_MS ((s.now - s.flash.scanStart) * s.fld Reg.G.PERIOD_US / 1000)
      else s
    s.vectorRepair
  else s

/-- What power loss leaves (R350, R351): the durable copy in flash, and nothing in stack memory. -/
def State.loseMemory (s : State) : State :=
  let f := s.flash
  let ps := f.seqOf.foldl (fun (m : SMap Page) x =>
    if tieredEnd ≤ 4096 * x.1 then m
    else SMap.set pageDefault m (x.1 / 16) { st := .flash, coded := (s.page (x.1 / 16)).coded, fine := (s.page (x.1 / 16)).fine, set := (s.page (x.1 / 16)).set }) []
  { s with
    mem := { bytes := f.dur, poison := f.durPoison, meta_ := [] }
    pages := ps
    flash := { f with runs := [], wbuf := [], fdSets := [], journal := f.journal.filter (fun x => x.st = 2), staged := [], stageReq := []
                      evictWait := [], scanning := false, setsLeft := [], rereads := [] } }

/-! Committing a batch with its journal records (R141, R142). -/

/-- Journal record of one committed update. -/
def State.journalUpdate (s : State) (u : Update) (eff : Nat) : State :=
  let l := (s.part u.coll u.part).cur
  let sh := (s.coll u.coll).shape
  s.journal { kind := if u.insert then 1 else 2, cbSlot := if u.insert then u.cbSlot else 0, epoch := eff, number := u.coll, part := u.part
              position := u.ordinal, step := 0, gid := u.gid
              payload := if u.insert then s.read (l.sideAddr u.sideIdx) 96 ++ s.read u.vecAddr (2 * sh.dim) else []
              seq := 0, run := 0, st := 0 }

/-- Commit the oldest batch when it is ready (R141): its effective epoch is the next one. -/
def State.commitBatch (s : State) : State :=
  let s := s.handVectors
  match s.sched.batches with
  | [] => s
  | (t, ids) :: rest =>
    if !s.batchReady ids then s
    else
      let l := s.batchJobs ids
      let eff := s.now + 1
      let s := { s with sched := { s.sched with batches := rest } }
      let s := if t < s.now then s.bump Reg.G.BATCH_LAG else s
      l.foldl (fun s x =>
        let st := chainStatus l x.2.chain
        let new := x.2.insert || ((s.part x.2.coll x.2.part).cur.tomb? x.2.ordinal).isNone
        let s := if st = .ok && new then s.journalUpdate x.2 eff else s
        (if st = .ok then (if x.2.insert then s.commitInsert x.1 x.2 eff else s.commitDelete x.1 x.2 eff) else s.failUpdate x.1 x.2 st).dropJob x.1.id) s

end Sys2Proof.Machine
end

