-- ==== Sys2Proof/Machine/Engine.lean ====
section
/-! DEFINITION. Software ENGINE commands on the matrix and vector cores (R165-R179, R187, R190-R206). -/

namespace Sys2Proof.Machine

open Sys2Proof

/-! Engine-ready tiles (R191-R193). -/

/-- Elements of a tile row, and bytes of a tile, by format code (R192). -/
def tileKc (f : Nat) : Nat := [0, 64, 128, 128, 256, 256, 512, 1024].getD f 0
def tileBytes (f : Nat) : Nat := [0, 8192, 8448, 8448, 8704, 8256, 10240, 8192].getD f 0

/-- Bits of one element. -/
def elemBits (f : Nat) : Nat := [32, 16, 8, 8, 4, 4, 2, 1].getD f 0

/-- Class of a pass on a pair of formats (R191). -/
def pairClass (a b : Nat) : Option Nat :=
  if b = 1 ∧ 1 ≤ a ∧ a ≤ 5 then some 1
  else if (a = 2 ∨ a = 3) ∧ (b = 2 ∨ b = 3) then some 2
  else if (a = 4 ∨ a = 5) ∧ (b = 4 ∨ b = 5) then some 3
  else if a = 6 ∧ b = 6 then some 4
  else if a = 7 ∧ b = 7 then some 5
  else none

/-- MX element format of a code. -/
def mxFmt (f : Nat) : FFmt := if f = 2 then e4m3 else if f = 3 then e5m2 else e2m1
def mxEmax (f : Nat) : Int := if f = 2 then 8 else if f = 3 then 15 else 2

/-- Address of tile `t` of row group `g` (R193). -/
def tileAddr (f base chunks g t : Nat) : Nat := base + (g * chunks + t) * tileBytes f

/-- Raw bits of element `c` of row `r` of a tile. -/
def State.tileBits (s : State) (f ta r c : Nat) : Nat :=
  let w := elemBits f
  fieldOf (s.nat (ta + 128 * r + c * w / 8) 2) (c * w % 8) w

/-- An element before its block scale, and the scale byte; 127 where there is none. -/
def State.elem (s : State) (f ta r c : Nat) : F32 × Nat :=
  let b := s.tileBits f ta r c
  match f with
  | 1 => (BF16.wide (BitVec.ofNat 16 b), 127)
  | 2 => (F32.ofVal (e4m3.decode b), (s.byte (ta + 8192 + 4 * r + c / 32)).toNat)
  | 3 => (F32.ofVal (e5m2.decode b), (s.byte (ta + 8192 + 4 * r + c / 32)).toNat)
  | 4 => (F32.ofVal (e2m1.decode b), (s.byte (ta + 8192 + 8 * r + c / 32)).toNat)
  | 5 => (BF16.wide (BitVec.ofNat 16 (s.nat (ta + 8192 + 2 * b) 2)), 127)
  | _ => (0#32, 127)

/-- Element `k` of row `row` of an operand of `chunks` tiles a row group. -/
def State.operand (s : State) (f base chunks row k : Nat) : F32 × Nat :=
  s.elem f (tileAddr f base chunks (row / 64) (k / tileKc f)) (row % 64) (k % tileKc f)

/-- `2^k` times an exact value. -/
def scaleVal (v : FVal) (k : Int) : FVal := match v with | .fin s m e => .fin s m (e + k) | x => x

def qNaN : F32 := BitVec.ofNat 32 (fp32.nanBits false)

/-- Product of two elements, exact in FP32, times both block scales (R170, R178). -/
def mxProduct (a b : F32 × Nat) : F32 :=
  if a.2 = 0xFF ∨ b.2 = 0xFF then qNaN
  else F32.ofVal (scaleVal (a.1.val.mul (Config.nanSign a.1 b.1) b.1.val) ((a.2 : Int) - 127 + ((b.2 : Int) - 127)))

/-- An element with its scale, widened to BF16 as it is loaded (R191). -/
def widenBf16 (a : F32 × Nat) : F32 :=
  if a.2 = 0xFF then qNaN else BF16.wide (F32.toBf16 (F32.ofVal (scaleVal a.1.val ((a.2 : Int) - 127))))

/-- One product of elements in the class of its pass. -/
def classProduct (cls : Nat) (a b : F32 × Nat) : F32 :=
  if cls = 1 then F32.mul (widenBf16 a) (widenBf16 b) else mxProduct a b

/-- FP32 of an integer. -/
def F32.ofInt (i : Int) : F32 := F32.ofVal (.fin (decide (i < 0)) i.natAbs 0)

/-- A block of 32 two-bit elements (R178). -/
def State.twoBitBlock (s : State) (ta tb ra rb c : Nat) : F32 :=
  let i : Int := ((List.range 32).map (fun j => twoBitHalf (s.tileBits 6 ta ra (c + j)) * twoBitHalf (s.tileBits 6 tb rb (c + j)))).sum
  let sc (t r : Nat) : F32 := BF16.wide (BitVec.ofNat 16 (s.nat (t + 8192 + 2 * (16 * r + c / 32)) 2))
  F32.mul (F32.mul (F32.mul (F32.ofInt i) (sc ta ra)) (sc tb rb)) 0x3E800000#32

/-- Partial accumulator of row `m` of A with row `n` of B over chunks `k0` to `k0 + kn - 1`, on top of `prev` (R178). -/
def State.accumulate (s : State) (cls aFmt bFmt a b chunks m n k0 kn : Nat) (prev : Option F32) (place : Nat) : F32 :=
  let kc := tileKc aFmt
  let bch := chunks * kc / max 1 (tileKc bFmt)
  let head := match prev with | some x => [x] | none => []
  match cls with
  | 4 =>
    f32Sum s.freshCount place (head ++ (List.range (16 * kn)).map (fun i =>
      let t := k0 + i / 16
      s.twoBitBlock (tileAddr 6 a chunks (m / 64) t) (tileAddr 6 b chunks (n / 64) t) (m % 64) (n % 64) (32 * (i % 16))))
  | 5 =>
    let same := ((List.range (kc * kn)).filter (fun i =>
      let t := k0 + i / kc
      s.tileBits 7 (tileAddr 7 a chunks (m / 64) t) (m % 64) (i % kc) = s.tileBits 7 (tileAddr 7 b chunks (n / 64) t) (n % 64) (i % kc))).length
    F32.add (prev.getD 0#32) (F32.ofInt (2 * (same : Int) - (kc * kn : Nat)))
  | _ =>
    f32Sum s.freshCount place (head ++ (List.range (kc * kn)).map (fun i =>
      let k := k0 * kc + i
      classProduct cls (s.operand aFmt a chunks m k) (s.operand bFmt b bch n k)))

/-! Output (R167, R169, R172, R174, R175, R187). -/

/-- Packed bytes of element patterns of `w` bits (R166). -/
def packBits (w : Nat) (l : List Nat) : List Byte :=
  leBytes (cdiv (l.length * w) 8) (l.zipIdx.foldl (fun a x => a + (x.1 % 2 ^ w) * 2 ^ (w * x.2)) 0)

/-- A block of 32 values of an output: element bytes, scale bytes, elements clipped, and a NaN scale. -/
def quantBlock (f : Nat) (l : List F32) : List Byte × List Byte × Nat × Bool :=
  match f with
  | 0 => (l.flatMap (fun x => leBytes 4 x.toNat), [], 0, false)
  | 1 => (l.flatMap (fun x => leBytes 2 x.toBf16.toNat), [], 0, false)
  | 6 => let q := twoBitQuantize l; (packBits 2 q.2.1, leBytes 2 q.1.toNat, 0, q.2.2)
  | 7 => (packBits 1 (l.map (fun x => b2n (F32.le 0#32 x))), [], 0, false)
  | _ => let q := mxQuantize (mxFmt f) (mxEmax f) l; (packBits (elemBits f) q.elems, leBytes 1 q.scale, q.clipped, q.nonfinite)

/-- Where a block of scales of a tile's row lies past the elements (R192). -/
def scaleOff (f r b : Nat) : Nat := if f = 4 then 8192 + 8 * r + b else if f = 6 then 8192 + 2 * (16 * r + b) else 8192 + 4 * r + b

/-- Write 32 values at (row, col) of an output of `rowLen` columns; counts blocks over CLIP_LIMIT and with NaN scales. -/
def State.outBlock (s : State) (f : Nat) (tiled : Bool) (base rowLen row col dom : Nat) (l : List F32) : State × Nat × Nat :=
  let q := quantBlock f l
  let s :=
    if tiled && decide (f ≠ 0) then
      let ta := tileAddr f base (rowLen / max 1 (tileKc f)) (row / 64) (col / max 1 (tileKc f))
      let c := col % max 1 (tileKc f)
      let s := s.store (ta + 128 * (row % 64) + c * elemBits f / 8) q.1 dom
      if q.2.1 = [] then s else s.store (ta + scaleOff f (row % 64) (c / 32)) q.2.1 dom
    else s.store (base + (row * rowLen + col) * (elemBits f / 8)) q.1 dom
  let clip := s.overClip q.2.2.1 32
  let s := if clip then s.bump Reg.G.MX_CLIP_BLOCKS else s
  let s := if q.2.2.2 then s.bump Reg.G.NONFINITE_BLOCKS else s
  (s, b2n clip, b2n q.2.2.2)

/-- Bytes of an output of `rows` rows of `rowLen` values. -/
def outBytes (f : Nat) (tiled : Bool) (rows rowLen : Nat) : Nat :=
  if tiled && decide (f ≠ 0) then cdiv rows 64 * (rowLen / max 1 (tileKc f)) * tileBytes f else rows * rowLen * elemBits f / 8

/-! Vector operations (R194). -/

/-- Larger of two, NaN winning; equal zeros keep the first. -/
def maxNaN (x y : F32) : F32 := if x.isNan then x else if y.isNan then y else if F32.lt x y then y else x

/-- ReLU: the zero that was input, a NaN for a NaN (R194). -/
def relu (x : F32) : F32 := if x.isNan then x else if F32.lt x 0#32 then 0#32 else x

def clampF (lo hi x : F32) : F32 := if x.isNan then x else if F32.lt x lo then lo else if F32.lt hi x then hi else x

/-- An element-wise operation on A, B with the command's scale and bounds. -/
def vopMap (e : EngineCmd) (a b : F32) : F32 :=
  match e.vop with
  | 0 => a
  | 1 => F32.add a b
  | 2 => F32.mul a b
  | 3 => F32.fma a e.scale b
  | 4 => relu a
  | 5 => clampF e.lo e.hi a
  | 9 => if a.isNan then a else a.recip
  | v => F32.real v a

/-- A row reduction; equal zeros of either sign leave the choice free (R194). -/
def vopRow (seed place vop : Nat) (l : List F32) : F32 :=
  match vop with
  | 0x10 => f32Sum seed place l
  | 0x12 => f32Sum seed place (l.map (fun x => F32.mul x x))
  | _ =>
    let z := l.filter (fun x => x.toNat % 2 ^ 31 = 0)
    let m := l.foldl maxNaN (l.headD 0#32)
    if m.toNat % 2 ^ 31 = 0 && z.any (fun x => x ≠ m) then z.getD (Config.sumPick seed place 0 % z.length) m else m

/-- Cycles per 64 elements (R194). -/
def vopCycles (v : Nat) : Nat := if 6 ≤ v ∧ v ≤ 9 then 2 else 1

def vopTwo (v : Nat) : Bool := v == 1 || v == 2 || v == 3

/-- One input array in FP32 or BF16. -/
def State.vecIn (s : State) (f a i : Nat) : F32 :=
  if f = 0 then BitVec.ofNat 32 (s.nat (a + 4 * i) 4) else BF16.wide (BitVec.ofNat 16 (s.nat (a + 2 * i) 2))

/-! Descriptors and checks (R196, R198). -/

structure EngineDesc where
  e : EngineCmd
  tag : Nat
  reservedOk : Bool
  deriving DecidableEq, Repr

def parseEngine (ws : List Nat) : EngineDesc :=
  let w (i : Nat) := ws.getD i 0
  let bf (v : Nat) : F32 := BF16.wide (BitVec.ofNat 16 v)
  let kind := fieldOf (w 0) 8 4
  { tag := w 1
    reservedOk := reservedZero ws [0xFF3FFFFFFF, 2 ^ 64 - 1, 2 ^ 52 - 1, 2 ^ 52 - 1, 2 ^ 52 - 1,
      if kind = 1 then 0x1FFFF0FFF07FF else 0xFFFFFFFFFFFF, 2 ^ 52 - 1, 2 ^ 64 - 1]
    e := { kind := kind, aFmt := fieldOf (w 0) 12 4, bFmt := fieldOf (w 0) 16 4, outFmt := fieldOf (w 0) 20 4, tiled := bitOf (w 0) 24
           accum := bitOf (w 0) 25, bias := bitOf (w 0) 26, act := fieldOf (w 0) 27 2, link := bitOf (w 0) 29, vop := fieldOf (w 0) 32 8
           a := fieldOf (w 2) 0 52, b := fieldOf (w 3) 0 52, out := fieldOf (w 4) 0 52, groups := fieldOf (w 5) 0 11, chunks := fieldOf (w 5) 16 12
           n := fieldOf (w 5) 32 17, elements := fieldOf (w 5) 0 32, rowLen := fieldOf (w 5) 32 16, biasAddr := fieldOf (w 6) 0 52
           scale := BitVec.ofNat 32 (fieldOf (w 7) 0 32), lo := bf (fieldOf (w 7) 32 16), hi := bf (fieldOf (w 7) 48 16) } }

/-- Elements along K. -/
def EngineCmd.k (e : EngineCmd) : Nat := e.chunks * tileKc e.aFmt
def EngineCmd.m (e : EngineCmd) : Nat := 64 * e.groups
def EngineCmd.bChunks (e : EngineCmd) : Nat := e.k / max 1 (tileKc e.bFmt)

/-- Row length of the output: M for a GEMM; for a map the tile's row where it is tiled (log entry 25). -/
def EngineCmd.outRow (e : EngineCmd) : Nat :=
  if e.kind = 1 then e.m else if e.tiled && decide (e.outFmt ≠ 0) then max 32 (tileKc e.outFmt) else 32

/-- Byte ranges read and written: A, B, bias where used, and the output. -/
def EngineCmd.reads (e : EngineCmd) : List (Nat × Nat) :=
  if e.kind = 1 then
    [(e.a, e.groups * e.chunks * tileBytes e.aFmt), (e.b, cdiv e.n 64 * e.bChunks * tileBytes e.bFmt)] ++
    (if e.bias then [(e.biasAddr, 2 * e.m)] else []) ++ (if e.accum then [(e.out, 4 * e.n * e.m)] else [])
  else
    (e.a, e.elements * (elemBits e.aFmt / 8)) :: (if vopTwo e.vop then [(e.b, e.elements * (elemBits e.bFmt / 8))] else [])

def EngineCmd.writes (e : EngineCmd) : Nat × Nat :=
  if e.kind = 1 then (e.out, outBytes e.outFmt e.tiled e.n e.m)
  else if e.kind = 9 then (e.out, 4 * (e.elements / max 1 e.rowLen))
  else (e.out, outBytes e.outFmt e.tiled (e.elements / max 1 e.outRow) e.outRow)

/-- Rows of a block, and cost of a GEMM slice (R202, R203). -/
def EngineCmd.blockRows (e : EngineCmd) (row0 : Nat) : Nat := min 1024 (e.n - row0)

def EngineCmd.gemmCost (e : EngineCmd) (rows k0 kn : Nat) : Nat :=
  let last := decide (k0 + kn = e.chunks)
  let mem := kn * (tileBytes e.aFmt + rows * tileBytes e.bFmt / 64 * (tileKc e.aFmt / max 1 (tileKc e.bFmt))) + (if k0 = 0 then 0 else 256 * rows) +
    (if last then 64 * rows * elemBits e.outFmt / 8 + (if e.accum then 256 * rows else 0) else 256 * rows)
  128 + max (kn * rows * (tileKc e.aFmt / max 1 (tileKc e.bFmt))) (cdiv mem 512)

def EngineCmd.vecCost (e : EngineCmd) (n : Nat) : Nat :=
  let w (f : Nat) := elemBits f / 8
  let mem := if e.kind = 9 then 64 * n * w e.aFmt + 4 * (64 * n / max 1 e.rowLen)
    else 64 * n * (w e.aFmt + (if vopTwo e.vop then w e.bFmt else 0)) + 64 * n * elemBits e.outFmt / 8
  64 + max (n * vopCycles e.vop) (cdiv mem 128)

/-- K cuts are possible (R208). -/
def State.spillOn (s : State) : Bool := decide (s.fld Reg.G.ACC_SPILL_MB ≠ 0)

def State.engineNeeds (s : State) (e : EngineCmd) : List (Engine × Nat) :=
  if e.kind = 1 then [(.matrix, e.gemmCost (e.blockRows 0) 0 (if s.spillOn then 1 else e.chunks))]
  else [(.vector, e.vecCost (if e.kind = 9 then e.rowLen / 64 else 1))]

def State.engineChecks (s : State) (d : Nat) (x : EngineDesc) : List (Bool × Status) :=
  let e := x.e
  let gemm := decide (e.kind = 1)
  [
    ((e.writes :: e.reads).all (fun r => s.inDomain d r.1 (max 1 r.2)), .domainFault),
    ((gemm || decide (e.kind = 8) || decide (e.kind = 9)) && x.reservedOk &&
      (gemm || (if e.kind = 9 then decide (0x10 ≤ e.vop) && decide (e.vop ≤ 0x12) else decide (e.vop ≤ 9))) &&
      (e.writes :: e.reads).all (fun r => decide (r.1 % 64 = 0)), .refused),
    (if gemm then (pairClass e.aFmt e.bFmt).isSome else decide (e.aFmt ≤ 1) && (!vopTwo e.vop || decide (e.bFmt ≤ 1)), .refused),
    (decide (e.outFmt ≤ 1) || (e.tiled && decide (e.outFmt < 8) && decide (e.outFmt ≠ 5)), .refused),
    (if gemm then
       decide (1 ≤ e.groups) && decide (e.groups ≤ 1024) && decide (1 ≤ e.chunks) && decide (1 ≤ e.n) && decide (e.n ≤ 65536) &&
       (!e.tiled || decide (e.outFmt = 0) || decide (e.m % max 1 (tileKc e.outFmt) = 0)) &&
       (!e.accum || (decide (e.outFmt = 0) && !e.bias && decide (e.act = 0)))
     else
       decide (e.elements % 64 = 0) && decide (64 ≤ e.elements) && decide (e.elements ≤ 2 ^ 31 - 64) &&
       (decide (e.kind = 8) || (decide (e.rowLen % 64 = 0) && decide (64 ≤ e.rowLen) && decide (e.rowLen ≤ 32768) && decide (e.elements % max 1 e.rowLen = 0))), .refused),
    (!s.anyUnfit d (s.engineNeeds e), .refused)]

/-- Status of the first check that fails. -/
def State.engineFail (s : State) (d : Nat) (x : EngineDesc) : Option Status := firstFail (s.engineChecks d x)

/-! Taking a chain (R196, R198, R199). -/

/-- The engine record (R201). -/
def engineWords (tag : Nat) (st : Status) (e : EngineCmd) (epoch stitches : Nat) : List Nat :=
  [tag, st.code + e.clipped % 2 ^ 32 * 2 ^ 32, e.nonfinite % 2 ^ 32, epoch, stitches]

/-- LINK chain at the head whose members carry one opcode: its length and soundness; `none` while its end is not
visible. -/
def State.linkChain (s : State) (d r opcode bit : Nat) : Nat → Nat → Option (Nat × Bool)
  | 0, _ => none
  | fuel + 1, i =>
    if s.visibleCount d r ≤ i then none
    else
      let w := s.w64 (s.slotAddr d r i)
      if s.poisoned (s.slotAddr d r i) 64 || decide (fieldOf w 0 8 ≠ opcode) then some (i, false)
      else if bitOf w bit then s.linkChain d r opcode bit fuel (i + 1)
      else some (i + 1, true)

/-- Take the ENGINE chain at the head of a ring: the first failing check is every member's status (R198). -/
def State.takeEngine (s : State) (d r : Nat) : Option State :=
  match s.linkChain d r 0x30 29 (s.visibleCount d r + 1) 0 with
  | none => none
  | some (n, sound) =>
    if s.compRoom d r < n then none
    else
      let xs := (List.range n).map (fun i => parseEngine (s.words8 (s.slotAddr d r i)))
      let bad := if sound then none else some Status.refused
      let fail := if s.flag Reg.G.USER_ENGINE_EN then (xs.filterMap (fun x => s.engineFail d x)).head?.or bad else some .refused
      let chain := s.sched.nextJob
      let s0 := s
      some (xs.foldl (fun s x =>
        let s := s.takeHead d r 1
        match fail with
        | some st =>
          let s := if s0.flag Reg.G.USER_ENGINE_EN && failsAtLast (s0.engineChecks d x) 0 then s.countShareRefused d (s0.engineNeeds x.e) else s
          (s.countEnd d x.tag st).postRecord d r st (engineWords x.tag st {} s.now 0)
        | none => (s.addJob d r 0x30 x.tag (.engine { x.e with chain := chain })).1) s)

def State.engine? (s : State) (id : Nat) : Option (Job × EngineCmd) :=
  match s.job? id with
  | some j => match j.work with
    | .engine e => if j.doom = none then some (j, e) else none
    | _ => none
  | none => none

def State.chainJobs (s : State) (chain : Nat) : List (Job × EngineCmd) :=
  s.sched.jobs.filterMap (fun j => match j.work with | .engine e => if e.chain = chain then some (j, e) else none | _ => none)

/-- Write the completions of a chain's first members that have ended (R199, R373). -/
def State.postChain (s : State) : List (Job × EngineCmd) → State
  | [] => s
  | (j, e) :: t =>
    match e.ended with
    | some st =>
      let s := s.countEnd j.dom j.tag st
      ((s.postRecord j.dom j.ring st (engineWords j.tag st e j.epoch (s.stitches j.epoch))).dropJob j.id).postChain t
    | none => s

/-- End a command: it and, unless it ended OK, every later command of its chain (R198, R200). -/
def State.endEngine (s : State) (j : Job) (e : EngineCmd) (st : Status) : State :=
  let s := (s.chainJobs e.chain).foldl (fun s x =>
    if decide (x.1.id = j.id) || (decide (st ≠ .ok) && decide (j.id < x.1.id) && decide (x.2.ended = none)) then
      s.putJob { x.1 with work := .engine { x.2 with ended := some st, spills := [] } }
    else s) s
  s.postChain (s.chainJobs e.chain)

/-! Slices (R202, R203, R206). -/

def overlaps (x y : Nat × Nat) : Bool := decide (x.1 < y.1 + y.2) && decide (y.1 < x.1 + x.2)

/-- Earlier commands of the chain whose output this one touches have ended (R199). -/
def State.chainClear (s : State) (j : Job) (e : EngineCmd) : Bool :=
  (s.chainJobs e.chain).all (fun x => decide (j.id ≤ x.1.id) || x.2.ended.isSome || !(e.writes :: e.reads).any (overlaps x.2.writes))

/-- Spill pool in use (R203). -/
def State.spillUsed (s : State) : Nat :=
  (s.sched.jobs.map (fun j => match j.work with
    | .engine e => (e.spills.map (fun x => 256 * x.acc.length)).sum
    | .attend a => ((a.proj.filter (fun x => decide (x.chunks * tileKc a.seq.weightFmt < a.seq.hidden))).map (fun x => 256 * x.acc.length)).sum
    | _ => 0)).sum

def State.spillRoom (s : State) (rows : Nat) : Bool := decide (s.spillUsed + 256 * rows ≤ s.fld Reg.G.ACC_SPILL_MB * 0x100000)

/-- Cost of an engine slice, where the slice is one that the scheduler may run now. -/
def State.engineCost (s : State) : SliceKind → Option Nat
  | .gemm id g row0 rows k0 kn =>
    match s.engine? id with
    | some (j, e) =>
      let at_ := ((e.spills.find? (fun x => decide (x.group = g) && decide (x.row0 = row0))).map (fun x => x.chunks)).getD 0
      let whole := e.gemmCost rows 0 e.chunks
      let cut := decide (kn < e.chunks)
      if decide (e.kind = 1) && decide (g < e.groups) && decide (row0 % 1024 = 0) && decide (row0 < e.n) && decide (rows = e.blockRows row0) &&
          decide (k0 = at_) && decide (1 ≤ kn) && decide (k0 + kn ≤ e.chunks) && !e.done.contains (g, row0) && s.chainClear j e &&
          !s.sched.slices.any (fun x => match x.kind with | .gemm i g' r' .. => decide (i = id) && decide (g' = g) && decide (r' = row0) | _ => false) &&
          (!cut || (s.spillOn && decide (s.budget j.dom .matrix < whole) && (decide (k0 + kn = e.chunks) || decide (k0 ≠ 0) || s.spillRoom rows))) then
        some (e.gemmCost rows k0 kn)
      else none
    | none => none
  | .vectorOp id lo n =>
    match s.engine? id with
    | some (j, e) =>
      let units := e.elements / 64
      let run := s.sched.slices.filterMap (fun x => match x.kind with | .vectorOp i l m => if i = id then some (l, m) else none | _ => none)
      let aligned := decide (e.kind = 8) || (decide (64 * lo % max 1 e.rowLen = 0) && decide (64 * n % max 1 e.rowLen = 0))
      let group := decide (e.kind = 9) || (decide (64 * lo % max 1 e.outRow = 0) && (decide (64 * n % max 1 e.outRow = 0) || decide (lo + n = units)))
      if decide (e.kind ≠ 1) && decide (1 ≤ n) && decide (lo + n ≤ units) && aligned && group && s.chainClear j e &&
          !(e.done ++ run).any (overlaps (lo, n)) then some (e.vecCost n)
      else none
    | none => none
  | _ => none

/-- Activation of a GEMM's epilogue (R197). -/
def gemmAct (e : EngineCmd) (v : F32) : F32 :=
  match e.act with
  | 0 => v
  | 1 => relu v
  | 2 => F32.real 6 v
  | _ => clampF e.lo e.hi v

/-- A GEMM slice ends: partial sums, and after the last chunk the epilogue and the output (R197, R203). -/
def State.runGemm (s : State) (core : Nat) (j : Job) (e : EngineCmd) (g row0 rows k0 kn : Nat) : State :=
  let tb := (List.range kn).any (fun i =>
    s.poisoned (tileAddr e.aFmt e.a e.chunks g (k0 + i)) (tileBytes e.aFmt))
  let r := tileKc e.aFmt / max 1 (tileKc e.bFmt)
  let pb := (List.range (cdiv rows 64)).any (fun i => s.poisoned (tileAddr e.bFmt e.b e.bChunks (row0 / 64 + i) (k0 * r)) (kn * r * tileBytes e.bFmt))
  let last := decide (k0 + kn = e.chunks)
  let pc := last && ((e.bias && s.poisoned (e.biasAddr + 128 * g) 128) || (e.accum && s.poisoned (e.out + 4 * row0 * e.m) (4 * rows * e.m)))
  let s := s.bumpBy (Reg.Core.TILES_LOADED 0 core) kn
  if tb || pb || pc then s.doomJob j.id .poisoned
  else
    let cls := (pairClass e.aFmt e.bFmt).getD 1
    let old := e.spills.find? (fun x => decide (x.group = g) && decide (x.row0 = row0))
    let acc := (List.range rows).map (fun i => (List.range 64).map (fun m =>
      s.accumulate cls e.aFmt e.bFmt e.a e.b e.chunks (64 * g + m) (row0 + i) k0 kn
        (old.map (fun x => (x.acc.getD i []).getD m 0#32)) (((g * 65536 + row0 + i) * 64 + m) * 4096 + k0)))
    let rest := e.spills.filter (fun x => !(decide (x.group = g) && decide (x.row0 = row0)))
    if !last then
      ((s.bump (Reg.Core.SPILLS 0 core)).fresh).putJob
        { j with work := .engine { e with spills := rest ++ [{ group := g, row0 := row0, chunks := k0 + kn, acc := acc }] } }
    else
      let w := (List.range rows).foldl (fun (x : State × Nat × Nat) i =>
        (List.range 2).foldl (fun (x : State × Nat × Nat) h =>
          let vals := (List.range 32).map (fun c =>
            let m := 32 * h + c
            let p := F32.mul ((acc.getD i []).getD m 0#32) e.scale
            let v := if e.accum then F32.add (BitVec.ofNat 32 (s.nat (e.out + 4 * ((row0 + i) * e.m + 64 * g + m)) 4)) p else p
            let v := if e.bias then F32.add v (BF16.wide (BitVec.ofNat 16 (s.nat (e.biasAddr + 2 * (64 * g + m)) 2))) else v
            gemmAct e v)
          let y := x.1.outBlock e.outFmt e.tiled e.out e.m (row0 + i) (64 * g + 32 * h) j.dom vals
          (y.1, x.2.1 + y.2.1, x.2.2 + y.2.2)) x) (s, 0, 0)
      let e := { e with spills := rest, done := (g, row0) :: e.done, clipped := e.clipped + w.2.1, nonfinite := e.nonfinite + w.2.2 }
      let s := (w.1.fresh).putJob { j with work := .engine e }
      if e.done.length = e.groups * cdiv e.n 1024 then s.endEngine { j with work := .engine e } e .ok else s

/-- A vector slice ends (R194, R202). -/
def State.runVector (s : State) (j : Job) (e : EngineCmd) (lo n : Nat) : State :=
  let wa := elemBits e.aFmt / 8
  let wb := elemBits e.bFmt / 8
  if s.poisoned (e.a + 64 * lo * wa) (64 * n * wa) || (vopTwo e.vop && s.poisoned (e.b + 64 * lo * wb) (64 * n * wb)) then s.doomJob j.id .poisoned
  else
    let w : State × Nat × Nat :=
      if e.kind = 9 then
        ((List.range (64 * n / max 1 e.rowLen)).foldl (fun t i =>
          let row := 64 * lo / max 1 e.rowLen + i
          let v := vopRow s.freshCount row e.vop ((List.range e.rowLen).map (fun c => s.vecIn e.aFmt e.a (row * e.rowLen + c)))
          t.store (e.out + 4 * row) (leBytes 4 v.toNat) j.dom) s, 0, 0)
      else
        (List.range (2 * n)).foldl (fun (x : State × Nat × Nat) i =>
          let k := 64 * lo + 32 * i
          let vals := (List.range 32).map (fun c => vopMap e (s.vecIn e.aFmt e.a (k + c)) (if vopTwo e.vop then s.vecIn e.bFmt e.b (k + c) else 0#32))
          let y := x.1.outBlock e.outFmt e.tiled e.out e.outRow (k / e.outRow) (k % e.outRow) j.dom vals
          (y.1, x.2.1 + y.2.1, x.2.2 + y.2.2)) (s, 0, 0)
    let e := { e with done := (lo, n) :: e.done, clipped := e.clipped + w.2.1, nonfinite := e.nonfinite + w.2.2 }
    let s := (w.1.fresh).putJob { j with work := .engine e }
    if (e.done.map (fun x => x.2)).sum = e.elements / 64 then s.endEngine { j with work := .engine e } e .ok else s

end Sys2Proof.Machine
end

