-- ==== Sys2Proof/Machine/Attention.lean ====
section
/-! DEFINITION. Attention offload (R209-R239): sequence slots, the append path, fused attention, partials and merges. -/

namespace Sys2Proof.Machine

open Sys2Proof

/-! Slots, pages and lengths (R209-R215). -/

def State.seqAddr (s : State) (n : Nat) : Nat := s.wide Reg.G.SEQ_TABLE_BASE_LO Reg.G.SEQ_TABLE_BASE_HI + 128 * n

def State.readSeq (s : State) (n : Nat) : SeqSlot :=
  let a := s.seqAddr n
  let w (i : Nat) := s.w64 (a + 8 * i)
  let z (i m : Nat) := decide (Nat.land (w i) (2 ^ 64 - 1 - m) = 0)
  { st := fieldOf (w 0) 0 2, dom := fieldOf (w 0) 2 6, qkFmt := fieldOf (w 0) 8 1, kvFmt := fieldOf (w 0) 9 1, skive := bitOf (w 0) 10
    ropeEn := bitOf (w 0) 11, appendEn := bitOf (w 0) 12, ropeSplit := bitOf (w 0) 13, d := fieldOf (w 0) 16 9, kvHeads := fieldOf (w 0) 25 7
    qGroup := fieldOf (w 0) 32 7, layers := fieldOf (w 0) 39 9, tokenBase := fieldOf (w 1) 0 40, pageTable := fieldOf (w 2) 0 52
    pageCap := fieldOf (w 3) 0 20, lenBase := fieldOf (w 4) 0 52, weights := fieldOf (w 5) 0 52, scale := BitVec.ofNat 32 (w 6)
    theta := BitVec.ofNat 32 (w 6 / 2 ^ 32), hidden := fieldOf (w 7) 0 16, ropeDims := fieldOf (w 7) 16 8, weightFmt := fieldOf (w 7) 24 4
    tailBase := fieldOf (w 8) 0 52
    reservedOk := z 0 0xFFFFFFFF3FFF && z 1 (2 ^ 40 - 1) && z 2 (2 ^ 52 - 1) && z 3 (2 ^ 20 - 1) && z 4 (2 ^ 52 - 1) && z 5 (2 ^ 52 - 1) &&
      z 7 0xFFFFFFF && z 8 (2 ^ 52 - 1) && (List.range 7).all (fun i => decide (w (9 + i) = 0)) }

/-- The slot's fields keep R210. -/
def SeqSlot.ok (x : SeqSlot) : Bool :=
  decide (x.d % 64 = 0) && decide (64 ≤ x.d) && decide (x.d ≤ 256) && (decide (x.kvFmt = 0) || decide (x.d % 128 = 0)) &&
  decide (1 ≤ x.kvHeads) && decide (x.kvHeads ≤ 64) && decide (1 ≤ x.qGroup) && decide (x.qGroup ≤ 64) && decide (1 ≤ x.layers) &&
  decide (x.layers ≤ 256) && decide (1 ≤ x.pageCap) && decide (x.hidden % 256 = 0) && decide (256 ≤ x.hidden) && decide (x.hidden ≤ 32768) &&
  decide (x.ropeDims % 2 = 0) && decide (x.ropeDims ≤ x.d) && decide (1 ≤ x.weightFmt) && decide (x.weightFmt ≤ 5) &&
  decide (x.pageTable % 64 = 0) && decide (x.lenBase % 64 = 0) && x.reservedOk && (!x.skive || decide (x.kvFmt = 0)) &&
  (decide (x.qkFmt = 0) || decide (x.kvFmt = 1))

def SeqSlot.lenAddr (x : SeqSlot) (l : Nat) : Nat := x.lenBase + 8 * l
def State.seqLen (s : State) (x : SeqSlot) (l : Nat) : Nat := fieldOf (s.w64 (x.lenAddr l)) 0 40

/-- A page-table entry (R214): the page's address where it is VALID. -/
def State.kvPage (s : State) (x : SeqSlot) (l h i : Nat) : Option Nat :=
  if x.pageCap ≤ i then none
  else
    let w := s.w64 (x.pageTable + ((l * x.kvHeads + h) * x.pageCap + i) * 8)
    if bitOf w 52 then some (fieldOf w 0 52 / 64 * 64) else none

/-- Bytes of a page's key part, value tile and page (R212). -/
def SeqSlot.keyBytes (x : SeqSlot) : Nat := if x.kvFmt = 0 then x.d / 64 * 8192 else x.d / 128 * 8448
def SeqSlot.valTile (x : SeqSlot) : Nat := if x.kvFmt = 0 then 8192 else 4224
def SeqSlot.pageBytes (x : SeqSlot) : Nat := x.keyBytes + x.d / 64 * x.valTile

/-- Value tail buffer of a layer's head (R213). -/
def SeqSlot.tail (x : SeqSlot) (l h : Nat) : Nat := x.tailBase + (l * x.kvHeads + h) * 64 * x.d

/-- 64 KB pages of tiered space that a range touches. -/
def tierPages (a n : Nat) : List Nat :=
  if tieredEnd ≤ a ∨ n = 0 then [] else (List.range ((a + n - 1) / 0x10000 - a / 0x10000 + 1)).map (fun i => a / 0x10000 + i)

/-- All of a range's tiered pages are in stack memory. -/
def State.resident (s : State) (a n : Nat) : Bool :=
  (tierPages a n).all (fun p => let g := s.page p; g.st = .resident || g.st = .writing || g.st = .unbacked)

def State.attend? (s : State) (id : Nat) : Option (Job × Attend) :=
  match s.job? id with
  | some j => match j.work with
    | .attend a => if j.doom = none then some (j, a) else none
    | _ => none
  | none => none

def State.attends (s : State) : List (Job × Attend) :=
  s.sched.jobs.filterMap (fun j => match j.work with | .attend a => some (j, a) | _ => none)

def State.merges (s : State) : List (Job × AttnMerge) :=
  s.sched.jobs.filterMap (fun j => match j.work with | .attnMerge a => some (j, a) | _ => none)

/-- Admitted commands of a slot (R217). -/
def State.slotLoad (s : State) (n : Nat) : Nat :=
  (s.attends.filter (fun x => x.2.slot = n)).length + (s.merges.filter (fun x => x.2.slot = n)).length

def State.seqState (s : State) (n : Nat) : Nat := SMap.get (fun _ => 0) s.attn.slots n

/-! Costs (R237). -/

/-- The projection as a GEMM. -/
def Attend.gemm (a : Attend) : EngineCmd :=
  { kind := 1, aFmt := a.seq.weightFmt, bFmt := 1, outFmt := 0, groups := 2 * a.seq.kvHeads * a.seq.d / 64
    chunks := a.seq.hidden / max 1 (tileKc a.seq.weightFmt), n := a.ntok }

/-- Tokens of a range of 64 (R225). -/
def Attend.rangeLen (a : Attend) (r : Nat) : Nat := min 64 (a.ntok - 64 * r)
def Attend.ranges (a : Attend) : Nat := cdiv a.ntok 64

def Attend.fusedCost (a : Attend) (range pages : Nat) : Nat :=
  let n := a.rangeLen range * a.seq.qGroup
  let kq := if a.seq.qkFmt = 0 then 64 else 128
  let c := max ((a.seq.d / kq + a.seq.d / 64) * n) ((2 + a.seq.d / 64) * n)
  256 + max (pages * c) (cdiv (pages * a.seq.pageBytes) 512)

def rowsCost (d rows : Nat) : Nat := 64 + max (rows * (d / 64 + 1)) (cdiv (rows * (8 + 4 * d)) 128)

def State.attendNeeds (s : State) (a : Attend) : List (Engine × Nat) :=
  let e := a.gemm
  (if a.append then [(.matrix, e.gemmCost a.ntok 0 (if s.spillOn then 1 else e.chunks)), (.vector, 64 + cdiv (2 * a.seq.kvHeads * a.seq.d) 32)] else []) ++
  (if a.read then [(.matrix, a.fusedCost 0 1), (.vector, rowsCost a.seq.d 1)] else [])

/-! Taking an ATTEND (R216-R219, R229, R235, R236). -/

structure AttendDesc where
  a : Attend
  tag : Nat
  reservedOk : Bool
  deriving DecidableEq, Repr

def parseAttend (ws : List Nat) : AttendDesc :=
  let w (i : Nat) := ws.getD i 0
  { tag := w 1
    reservedOk := reservedZero ws [0x3FFF01FF0FFF, 2 ^ 64 - 1, 2 ^ 52 - 1, 2 ^ 52 - 1, 2 ^ 52 - 1, 2 ^ 51 - 1, 0x1FF3FFF, 0]
    a := { append := bitOf (w 0) 8, read := bitOf (w 0) 9, causal := bitOf (w 0) 10, ret := bitOf (w 0) 11, slot := fieldOf (w 0) 16 9
           layer := fieldOf (w 0) 32 8, shard := fieldOf (w 0) 40 6, hid := fieldOf (w 2) 0 52, q := fieldOf (w 3) 0 52, out := fieldOf (w 4) 0 52
           qpos := fieldOf (w 5) 0 40, ntok := fieldOf (w 5) 40 11, mergeNode := fieldOf (w 6) 0 14, mergeSlot := fieldOf (w 6) 16 9 } }

def alignUp64 (n : Nat) : Nat := cdiv n 64 * 64

/-- Rows of a partial, its size, and the byte ranges an ATTEND uses. -/
def Attend.rowCount (a : Attend) : Nat := a.ntok * a.seq.kvHeads * a.seq.qGroup
def partialBytes (rows d : Nat) : Nat := 64 + 2 * alignUp64 (4 * rows) + alignUp64 (4 * rows * d)
def Attend.io (a : Attend) : List (Nat × Nat) :=
  (if a.append then [(a.hid, cdiv a.ntok 64 * (a.seq.hidden / 64) * 8192)] else []) ++
  (if a.read then [(a.q, a.rowCount * 2 * a.seq.d)] else []) ++
  (if a.read && !a.ret then [(a.out, partialBytes a.rowCount a.seq.d)] else [])

/-- Pages that N_TOK new tokens enter. -/
def Attend.newPages (a : Attend) (len : Nat) : List Nat :=
  (List.range ((len + a.ntok - 1) / 64 - len / 64 + 1)).map (fun i => len / 64 + i)

def State.attendChecks (s : State) (d : Nat) (x : AttendDesc) (a : Attend) : List (Bool × Status) :=
  let st := s.seqState a.slot
  let len := s.seqLen a.seq a.layer
  [
    (s.flag Reg.G.ATTN_EN, .refused),
    (decide (a.seq.dom = d) && decide (st ≠ 0) && a.io.all (fun r => s.inDomain d r.1 (max 1 r.2)), .domainFault),
    (decide (st = 2) && a.seq.ok, .refused),
    (x.reservedOk && a.io.all (fun r => decide (r.1 % 64 = 0)) && (a.append || a.read), .refused),
    (decide (a.layer < a.seq.layers) && decide (1 ≤ a.ntok) && decide (a.ntok ≤ 1024), .refused),
    (!a.append || (a.seq.appendEn && decide (a.qpos = a.seq.tokenBase + len) &&
      (a.newPages len).all (fun i => (List.range a.seq.kvHeads).all (fun h => (s.kvPage a.seq a.layer h i).isSome))), .refused),
    (!a.ret || s.crossNode, .refused),
    (!s.anyUnfit d (s.attendNeeds a), .refused)]

/-- Status of the first check that fails. -/
def State.attendFail (s : State) (d : Nat) (x : AttendDesc) (a : Attend) : Option Status := firstFail (s.attendChecks d x a)

/-- Flags and words of the attention record (R238). -/
def attnFlags (slow low appended : Bool) : Nat := b2n slow + 2 * b2n low + 4 * b2n appended
def attnWords (tag : Nat) (st : Status) (flags nonfinite epoch stitches len pread pskip empty : Nat) : List Nat :=
  [tag, st.code + flags * 2 ^ 8 + nonfinite % 2 ^ 32 * 2 ^ 32, epoch, stitches, len, pread % 2 ^ 32 + pskip % 2 ^ 32 * 2 ^ 32, empty]

/-- Ask for the pages of a later layer (R235). -/
def State.prefetchLayer (s : State) (x : SeqSlot) (l : Nat) : State :=
  let n := cdiv (s.seqLen x l) 64
  (List.range x.kvHeads).foldl (fun s h => (List.range n).foldl (fun s i =>
    match s.kvPage x l h i with
    | some p =>
      if s.resident p x.pageBytes then s
      else (tierPages p x.pageBytes).foldl State.fetchPage (s.bump Reg.G.PREFETCH_ISSUED)
    | none => s) s) s

def State.attnPrefetch (s : State) (x : SeqSlot) (l : Nat) : State :=
  if x.layers = 0 then s else (s.prefetchLayer x ((l + 1) % x.layers)).prefetchLayer x ((l + 2) % x.layers)

/-- KV pages a command reads or writes (R229). -/
def State.attendPages (s : State) (a : Attend) : List Nat :=
  let len := s.seqLen a.seq a.layer
  let last := if a.append then len + a.ntok else len
  let idx := (if a.read then List.range (cdiv last 64) else []) ++ (if a.append then a.newPages len else [])
  (List.range a.seq.kvHeads).flatMap (fun h => idx.filterMap (fun i => s.kvPage a.seq a.layer h i))

/-- Pin an admitted command's pages and fetch those in flash (R229, R236). -/
def State.pinAttend (s : State) (a : Attend) : State × Attend :=
  let ps := s.attendPages a
  let late := ps.filter (fun p => !s.resident p a.seq.pageBytes)
  let tp := (ps.flatMap (fun p => tierPages p a.seq.pageBytes)).foldl insNat []
  let s := late.foldl (fun s p => (tierPages p a.seq.pageBytes).foldl State.fetchPage (s.bump Reg.G.PREFETCH_LATE)) s
  (s, { a with pages := tp, slow := decide (late ≠ []) })

/-- Take an ATTEND: a ninth command of a slot stays on its ring. -/
def State.takeAttend (s : State) (d r : Nat) : Option State :=
  let x := parseAttend (s.words8 (s.headAddr d r))
  let a : Attend := { x.a with seq := s.readSeq x.a.slot }
  let fail := s.attendFail d x a
  if fail = none && decide (8 ≤ s.slotLoad a.slot) then none
  else
    let s := s.takeHead d r 1
    match fail with
    | some st =>
      let s := if s.flag Reg.G.ATTN_EN && decide (a.seq.dom = d) && decide (s.seqState a.slot ≠ 0) && !a.seq.ok then s.accessErr else s
      let s := (if failsAtLast (s.attendChecks d x a) 0 then s.countShareRefused d (s.attendNeeds a) else s).countEnd d x.tag st
      some (s.postRecord d r st (attnWords x.tag st 0 0 s.now 0 (s.seqLen a.seq a.layer) 0 0 0))
    | none =>
      let s := s.attnPrefetch a.seq a.layer
      let y := s.pinAttend a
      some ((y.1.addJob d r 0x20 x.tag (.attend y.2)).1)

/-- Complete an ATTEND (R227, R238): for a status other than OK a returned partial carries its header alone. -/
def Attend.msg (a : Attend) (src epoch : Nat) (st : Status) (flags : Nat) : AttnMsg :=
  { status := st.code + 256 * flags, slot := a.slot, layer := a.layer, shard := a.shard, src := src, qpos := a.qpos, ntok := a.ntok, epoch := epoch
    m := if st = .ok then a.rows.map (fun x => x.m) else [], l := if st = .ok then a.rows.map (fun x => x.l) else []
    o := if st = .ok then a.rows.map (fun x => x.o) else [] }

/-- A partial reaches its merge, or is discarded (R231, R234). -/
def State.mergePartial (s : State) (slot : Nat) (m : AttnMsg) : State :=
  match s.merges.find? (fun x => decide (x.2.slot = slot) && decide (x.2.layer = m.layer) && decide (x.2.qpos = m.qpos) && decide (m.shard < x.2.shards)) with
  | none => s.bump Reg.G.MERGE_ORPHAN
  | some (j, a) =>
    if a.parts.any (fun p => p.shard = m.shard) then s.bump Reg.G.MERGE_DUP
    else
      let s := s.putJob { j with work := .attnMerge { a with parts := a.parts ++ [m] } }
      match Status.ofCode (m.status % 256) with
      | some .ok => s
      | some st => s.doomJob j.id st
      | none => s.doomJob j.id .aborted

def State.sendPartial (s : State) (a : Attend) (m : AttnMsg) : State :=
  if a.mergeNode = s.fld Reg.G.NODE_ADDR then s.mergePartial a.mergeSlot m else s.send a.mergeNode 7 (.attn a.mergeSlot m)

/-- Bytes of a partial (R227). -/
def partialImage (m : AttnMsg) : List Byte :=
  let pad (l : List Byte) : List Byte := l ++ List.replicate (alignUp64 l.length - l.length) 0#8
  leBytes 8 m.status ++ leBytes 8 (m.slot + m.layer * 2 ^ 9 + m.shard * 2 ^ 17 + m.src * 2 ^ 23) ++ leBytes 8 (m.qpos + m.ntok * 2 ^ 40) ++
  leBytes 8 m.epoch ++ List.replicate 32 0#8 ++ pad (m.m.flatMap (fun x => leBytes 4 x.toNat)) ++ pad (m.l.flatMap (fun x => leBytes 4 x.toNat)) ++
  pad (m.o.flatMap (fun r => r.flatMap (fun x => leBytes 4 x.toNat)))

/-- The entry after the tail page of some head is not VALID (R238). -/
def State.pageLow (s : State) (a : Attend) : Bool :=
  let n := cdiv (s.seqLen a.seq a.layer) 64
  (List.range a.seq.kvHeads).any (fun h => (s.kvPage a.seq a.layer h n).isNone)

def State.endAttend (s : State) (j : Job) (a : Attend) (st : Status) : State :=
  let flags := attnFlags a.slow (s.pageLow a) a.appended
  let s := s.countEnd j.dom j.tag st
  let s := if a.read then
      let m := a.msg (s.fld Reg.G.NODE_ADDR) j.epoch st flags
      if a.ret then s.sendPartial a m else if st = .ok then s.store a.out (partialImage m) j.dom else s
    else s
  (s.postRecord j.dom j.ring st (attnWords j.tag st flags a.nonfinite j.epoch (s.stitches j.epoch) (s.seqLen a.seq a.layer) a.pagesRead a.skipped 0)).dropJob j.id

/-! The append path (R220-R223). -/

def State.putAttend (s : State) (j : Job) (a : Attend) : State := s.putJob { j with work := .attend a }

/-- Earlier commands of the same slot and layer have completed (R219). -/
def State.attendTurn (s : State) (j : Job) (a : Attend) : Bool :=
  s.attends.all (fun x => decide (j.id ≤ x.1.id) || decide (x.2.slot ≠ a.slot) || decide (x.2.layer ≠ a.layer))

/-- Weight operand of a projection group: keys first, then values. -/
def State.weightOf (s : State) (a : Attend) (g : Nat) : Nat × Nat :=
  let half := a.seq.kvHeads * a.seq.d / 64
  let w := a.seq.weights + 64 * a.layer
  if g < half then (fieldOf (s.w64 w) 0 52, g) else (fieldOf (s.w64 (w + 8)) 0 52, g - half)

def State.runProject (s : State) (core : Nat) (j : Job) (a : Attend) (g k0 kn : Nat) : State :=
  let e := a.gemm
  let w := s.weightOf a g
  let r := tileKc e.aFmt / 64
  let bch := a.seq.hidden / 64
  let bad := s.poisoned (tileAddr e.aFmt w.1 e.chunks w.2 k0) (kn * tileBytes e.aFmt) ||
    (List.range (cdiv a.ntok 64)).any (fun i => s.poisoned (tileAddr 1 a.hid bch i (k0 * r)) (kn * r * 8192))
  let s := s.bumpBy (Reg.Core.TILES_LOADED 0 core) kn
  if bad then s.doomJob j.id .poisoned
  else
    let old := a.proj.find? (fun x => x.group = g)
    let acc := (List.range a.ntok).map (fun t => (List.range 64).map (fun m =>
      s.accumulate 1 e.aFmt 1 w.1 a.hid e.chunks (64 * w.2 + m) t k0 kn (old.map (fun x => (x.acc.getD t []).getD m 0#32)) (((g * 1024 + t) * 64 + m) * 4096 + k0)))
    let s := if k0 + kn < e.chunks then s.bump (Reg.Core.SPILLS 0 core) else s
    s.fresh.putAttend j { a with proj := a.proj.filter (fun x => x.group ≠ g) ++ [{ group := g, row0 := 0, chunks := k0 + kn, acc := acc }] }

/-- A projected key or value row of one head. -/
def Attend.projected (a : Attend) (value : Bool) (t h : Nat) : List F32 :=
  let half := a.seq.kvHeads * a.seq.d / 64
  (List.range a.seq.d).map (fun i =>
    let g := (h * a.seq.d + i) / 64 + (if value then half else 0)
    ((((a.proj.find? (fun x => x.group = g)).map (fun x => x.acc)).getD []).getD t []).getD ((h * a.seq.d + i) % 64) 0#32)

/-- Rotate a key at its position (R221). -/
def rotate (x : SeqSlot) (pos : Nat) (k : List F32) : List F32 :=
  let n := if x.ropeDims = 0 then x.d else x.ropeDims
  let at_ (i : Nat) : F32 := k.getD i 0#32
  (List.range k.length).map (fun i =>
    if n ≤ i then at_ i
    else
      let p := if x.ropeSplit then i % (n / 2) else i / 2
      let ia := if x.ropeSplit then p else 2 * p
      let ib := if x.ropeSplit then p + n / 2 else 2 * p + 1
      let c := Config.rotaryCos pos (p * 512 + n) x.theta
      let sn := Config.rotarySin pos (p * 512 + n) x.theta
      if i = ia then F32.sub (F32.mul (at_ ia) c) (F32.mul (at_ ib) sn) else F32.add (F32.mul (at_ ia) sn) (F32.mul (at_ ib) c))

/-- Count an MX block written into a page (R187). -/
def State.countMx (s : State) (q : MxBlock) : State :=
  let s := if s.overClip q.clipped 32 then s.bump Reg.G.MX_CLIP_BLOCKS else s
  if q.nonfinite then s.bump Reg.G.NONFINITE_BLOCKS else s

/-- Write one key row into its token slot (R212, R222). -/
def State.writeKey (s : State) (x : SeqSlot) (page slot dom : Nat) (k : List F32) : State :=
  if x.kvFmt = 0 then
    (List.range (x.d / 64)).foldl (fun s t =>
      s.store (page + 8192 * t + 128 * slot) (((k.drop (64 * t)).take 64).flatMap (fun v => leBytes 2 v.toBf16.toNat)) dom) s
  else
    (List.range (x.d / 32)).foldl (fun s b =>
      let q := mxQuantize e4m3 8 ((k.drop (32 * b)).take 32)
      let ta := page + 8448 * (b / 4)
      let s := s.store (ta + 128 * slot + 32 * (b % 4)) (packBits 8 q.elems) dom
      (s.store (ta + 8192 + 4 * slot + b % 4) (leBytes 1 q.scale) dom).countMx q) s

/-- Quantize the 32 tokens of a value block that is complete (R213). -/
def State.closeBlock (s : State) (x : SeqSlot) (page tail blk dom : Nat) : State :=
  (List.range x.d).foldl (fun s i =>
    let q := mxQuantize e4m3 8 ((List.range 32).map (fun k => BF16.wide (BitVec.ofNat 16 (s.nat (tail + 2 * (k * x.d + i)) 2))))
    let ta := page + x.keyBytes + 4224 * (i / 64)
    let s := s.store (ta + 64 * (i % 64) + 32 * blk) (packBits 8 q.elems) dom
    (s.store (ta + 4096 + 2 * (i % 64) + blk) (leBytes 1 q.scale) dom).countMx q) s

/-- Write one value row (R212, R213): BF16 into the page, or into the tail buffer until its block is complete. -/
def State.writeValue (s : State) (x : SeqSlot) (page tail slot dom : Nat) (v : List F32) : State :=
  if x.kvFmt = 0 then
    (List.range x.d).foldl (fun s i =>
      s.store (page + x.keyBytes + 8192 * (i / 64) + 128 * (i % 64) + 2 * slot) (leBytes 2 (v.getD i 0#32).toBf16.toNat) dom) s
  else
    let s := s.store (tail + 2 * (slot % 32 * x.d)) (v.flatMap (fun y => leBytes 2 y.toBf16.toNat)) dom
    if slot % 32 = 31 then s.closeBlock x page tail (slot / 32) dom else s

/-- A rotate-and-write slice ends: tokens `lo` to `lo + n - 1`; the last one advances the length (R222, R223, R241). -/
def State.runRotate (s : State) (j : Job) (a : Attend) (lo n : Nat) : State :=
  let x := a.seq
  let len := s.seqLen x a.layer
  let s := (List.range n).foldl (fun s i =>
    let t := lo + i
    let idx := len + t
    (List.range x.kvHeads).foldl (fun s h =>
      match s.kvPage x a.layer h (idx / 64) with
      | none => s
      | some p =>
        let k := a.projected false t h
        let k := if x.ropeEn then rotate x (a.qpos + t) k else k
        let s := s.writeKey x p (idx % 64) j.dom k
        let s := s.writeValue x p (x.tail a.layer h) (idx % 64) j.dom (a.projected true t h)
        if x.skive then (tierPages p x.pageBytes).foldl (fun s q => let g := s.page q; s.setPage q { g with skv := true }) s else s) s) s
  let done := lo + n
  if done < a.ntok then s.putAttend j { a with written := done }
  else
    let s := s.store (x.lenAddr a.layer) (leBytes 8 (len + a.ntok)) j.dom
    let a := { a with written := done, appended := true, proj := [] }
    if a.read then s.putAttend j a else s.endAttend j a .ok

/-! Fused attention (R224-R228). -/

/-- A free order of `n` places (R179). -/
def freeOrder (seed place : Nat) : Nat → List Nat → List Nat
  | _, [] => []
  | 0, l => l
  | n + 1, x :: t =>
    let l := x :: t
    let i := Config.sumPick seed place n % l.length
    l.getD i 0 :: freeOrder seed place n (l.eraseIdx i)

/-- Pages of a range not skipped, counted from page 0 (R225). -/
def State.rangePages (s : State) (a : Attend) (r : Nat) : Nat :=
  let len := s.seqLen a.seq a.layer
  let lastPos := a.qpos + 64 * r + a.rangeLen r - 1
  let all := cdiv len 64
  if a.causal then (if lastPos < a.seq.tokenBase then 0 else min all ((lastPos - a.seq.tokenBase) / 64 + 1)) else all

/-- A query row as product operands (R224). -/
def State.queryRow (s : State) (a : Attend) (t h g : Nat) : List (F32 × Nat) :=
  let x := a.seq
  let q := s.bf16s (a.q + ((t * x.kvHeads + h) * x.qGroup + g) * x.d * 2) x.d
  if x.qkFmt = 0 then q.map (fun v => (v, 127))
  else (List.range x.d).map (fun i =>
    let b := mxQuantize e4m3 8 ((q.drop (i / 32 * 32)).take 32)
    (F32.ofVal (e4m3.decode (b.elems.getD (i % 32) 0)), b.scale))

/-- A key's elements. -/
def State.keyRow (s : State) (x : SeqSlot) (page k : Nat) : List (F32 × Nat) :=
  (List.range x.d).map (fun i =>
    if x.kvFmt = 0 then s.elem 1 (page + 8192 * (i / 64)) k (i % 64) else s.elem 2 (page + 8448 * (i / 128)) k (i % 128))

/-- A value element widened to BF16; the open block comes from the tail buffer (R213). -/
def State.valueElem (s : State) (x : SeqSlot) (page tail idx len i : Nat) : F32 :=
  let k := idx % 64
  if x.kvFmt = 0 then BF16.wide (BitVec.ofNat 16 (s.nat (page + x.keyBytes + 8192 * (i / 64) + 128 * (i % 64) + 2 * k) 2))
  else if len / 32 * 32 ≤ idx then BF16.wide (BitVec.ofNat 16 (s.nat (tail + 2 * (k % 32 * x.d + i)) 2))
  else
    let ta := page + x.keyBytes + 4224 * (i / 64)
    widenBf16 (F32.ofVal (e4m3.decode (s.byte (ta + 64 * (i % 64) + k)).toNat), (s.byte (ta + 4096 + 2 * (i % 64) + k / 32)).toNat)

def negInf : F32 := 0xFF800000#32
def emptyRow (d : Nat) : AttnRow := { m := negInf, l := 0#32, o := List.replicate d 0#32 }

/-- exp (R194). -/
def F32.exp (x : F32) : F32 := F32.real 8 x

/-- One page's update of a row (R226). -/
def State.attnPage (s : State) (a : Attend) (h t g i place : Nat) (acc : AttnRow) : AttnRow :=
  let x := a.seq
  match s.kvPage x a.layer h i with
  | none => acc
  | some p =>
    let len := s.seqLen x a.layer
    let q := s.queryRow a t h g
    let valid (k : Nat) : Bool := decide (64 * i + k < len) && (!a.causal || decide (x.tokenBase + 64 * i + k ≤ a.qpos + t))
    let score (k : Nat) : F32 :=
      if valid k then
        F32.mul x.scale (f32Sum s.freshCount (place * 64 + k) (List.zipWith (classProduct (if x.qkFmt = 0 then 1 else 2)) q (s.keyRow x p k)))
      else negInf
    let sc := (List.range 64).map score
    let mb := sc.foldl maxNaN negInf
    if mb = negInf then acc
    else
      let mn := maxNaN acc.m mb
      let c := if acc.m = negInf then 0#32 else F32.exp (F32.sub acc.m mn)
      let ps := sc.zipIdx.map (fun y => if valid y.2 then F32.exp (F32.sub y.1 mn) else 0#32)
      { m := mn
        l := F32.add (F32.mul acc.l c) (f32Sum s.freshCount (place * 64) ps)
        o := (List.range x.d).map (fun dim => F32.add (F32.mul (acc.o.getD dim 0#32) c)
          (f32Sum s.freshCount (place * 64 + dim) (ps.zipIdx.map (fun y =>
            F32.mul (BF16.wide y.1.toBf16) (s.valueElem x p (x.tail a.layer h) (64 * i + y.2) len dim))))) }

/-- A fused slice ends (R226, R229). -/
def State.runFused (s : State) (j : Job) (a : Attend) (h r p0 n : Nat) : State :=
  let x := a.seq
  let pages := (List.range n).map (fun i => p0 + i)
  let at_ := pages.map (fun i => s.kvPage x a.layer h i)
  let qrows := (List.range (a.rangeLen r)).map (fun i => a.q + (((64 * r + i) * x.kvHeads + h) * x.qGroup) * x.d * 2)
  let s := s.bumpBy Reg.G.ATTN_PAGES_READ n
  let a := { a with pagesRead := a.pagesRead + n }
  let s := s.putAttend j a
  if at_.any Option.isNone then s.doomJob j.id .refused
  else if (at_.filterMap id).any (fun p => s.poisoned p x.pageBytes) || qrows.any (fun q => s.poisoned q (x.qGroup * x.d * 2)) ||
      (decide (x.kvFmt = 1) && decide (s.seqLen x a.layer / 32 * 32 < 64 * (p0 + n)) && s.poisoned (x.tail a.layer h) (64 * x.d)) then s.doomJob j.id .poisoned
  else
    let rows := (List.range (a.rangeLen r)).flatMap (fun i => (List.range x.qGroup).map (fun g =>
      let place := (((h * 1024 + 64 * r + i) * 64 + g) * 2 ^ 20)
      (freeOrder s.freshCount place n pages).foldl (fun acc pg => s.attnPage a h (64 * r + i) g pg (place + pg) acc) (emptyRow x.d)))
    s.fresh.putAttend j { a with pieces := a.pieces ++ [{ head := h, range := r, page0 := p0, pages := n, rows := rows }] }

/-- The merge of (m, l, o) parts in order (R233); the sum is not divided. -/
def mergeRows (d : Nat) (ps : List AttnRow) : AttnRow :=
  match ps with
  | [p] => p
  | _ =>
    let m := (ps.map (fun p => p.m)).foldl maxNaN negInf
    if m = negInf then emptyRow d
    else
      ps.foldl (fun acc p =>
        if p.l.toNat % 2 ^ 31 = 0 then acc
        else
          let c := F32.exp (F32.sub p.m m)
          { m := m, l := F32.add acc.l (F32.mul p.l c), o := List.zipWith (fun a b => F32.add a (F32.mul b c)) acc.o p.o })
        { emptyRow d with m := m }

def AttnRow.nonfinite (r : AttnRow) : Bool :=
  !r.l.isFinite || r.o.any (fun x => !x.isFinite) || (decide (r.m ≠ negInf) && !r.m.isFinite)

/-- Pieces of a KV head's range, by first page. -/
def insPiece : List Piece → Piece → List Piece
  | [], x => [x]
  | y :: t, x => if x.page0 < y.page0 then x :: y :: t else y :: insPiece t x

def Attend.piecesOf (a : Attend) (h r : Nat) : List Piece :=
  (a.pieces.filter (fun p => decide (p.head = h) && decide (p.range = r))).foldl insPiece []

/-- Row `i` of the partial, in token-major order (R227). -/
def Attend.rowOf (a : Attend) (i : Nat) : AttnRow :=
  let per := a.seq.kvHeads * a.seq.qGroup
  let t := i / per
  let h := i % per / a.seq.qGroup
  let g := i % a.seq.qGroup
  mergeRows a.seq.d ((a.piecesOf h (t / 64)).map (fun p => p.rows.getD (t % 64 * a.seq.qGroup + g) (emptyRow a.seq.d)))

/-- Every page to be read has been read. -/
def State.readDone (s : State) (a : Attend) : Bool :=
  (List.range a.ranges).all (fun r => (List.range a.seq.kvHeads).all (fun h =>
    decide (((a.piecesOf h r).map (fun p => p.pages)).sum = s.rangePages a r)))

/-- A combine slice ends; the last one completes the command. -/
def State.runCombine (s : State) (j : Job) (a : Attend) (lo n : Nat) : State :=
  let rows := (List.range n).map (fun i => a.rowOf (lo + i))
  let a := { a with rows := a.rows ++ rows, combined := lo + n, nonfinite := a.nonfinite + (rows.filter AttnRow.nonfinite).length }
  if a.combined < a.rowCount then s.fresh.putAttend j a
  else
    let all := cdiv (s.seqLen a.seq a.layer) 64
    let sk := ((List.range a.ranges).map (fun r => a.seq.kvHeads * (all - s.rangePages a r))).sum
    (s.fresh.bumpBy Reg.G.ATTN_PAGES_SKIPPED sk).endAttend j { a with skipped := sk } .ok

/-! Merges (R231-R234). -/

structure MergeDesc where
  m : AttnMerge
  outFmt : Nat
  tag : Nat
  reservedOk : Bool
  deriving DecidableEq, Repr

def parseMerge (ws : List Nat) : MergeDesc :=
  let w (i : Nat) := ws.getD i 0
  { tag := w 1, outFmt := fieldOf (w 0) 8 4
    reservedOk := reservedZero ws [0x7FFF01FF0FFF, 2 ^ 64 - 1, 2 ^ 52 - 1, 2 ^ 51 - 1, 0, 0, 0, 0]
    m := { slot := fieldOf (w 0) 16 9, layer := fieldOf (w 0) 32 8, shards := fieldOf (w 0) 40 7, outBf16 := decide (fieldOf (w 0) 8 4 = 1)
           out := fieldOf (w 2) 0 52, qpos := fieldOf (w 3) 0 40, ntok := fieldOf (w 3) 40 11 } }

def AttnMerge.rowCount (m : AttnMerge) : Nat := m.ntok * m.rowsPerTok
def AttnMerge.poolBytes (m : AttnMerge) : Nat := m.shards * m.rowCount * (8 + 4 * m.d)

def State.mergePool (s : State) : Nat := (s.merges.map (fun x => x.2.poolBytes)).sum

def State.mergeChecks (s : State) (d : Nat) (x : MergeDesc) (m : AttnMerge) (q : SeqSlot) : List (Bool × Status) :=
  let st := s.seqState m.slot
  [
    (s.flag Reg.G.ATTN_EN, .refused),
    (decide (q.dom = d) && decide (st ≠ 0) && s.inDomain d m.out (max 1 (m.rowCount * m.d * (if m.outBf16 then 2 else 4))), .domainFault),
    (decide (st = 2) && q.ok, .refused),
    (x.reservedOk && decide (x.outFmt ≤ 1) && decide (m.out % 64 = 0), .refused),
    (decide (m.layer < q.layers) && decide (1 ≤ m.ntok) && decide (m.ntok ≤ 1024) && decide (1 ≤ m.shards) && decide (m.shards ≤ 64), .refused),
    (!s.anyUnfit d [(.vector, rowsCost m.d m.shards)], .refused)]

/-- Status of the first check that fails. -/
def State.mergeFail (s : State) (d : Nat) (x : MergeDesc) (m : AttnMerge) (q : SeqSlot) : Option Status := firstFail (s.mergeChecks d x m q)

/-- Take an ATTN_MERGE: it waits on its ring for a place in its slot or for merge pool space (R217, R232, R33). -/
def State.takeMerge (s : State) (d r : Nat) : Option State :=
  let x := parseMerge (s.words8 (s.headAddr d r))
  let q := s.readSeq x.m.slot
  let m : AttnMerge := { x.m with d := q.d, heads := q.kvHeads, rowsPerTok := q.kvHeads * q.qGroup }
  let fail := s.mergeFail d x m q
  let room := decide (s.mergePool + m.poolBytes ≤ s.fld Reg.G.ATTN_MERGE_KB * 1024)
  let since := ((s.sched.compactWait.find? (fun y => y.1 = ringKey d r)).map (fun y => y.2)).getD s.now
  let expired := !room && decide (since + s.fld Reg.G.ADMIT_WAIT_MAX ≤ s.now)
  if fail = none && (decide (8 ≤ s.slotLoad m.slot) || (!room && !expired)) then none
  else
    let s := { s with sched := { s.sched with compactWait := s.sched.compactWait.filter (fun y => y.1 ≠ ringKey d r) } }
    let s := s.takeHead d r 1
    match (if fail = none && expired then some Status.refused else fail) with
    | some st =>
      let s := if s.flag Reg.G.ATTN_EN && decide (q.dom = d) && decide (s.seqState m.slot ≠ 0) && !q.ok then s.accessErr else s
      let s := if failsAtLast (s.mergeChecks d x m q) 0 then s.countShareRefused d [(.vector, rowsCost m.d m.shards)] else s
      some ((s.countEnd d x.tag st).postRecord d r st (attnWords x.tag st 0 0 s.now 0 (s.seqLen q m.layer) 0 0 0))
    | none => some ((s.addJob d r 0x21 x.tag (.attnMerge m)).1)

def State.merge? (s : State) (id : Nat) : Option (Job × AttnMerge) :=
  match s.job? id with
  | some j => match j.work with
    | .attnMerge a => if j.doom = none then some (j, a) else none
    | _ => none
  | none => none

def State.endMerge (s : State) (j : Job) (m : AttnMerge) (st : Status) : State :=
  let s := s.countEnd j.dom j.tag st
  (s.postRecord j.dom j.ring st (attnWords j.tag st 0 0 j.epoch (s.stitches j.epoch) (s.seqLen (s.readSeq m.slot) m.layer) 0 0 m.empty)).dropJob j.id

/-- One output row of a merge: `none` where every shard's row is empty. -/
def AttnMerge.rowOut (m : AttnMerge) (i : Nat) : Option (List F32) :=
  let ps := (List.range m.shards).filterMap (fun k => (m.parts.find? (fun p => p.shard = k)).map (fun p =>
    ({ m := p.m.getD i negInf, l := p.l.getD i 0#32, o := p.o.getD i [] } : AttnRow)))
  let mx := (ps.map (fun p => p.m)).foldl maxNaN negInf
  if mx = negInf then none
  else
    let r := ps.foldl (fun (acc : AttnRow) p =>
      if p.l.toNat % 2 ^ 31 = 0 then acc
      else
        let c := F32.exp (F32.sub p.m mx)
        { m := mx, l := F32.add acc.l (F32.mul p.l c), o := List.zipWith (fun a b => F32.add a (F32.mul b c)) acc.o p.o }) { emptyRow m.d with m := mx }
    some (r.o.map (fun v => F32.div v r.l))

/-- A merge slice ends (R233). -/
def State.runMerge (s : State) (j : Job) (m : AttnMerge) (lo n : Nat) : State :=
  let w := if m.outBf16 then 2 else 4
  let r := (List.range n).foldl (fun (x : State × Nat) i =>
    let row := m.rowOut (lo + i)
    let vals := row.getD (List.replicate m.d 0#32)
    let bytes := vals.flatMap (fun v => if m.outBf16 then leBytes 2 v.toBf16.toNat else leBytes 4 v.toNat)
    (x.1.store (m.out + (lo + i) * m.d * w) bytes j.dom, x.2 + b2n row.isNone)) (s, 0)
  let m := { m with merged := lo + n, empty := m.empty + r.2 }
  let s := r.1.fresh.putJob { j with work := .attnMerge m }
  if m.merged < m.rowCount then s else s.endMerge j m .ok

/-! Slices of attention. -/

def State.attnCost (s : State) : SliceKind → Option Nat
  | .kvProject id g k0 kn =>
    match s.attend? id with
    | some (j, a) =>
      let e := a.gemm
      let at_ := ((a.proj.find? (fun x => x.group = g)).map (fun x => x.chunks)).getD 0
      let cut := decide (kn < e.chunks)
      if a.append && !a.appended && s.attendTurn j a && decide (g < e.groups) && decide (k0 = at_) && decide (1 ≤ kn) && decide (k0 + kn ≤ e.chunks) &&
          !s.sched.slices.any (fun x => match x.kind with | .kvProject i g' .. => decide (i = id) && decide (g' = g) | _ => false) &&
          (!cut || (s.spillOn && decide (s.budget j.dom .matrix < e.gemmCost a.ntok 0 e.chunks) && (decide (k0 + kn = e.chunks) || decide (k0 ≠ 0) || s.spillRoom a.ntok))) then
        some (e.gemmCost a.ntok k0 kn)
      else none
    | none => none
  | .rotateWrite id lo n =>
    match s.attend? id with
    | some (_, a) =>
      let e := a.gemm
      let units := cdiv (2 * n * a.seq.kvHeads * a.seq.d) 64
      let out := n * a.seq.kvHeads * a.seq.pageBytes / 64
      if a.append && !a.appended && decide (lo = a.written) && decide (1 ≤ n) && decide (lo + n ≤ a.ntok) &&
          (List.range e.groups).all (fun g => a.proj.any (fun x => decide (x.group = g) && decide (x.chunks = e.chunks))) &&
          !s.sched.slices.any (fun x => match x.kind with | .rotateWrite i .. => decide (i = id) | _ => false) then
        some (64 + max (2 * units) (cdiv (256 * units + out) 128))
      else none
    | none => none
  | .fused id h r p0 n =>
    match s.attend? id with
    | some (j, a) =>
      let run := s.sched.slices.filterMap (fun x => match x.kind with
        | .fused i h' r' q m => if i = id && h' = h && r' = r then some (q, m) else none
        | _ => none)
      if a.read && (!a.append || a.appended) && s.attendTurn j a && decide (h < a.seq.kvHeads) && decide (r < a.ranges) && decide (1 ≤ n) &&
          decide (p0 + n ≤ s.rangePages a r) && !(((a.piecesOf h r).map (fun p => (p.page0, p.pages))) ++ run).any (overlaps (p0, n)) then
        some (a.fusedCost r n)
      else none
    | none => none
  | .combine id lo n =>
    match s.attend? id with
    | some (j, a) =>
      let pieces := ((List.range n).map (fun i =>
        let per := a.seq.kvHeads * a.seq.qGroup
        max 1 (a.piecesOf ((lo + i) % per / a.seq.qGroup) ((lo + i) / per / 64)).length)).sum
      if a.read && (!a.append || a.appended) && s.attendTurn j a && s.readDone a && decide (lo = a.combined) && decide (1 ≤ n) && decide (lo + n ≤ a.rowCount) &&
          !s.sched.slices.any (fun x => match x.kind with | .combine i .. => decide (i = id) | _ => false) then
        some (rowsCost a.seq.d pieces)
      else none
    | none => none
  | .merge id lo n =>
    match s.merge? id with
    | some (_, m) =>
      if decide (m.parts.length = m.shards) && decide (lo = m.merged) && decide (1 ≤ n) && decide (lo + n ≤ m.rowCount) &&
          !s.sched.slices.any (fun x => match x.kind with | .merge i .. => decide (i = id) | _ => false) then
        some (rowsCost m.d (n * m.shards))
      else none
    | none => none
  | _ => none

/-- Read the slots' STATE at a boundary (R211): those whose descriptors hold some byte. -/
def State.readSlots (s : State) : State :=
  let base := s.wide Reg.G.SEQ_TABLE_BASE_LO Reg.G.SEQ_TABLE_BASE_HI
  let ns := (s.touched base 128 512).foldl insNat []
  { s with attn := { slots := ns.filterMap (fun n => let st := (s.readSeq n).st; if st = 0 then none else some (n, st)) } }

end Sys2Proof.Machine
end

