-- ==== Sys2Proof/Machine/Embed.lean ====
section
/-! DEFINITION. Embedding lookups and sparse updates (R259-R283). -/

namespace Sys2Proof.Machine

open Sys2Proof

/-! Tables, shards and owners (R259-R261, R287). -/

def State.embAddr (s : State) (t : Nat) : Nat := s.wide Reg.G.EMB_TABLE_BASE_LO Reg.G.EMB_TABLE_BASE_HI + 128 * t

def State.readEmb (s : State) (t : Nat) : EmbDesc :=
  let a := s.embAddr t
  let w (i : Nat) := s.w64 (a + 8 * i)
  let z (i m : Nat) := decide (Nat.land (w i) (2 ^ 64 - 1 - m) = 0)
  { st := fieldOf (w 0) 0 2, dom := fieldOf (w 0) 2 6, fmt := fieldOf (w 0) 8 2, opt := fieldOf (w 0) 10 2, updEn := bitOf (w 0) 12
    dim := fieldOf (w 0) 16 11, shift := fieldOf (w 0) 27 5, rowsM1 := fieldOf (w 0) 32 32, mapA := fieldOf (w 1) 0 52
    mapB := fieldOf (w 2) 0 52, rowA := fieldOf (w 3) 0 52, rowB := fieldOf (w 4) 0 52, stateBase := fieldOf (w 5) 0 52
    localShards := fieldOf (w 6) 0 16, updCap := fieldOf (w 8) 0 24, mu := BitVec.ofNat 32 (w 9), eps := BitVec.ofNat 32 (w 9 / 2 ^ 32)
    reservedOk := z 0 (2 ^ 64 - 1 - 0xE000) && z 1 (2 ^ 52 - 1) && z 2 (2 ^ 52 - 1) && z 3 (2 ^ 52 - 1) && z 4 (2 ^ 52 - 1) &&
      z 5 (2 ^ 52 - 1) && z 6 0xFFFF && z 7 (2 ^ 52 - 1) && z 8 0xFFFFFF && (List.range 6).all (fun i => decide (w (10 + i) = 0)) &&
      [1, 2, 3, 4, 5, 7].all (fun i => decide (w i % 0x10000 = 0)) }

def EmbDesc.rowBytes (d : EmbDesc) : Nat := if d.fmt = 0 then 2 * d.dim else d.dim

/-- A row region and the state rows keep the rules of K-stack tables (R287). -/
def EmbDesc.regionOk (d : EmbDesc) (base : Nat) : Bool :=
  match kwindow base with
  | none => true
  | some (k, o) =>
    [64, 128, 256, 512, 1024, 2048].contains d.rowBytes &&
    (decide (d.opt < 2) || (match kwindow d.stateBase with
      | some (k', o') => decide (k = k') && decide (o % 0x200000 = o' % 0x200000)
      | none => false))

/-- The fields keep their ranges (R259). -/
def EmbDesc.ok (d : EmbDesc) : Bool :=
  decide (d.fmt ≤ 1) && (!d.updEn || (decide (d.fmt = 0) && decide (d.opt ≠ 0))) && decide (d.dim % 64 = 0) && decide (64 ≤ d.dim) &&
  decide (d.dim ≤ 1024) && decide (16 ≤ d.shift) && decide (d.shift ≤ 24) && decide (1024 ≤ d.updCap) && d.reservedOk &&
  d.regionOk d.rowA && d.regionOk d.rowB

def tabDefault (_ : Nat) : EmbTable := {}
def State.tab (s : State) (t : Nat) : EmbTable := SMap.get tabDefault s.emb.tables t
def State.setTab (s : State) (t : Nat) (v : EmbTable) : State :=
  { s with emb := { s.emb with tables := SMap.set tabDefault s.emb.tables t v } }

/-- Domain of a table that is not ABSENT. -/
def State.tableDomain (s : State) (t : Nat) : Option Nat := if (s.tab t).st = 0 then none else some (s.tab t).dom

def EmbTable.slot (v : EmbTable) (i : Nat) : EmbSlot := if i = 0 then v.a else v.b
def EmbTable.setSlot (v : EmbTable) (i : Nat) (x : EmbSlot) : EmbTable := if i = 0 then { v with a := x } else { v with b := x }

/-- The CURRENT slot. -/
def EmbTable.cur (v : EmbTable) : Nat := if v.b.state = 2 then 1 else 0
def EmbTable.curSlot (v : EmbTable) : EmbSlot := v.slot v.cur

def State.tabOk (s : State) (t : Nat) (d : EmbDesc) : Bool :=
  d.ok && d.regionOk (s.tab t).a.row && d.regionOk (s.tab t).b.row

/-- Shard map entry (R260): owner and local shard where VALID. -/
def State.shard (s : State) (map i : Nat) : Option (Nat × Nat) :=
  let w := s.w64 (map + 8 * i)
  if bitOf w 32 then some (fieldOf w 0 14, fieldOf w 16 16) else none

def State.self (s : State) : Nat := s.fld Reg.G.NODE_ADDR

/-- Owner of a row under a map. -/
def State.ownerOf (s : State) (map shift row : Nat) : Option Nat := (s.shard map (row / 2 ^ shift)).map (fun x => x.1)

def State.owns (s : State) (map shift row : Nat) : Bool := s.ownerOf map shift row = some s.self

/-- Number of a row among this node's local rows. -/
def State.localRow (s : State) (map shift row : Nat) : Nat :=
  ((s.shard map (row / 2 ^ shift)).map (fun x => x.2)).getD 0 * 2 ^ shift + row % 2 ^ shift

/-- Address of a row in a slot of this owner, and of its state row. -/
def State.rowAddr (s : State) (sl : EmbSlot) (d : EmbDesc) (row : Nat) : Nat := sl.row + s.localRow sl.map d.shift row * d.rowBytes
def State.stateAddr (s : State) (sl : EmbSlot) (d : EmbDesc) (row : Nat) : Nat :=
  d.stateBase + s.localRow sl.map d.shift row * (2 * d.dim)

/-- Owners named in a map, this node left out. -/
def State.otherOwners (s : State) (map : Nat) (d : EmbDesc) : List Nat :=
  (((List.range (d.rowsM1 / 2 ^ d.shift + 1)).filterMap (fun i => (s.shard map i).map (fun x => x.1))).foldl insNat []).filter (· ≠ s.self)

/-- Unit of a K-stack and bank line of an address (R285, R286). -/
def nbPlace (a : Nat) : Option (Nat × Nat × Nat) :=
  (kwindow a).map (fun x =>
    let g := x.2 / 2048
    (x.1, 16 * (g % 64) + g / 64 % 16, g / 1024 * 32 + x.2 % 2048 / 64))

/-- Address of a bank line of a unit (R286). -/
def nbAddr (k u line : Nat) : Nat :=
  flashEnd + k * 0x1000000000 + (line / 32 * 1024 + u % 16 * 64 + u / 16) * 2048 + line % 32 * 64

/-- Stack number of K-stack `k` (R284). -/
def kstackOf (k : Nat) : Nat := [2, 3, 8, 9].getD k 2

/-- State of a near-bank group (R447). -/
def State.group (s : State) (k pc : Nat) : Nat := SMap.get (fun _ => 0) s.ras.groups (64 * k + pc)

/-- A unit takes no work: its pseudo-channel is retired, or its group is SUSPECT or RETIRED (R316, R447). -/
def State.pcGone (s : State) (k u : Nat) : Bool :=
  bitOf (s.wide (Reg.KS.PC_RETIRED_LO k) (Reg.KS.PC_RETIRED_HI k)) (u / 16) || decide (s.group k (u / 16) ≠ 0)

/-- The near-bank unit that serves the row at an address (R261, R300, R316, R446). -/
def State.nbUnitOf (s : State) (a : Nat) : Option (Nat × Nat × Nat) :=
  (nbPlace a).bind (fun x => if s.flag (Reg.KS.NB_EN x.1) && !s.pcGone x.1 x.2.1 && decide (s.pcRetired (kstackOf x.1) < 5) then some x else none)

/-- Little-endian FP32 elements. -/
def f32List : List Byte → List F32
  | a :: b :: c :: d :: t => BitVec.ofNat 32 (leNat [a, b, c, d]) :: f32List t
  | _ => []

/-- Elements of a row's bytes, widened exactly (R177). -/
def EmbDesc.rowVals (d : EmbDesc) (b : List Byte) : List F32 :=
  if d.fmt = 0 then bf16List b else b.map (fun x => F32.ofVal (e4m3.decode x.toNat))

/-! Jobs of the tables. -/

def State.lookup? (s : State) (id : Nat) : Option (Job × Lookup) :=
  match s.job? id with
  | some j => match j.work with
    | .lookup l => if j.doom = none then some (j, l) else none
    | _ => none
  | none => none

def State.lookups (s : State) : List (Job × Lookup) :=
  s.sched.jobs.filterMap (fun j => match j.work with | .lookup l => some (j, l) | _ => none)

def State.embShare? (s : State) (id : Nat) : Option (Job × EmbShare) :=
  match s.job? id with
  | some j => match j.work with
    | .embShare x => if j.doom = none then some (j, x) else none
    | _ => none
  | none => none

def State.embShares (s : State) : List (Job × EmbShare) :=
  s.sched.jobs.filterMap (fun j => match j.work with | .embShare x => some (j, x) | _ => none)

def State.putLookup (s : State) (j : Job) (l : Lookup) : State := s.putJob { j with work := .lookup l }
def State.putShare (s : State) (j : Job) (x : EmbShare) : State := s.putJob { j with work := .embShare x }

/-- Lookups and shares pinning a slot (R283). -/
def State.tabPins (s : State) (t slot : Nat) : Nat :=
  (s.lookups.filter (fun x => decide (x.2.table = t) && decide (x.2.slot = slot))).length +
  (s.embShares.filter (fun x => decide (x.2.table = t) && decide (x.2.slot = slot))).length

/-! Taking a LOOKUP (R262, R263). -/

structure LookupDesc where
  l : Lookup
  tag : Nat
  reservedOk : Bool
  deriving DecidableEq, Repr

def parseLookup (ws : List Nat) : LookupDesc :=
  let w (i : Nat) := ws.getD i 0
  { tag := w 1
    reservedOk := reservedZero ws [0xFF0FFF, 2 ^ 64 - 1, 2 ^ 52 - 1, 2 ^ 52 - 1, 2 ^ 52 - 1, 2 ^ 52 - 1, 0x1FFFFF0001FFFF, 0]
    l := { pool := fieldOf (w 0) 8 2, outBf16 := bitOf (w 0) 10, latestOnly := bitOf (w 0) 11, table := fieldOf (w 0) 16 8
           idx := fieldOf (w 2) 0 52, off := fieldOf (w 3) 0 52, w := fieldOf (w 4) 0 52, out := fieldOf (w 5) 0 52
           bags := fieldOf (w 6) 0 17, nidx := fieldOf (w 6) 32 21 } }

/-- Width of an output value. -/
def Lookup.outBytes (l : Lookup) : Nat := l.desc.dim * (if l.outBf16 then 2 else 4)

def Lookup.io (l : Lookup) : List (Nat × Nat) :=
  [(l.idx, 4 * l.nidx), (l.off, 4 * (l.bags + 1)), (l.out, l.bags * l.outBytes)] ++ (if l.pool = 2 then [(l.w, 4 * l.nidx)] else [])

/-- Bytes of a partial entry (R265). -/
def partEntryBytes (dim : Nat) : Nat := cdiv (16 + 4 * dim) 64 * 64

def Lookup.sortCost (l : Lookup) (idxs : Nat) : Nat := 64 + max (2 * cdiv idxs 64) (cdiv (idxs * (if l.pool = 2 then 16 else 12)) 128)
def EmbDesc.poolCost (d : EmbDesc) (items bytes : Nat) : Nat := 64 + max (items * (d.dim / 64)) (cdiv bytes 128)
def Lookup.combineCost (l : Lookup) (entries bags : Nat) : Nat :=
  64 + max (entries * (l.desc.dim / 64)) (cdiv (entries * partEntryBytes l.desc.dim + bags * l.outBytes) 128)

def Lookup.needs (l : Lookup) : List (Engine × Nat) :=
  [(.vector, l.sortCost (min 64 l.nidx)), (.vector, l.desc.poolCost 1 (l.desc.rowBytes + 8)), (.vector, l.combineCost 1 1)]

/-- Checks that every embedding command shares, up to the state of the table. -/
def State.tabChecks (s : State) (d t : Nat) (e : EmbDesc) (io : List (Nat × Nat)) : List (Bool × Status) :=
  [(s.flag Reg.G.EMB_EN, .refused),
   (s.tableDomain t = some d && io.all (fun r => s.inDomain d r.1 (max 1 r.2)), .domainFault),
   (!s.poisoned (s.embAddr t) 128 && !s.poisoned (s.tab t).curSlot.map (8 * (e.rowsM1 / 2 ^ e.shift + 1)), .poisoned),
   (decide ((s.tab t).st = 2), .refused),
   (s.tabOk t e, .refused)]

def State.lookupChecks (s : State) (d : Nat) (x : LookupDesc) (l : Lookup) : List (Bool × Status) :=
  s.tabChecks d l.table l.desc l.io ++ [
    (x.reservedOk && decide (l.pool ≤ 2) && l.io.all (fun r => decide (r.1 % 64 = 0)) && (decide (l.pool = 2) || decide (l.w % 64 = 0)) &&
      decide (1 ≤ l.bags) && decide (l.bags ≤ 65536) && decide (1 ≤ l.nidx) && decide (l.nidx ≤ 1048576), .refused),
    (decide (s.otherOwners (s.tab l.table).curSlot.map l.desc = []) || s.crossNode, .refused),
    (!s.anyUnfit d l.needs, .refused)]

/-- Status of the first check that fails. -/
def State.lookupFail (s : State) (d : Nat) (x : LookupDesc) (l : Lookup) : Option Status := firstFail (s.lookupChecks d x l)

/-- The lookup completion record (R268). -/
def lookupWords (tag : Nat) (st : Status) (l : Lookup) (epoch stitches : Nat) : List Nat :=
  [tag, st.code + b2n l.slow * 2 ^ 12, epoch, stitches + l.empty % 2 ^ 16 * 2 ^ 32, l.rows % 2 ^ 32 + l.hot % 2 ^ 32 * 2 ^ 32]

/-- Take a LOOKUP: it stays on its ring while no context is free (R82, R263). -/
def State.takeLookup (s : State) (d r : Nat) : Option State :=
  let x := parseLookup (s.words8 (s.headAddr d r))
  let v := s.tab x.l.table
  match s.freeCtx with
  | none => none
  | some c =>
    if !s.ctxOpen d then none
    else
      let l := { x.l with ctx := c, slot := v.cur, desc := s.readEmb x.l.table }
      let fail := s.lookupFail d x l
      let short := failsAtLast (s.lookupChecks d x l) 0
      let s := s.takeHead d r 1
      match fail with
      | some st =>
        let s := (if short then s.countShareRefused d l.needs else s).countEnd d x.tag st
        some (s.postRecord d r st (lookupWords x.tag st {} s.now 0))
      | none => some ((s.addJob d r 0x10 x.tag (.lookup l)).1)

/-- End a lookup (R268). -/
def State.endLookup (s : State) (j : Job) (l : Lookup) (st : Status) : State :=
  let s := (s.countEnd j.dom j.tag st).bump Reg.G.EMB_LOOKUPS
  (s.postRecord j.dom j.ring st (lookupWords j.tag st l j.epoch (s.stitches j.epoch))).dropJob j.id

/-! Shares at their owner (R264, R265, R267, R275, R279, R399). -/

inductive EmbAnswer where
  | serve | wait | lag | fail (st : Status)
  deriving DecidableEq, Repr

/-- Hot copy of a row read from a slot. -/
def EmbTable.copy (v : EmbTable) (slot row : Nat) : Option HotRow :=
  v.hot.find? (fun h => decide (h.row = row) && decide (h.slot = slot))

/-- Every row of a share lies on this node under the slot's map, or is a hot copy of the requester's own. -/
def State.holdsRows (s : State) (m : LookupReq) (slot : Nat) (d : EmbDesc) : Bool :=
  let v := s.tab m.table
  m.entries.all (fun e => s.owns (v.slot slot).map d.shift e.1 || (decide (m.requester = s.self) && (v.copy m.slot e.1).isSome))

/-- How an owner answers a share at this moment. -/
def State.embAnswer (s : State) (arrived : Nat) (m : LookupReq) : EmbAnswer :=
  let v := s.tab m.table
  let d := s.readEmb m.table
  let sl := v.slot m.slot
  if v.st = 0 then .fail .domainFault
  else if sl.state = 0 then .fail .aborted
  else if sl.state = 1 then (if arrived + 2 < s.now then .lag else .wait)
  else if !s.holdsRows m m.slot d then .fail .moved
  else if decide (sl.state = 3) && !s.holdsRows m v.cur d && decide (v.swap + 1 < arrived) then .fail .moved
  else if v.closed.any (fun x => decide (x.c ≤ m.epoch)) then .wait
  else if s.poisoned (s.embAddr m.table) 128 then .fail .poisoned
  else if s.anyUnfit v.dom [(.vector, d.poolCost 1 (d.rowBytes + 8))] then .fail .refused
  else .serve

/-- A reissued or fresh share for an owner, through the fabric or within the node. -/
def State.sendLookup (s : State) (owner : Nat) (m : LookupReq) : State :=
  if owner = s.self then { s with emb := { s.emb with wait := s.emb.wait ++ [(owner, s.now, m)] } } else s.send owner 4 (.lookup m)

def Lookup.request (l : Lookup) (s : State) (epoch : Nat) (slot : Nat) (es : List (Nat × Nat × F32)) : LookupReq :=
  { requester := s.self, context := l.ctx, epoch := epoch, table := l.table, slot := slot, weighted := decide (l.pool = 2), entries := es }

/-- Group entries by owner under a slot's map; rows with a hot copy go to this node (R264). `none` where a shard is not
VALID. -/
def State.groupRows (s : State) (l : Lookup) (slot : Nat) (es : List (Nat × Nat × F32)) : Option (List LShare) :=
  let v := s.tab l.table
  let own (e : Nat × Nat × F32) : Option Nat :=
    if (v.copy slot e.1).isSome then some s.self else s.ownerOf (v.slot slot).map l.desc.shift e.1
  let os := es.map own
  if os.any Option.isNone then none
  else
    let hs := (os.map (fun o => o.getD 0)).foldl insNat []
    some (hs.map (fun h => { owner := h, slot := slot, entries := es.filter (fun e => own e = some h), got := none }))

/-- MOVED: the share's rows go to their owners under the current map (R267). -/
def State.reissueLookup (s : State) (j : Job) (l : Lookup) (o : LShare) : State :=
  let slot := (s.tab l.table).cur
  match s.groupRows l slot o.entries with
  | none => s.doomJob j.id .aborted
  | some gs =>
    let s := s.putLookup j { l with shares := l.shares.erase o ++ gs }
    gs.foldl (fun s g => s.sendLookup g.owner (l.request s j.epoch slot g.entries)) (s.bump Reg.G.MOVED_REISSUED)

/-- A lookup partial reaches its requester (R267). -/
def State.receiveLookup (s : State) (m : LookupPart) : State :=
  match s.lookups.find? (fun x => decide (x.2.ctx = m.context) && decide (x.1.epoch = m.epoch)) with
  | none => s
  | some (j, l) =>
    match l.shares.find? (fun h => decide (h.owner = m.owner) && h.got.isNone) with
    | none => s
    | some o =>
      if m.status = Status.moved.code then s.reissueLookup j l o
      else
        let s := s.putLookup j { l with shares := l.shares.erase o ++ [{ o with got := some m }], slow := l.slow || m.slowPath }
        match Status.ofCode m.status with
        | some .ok => s
        | some st => s.doomJob j.id st
        | none => s.doomJob j.id .aborted

/-- Return a share's partial. -/
def State.returnLookup (s : State) (m : LookupReq) (st : Status) (slow : Bool) (es : List (Nat × Nat × List F32)) : State :=
  let p : LookupPart := { requester := m.requester, context := m.context, epoch := m.epoch, owner := s.self, status := st.code, slowPath := slow
                          entries := if st = .ok then es else [] }
  let s := if st = .moved then s.bump Reg.G.MOVED_SENT else s
  if m.requester = s.self then s.receiveLookup p else s.send m.requester 4 (.lookupPart p)

/-- Serve a share: its rows with their addresses, hot copies apart. -/
def State.embServe (s : State) (m : LookupReq) : State :=
  let v := s.tab m.table
  let d := s.readEmb m.table
  let sl := v.slot m.slot
  let row (e : Nat × Nat × F32) : ShareRow := { row := e.1, bag := e.2.1, weight := e.2.2, addr := s.rowAddr sl d e.1 }
  let hot (e : Nat × Nat × F32) : Option HotRow := if m.requester = s.self then v.copy m.slot e.1 else none
  let x : EmbShare := { requester := m.requester, context := m.context, table := m.table, slot := m.slot, desc := d, weighted := m.weighted
                        rows := (m.entries.filter (fun e => (hot e).isNone)).map row
                        hot := m.entries.filterMap (fun e => (hot e).map (fun h => (row e, h.data, h.poison))) }
  let r := s.addJob v.dom 8 0x10 0 (.embShare x)
  r.1.setJobs (r.1.sched.jobs.map (fun j => if j.id = r.2 then { j with epoch := m.epoch } else j))

/-- Try one waiting share. -/
def State.tryLookup (s : State) (w : Nat × Nat × LookupReq) : State :=
  let gone : State := { s with emb := { s.emb with wait := s.emb.wait.erase w } }
  match s.embAnswer w.2.1 w.2.2 with
  | .wait => s
  | .lag => (gone.setFld Reg.G.MAP_LAG 1).returnLookup w.2.2 .moved false []
  | .fail st =>
    let v := s.tab w.2.2.table
    (if st = .refused then gone.countShareRefused v.dom [(.vector, (s.readEmb w.2.2.table).poolCost 1 ((s.readEmb w.2.2.table).rowBytes + 8))]
      else gone).returnLookup w.2.2 st false []
  | .serve => gone.embServe w.2.2

def State.tryLookups (s : State) : State := s.emb.wait.foldl State.tryLookup s

/-- A share arrives (R265). -/
def State.arriveLookup (s : State) (src : Nat) (m : LookupReq) : State :=
  let w := (src, s.now, m)
  ({ s with emb := { s.emb with wait := s.emb.wait ++ [w] } }).tryLookup w

/-! Sorting (R263, R264). -/

def State.idx32 (s : State) (a n : Nat) : List Nat := (List.range n).map (fun i => s.nat (a + 4 * i) 4)

/-- Offsets start at 0, do not decrease and end at NIDX. -/
def offsetsOk (o : List Nat) (nidx : Nat) : Bool :=
  o.head? = some 0 && o.getLast? = some nidx && (List.zip o o.tail).all (fun p => decide (p.1 ≤ p.2))

/-- The last indices are sorted: the checks, then the shares leave. -/
def State.sortDone (s : State) (j : Job) (l : Lookup) : State :=
  let o := s.idx32 l.off (l.bags + 1)
  let idx := s.idx32 l.idx l.nidx
  let v := s.tab l.table
  let sl := v.slot l.slot
  if !offsetsOk o l.nidx then s.endLookup j l .refused
  else if idx.any (fun r => decide (l.desc.rowsM1 < r) || (s.ownerOf sl.map l.desc.shift r).isNone) then
    (s.bump Reg.G.BAD_INDEX).endLookup j l .refused
  else
    let es := (List.range l.bags).flatMap (fun b =>
      (List.range (o.getD (b + 1) 0 - o.getD b 0)).map (fun i =>
        let k := o.getD b 0 + i
        (idx.getD k 0, b, BitVec.ofNat 32 (if l.pool = 2 then s.nat (l.w + 4 * k) 4 else 0x3F800000))))
    match s.groupRows l l.slot es with
    | none => s.doomJob j.id .aborted
    | some gs =>
      if gs.any (fun g => s.fabric.failed.contains g.owner) then s.doomJob j.id .aborted
      else
        let hot := (es.filter (fun e => (v.copy l.slot e.1).isSome)).length
        let s := s.putLookup j { l with sent := true, shares := gs, hot := hot }
        let s := gs.foldl (fun s g => s.sendLookup g.owner (l.request s j.epoch l.slot g.entries)) s
        (s.emb.wait.filter (fun w => w.2.2.requester = s.self)).foldl State.tryLookup s

def State.runSort (s : State) (j : Job) (l : Lookup) (lo n : Nat) : State :=
  let m := min (64 * n) (l.nidx - 64 * lo)
  let l := { l with sorted := lo + n }
  let last := decide (l.nidx ≤ 64 * l.sorted)
  if s.poisoned (l.idx + 256 * lo) (4 * m) || (decide (l.pool = 2) && s.poisoned (l.w + 256 * lo) (4 * m)) ||
      (last && s.poisoned l.off (4 * (l.bags + 1))) then s.doomJob j.id .poisoned
  else if last then s.sortDone j l else s.putLookup j l

/-! Pooling on vector cores (R261, R265, R278, R301). -/

/-- What a vector core adds into a bag. -/
inductive PoolItem where
  | sum (x : SumItem)
  | row (x : ShareRow)
  | hot (x : ShareRow) (data : List Byte) (poison : Bool)
  deriving DecidableEq, Repr

/-- Rows that a vector core pools: those outside K-stacks, and those whose unit cannot (R300, R316); weighted rows too. -/
def State.onVector (s : State) (x : EmbShare) (r : ShareRow) : Bool := x.weighted || (s.nbUnitOf r.addr).isNone

def State.poolItems (s : State) (x : EmbShare) : List PoolItem :=
  x.sums.map .sum ++ (x.rows.filter (s.onVector x)).map .row ++ x.hot.map (fun h => .hot h.1 h.2.1 h.2.2)

def PoolItem.bytes (d : EmbDesc) : PoolItem → Nat
  | .sum _ => 4 * d.dim + 8
  | .row _ => d.rowBytes + 8
  | .hot .. => 0

def PoolItem.range (d : EmbDesc) : PoolItem → Nat × Nat
  | .sum _ => (0, 0)
  | .row x => (x.addr, d.rowBytes)
  | .hot .. => (0, 0)

def PoolItem.bag : PoolItem → Nat
  | .sum x => x.bag
  | .row x => x.bag
  | .hot x _ _ => x.bag

def PoolItem.count : PoolItem → Nat
  | .sum x => x.count
  | .row _ => 1
  | .hot .. => 1

/-- An item's values as added. -/
def State.itemVals (s : State) (x : EmbShare) (i : PoolItem) : List F32 :=
  let w (r : ShareRow) (l : List F32) := if x.weighted then l.map (fun v => F32.mul v r.weight) else l
  match i with
  | .sum y => (List.range (x.desc.dim / 16)).flatMap (fun i => f32List (s.read (nbAddr y.k y.u (y.line + i)) 64))
  | .row r => w r (x.desc.rowVals (s.read r.addr x.desc.rowBytes))
  | .hot r data _ => w r (x.desc.rowVals (if x.desc.updEn then s.read r.addr x.desc.rowBytes else data))

def State.itemPoison (s : State) (x : EmbShare) (i : PoolItem) : Bool :=
  match i with
  | .hot r _ p => if x.desc.updEn then s.poisoned r.addr x.desc.rowBytes else p
  | .sum y => (List.range (x.desc.dim / 16)).any (fun i => s.poisoned (nbAddr y.k y.u (y.line + i)) 64)
  | .row r => s.poisoned r.addr x.desc.rowBytes

/-- Add values to a bag's sum. -/
def addBag (seed : Nat) (acc : List (Nat × Nat × List F32)) (bag count : Nat) (vals : List (List F32)) (dim : Nat) : List (Nat × Nat × List F32) :=
  let old := acc.find? (fun e => e.1 = bag)
  let all := (old.map (fun e => e.2.2)).toList ++ vals
  let sum := (List.range dim).map (fun i => f32Sum seed (bag * 1024 + i) (all.map (fun v => v.getD i 0#32)))
  insEntry (bag, ((old.map (fun e => e.2.1)).getD 0) + count, sum) (acc.filter (fun e => e.1 ≠ bag))
where
  insEntry (e : Nat × Nat × List F32) : List (Nat × Nat × List F32) → List (Nat × Nat × List F32)
    | [] => [e]
    | y :: t => if e.1 < y.1 then e :: y :: t else y :: insEntry e t

/-- The share as its requester asked for it, for its answer. -/
def EmbShare.req (x : EmbShare) (epoch : Nat) : LookupReq :=
  { requester := x.requester, context := x.context, epoch := epoch, table := x.table, slot := x.slot, weighted := x.weighted, entries := [] }

def State.endEmbShare (s : State) (j : Job) (x : EmbShare) (st : Status) : State :=
  ((s.countEnd j.dom j.tag st).dropJob j.id).returnLookup (x.req j.epoch) st x.slow x.acc

/-- Nothing is left to pool. -/
def EmbShare.finished (x : EmbShare) : Bool := decide (x.rows = []) && decide (x.hot = []) && decide (x.sums = []) && decide (x.out = 0)

/-- A pooling slice over the next `n` items ends. -/
def State.runPooling (s : State) (j : Job) (x : EmbShare) (n : Nat) : State :=
  let is := (s.poolItems x).take n
  if is.any (s.itemPoison x) then s.doomJob j.id .poisoned
  else
    let bags := (is.map PoolItem.bag).foldl insNat []
    let acc := bags.foldl (fun acc b =>
      let mine := is.filter (fun i => i.bag = b)
      addBag s.freshCount acc b (mine.map PoolItem.count).sum (mine.map (s.itemVals x)) x.desc.dim) x.acc
    let hots := (is.filter (fun i => match i with | .hot .. => true | _ => false)).length
    let rows := is.filterMap (fun i => match i with | .row r => some r | _ => none)
    let x := { x with acc := acc, sums := x.sums.drop n, rows := rows.foldl (fun l r => l.erase r) x.rows, hot := x.hot.drop hots }
    let s := s.fresh.bumpBy Reg.G.HOT_HITS hots
    if x.finished then s.endEmbShare j x .ok else s.putShare j x

/-! Combining (R266). -/

def Lookup.parts (l : Lookup) : List LookupPart := l.shares.filterMap (fun h => h.got)

def Lookup.entriesOf (l : Lookup) (b : Nat) : List (Nat × Nat × List F32) := l.parts.flatMap (fun p => p.entries.filter (fun e => e.1 = b))

def Lookup.gathered (l : Lookup) : Bool := l.sent && l.shares.all (fun h => h.got.isSome)

/-- STALE_VERSION after the table's swap (R158, R279). -/
def State.lookupStatus (s : State) (j : Job) (l : Lookup) : Status :=
  if l.latestOnly && decide (j.epoch < (s.tab l.table).swap) then .staleVersion else .ok

/-- A combine slice over bags `lo` to `lo + n - 1` ends; the last one completes the lookup. -/
def State.runLookupCombine (s : State) (j : Job) (l : Lookup) (lo n : Nat) : State :=
  let r := (List.range n).foldl (fun (x : State × Nat × Nat) i =>
    let b := lo + i
    let es := l.entriesOf b
    let len := s.nat (l.off + 4 * b + 4) 4 - s.nat (l.off + 4 * b) 4
    let sum : List F32 := (List.range l.desc.dim).map (fun c =>
      let v := f32Sum s.freshCount (b * 1024 + c) (es.map (fun e => e.2.2.getD c 0#32))
      if es = [] then 0#32 else if l.pool = 1 then F32.div v (F32.ofNat len) else v)
    let bytes := sum.flatMap (fun v => if l.outBf16 then leBytes 2 v.toBf16.toNat else leBytes 4 v.toNat)
    (x.1.store (l.out + b * l.outBytes) bytes j.dom, x.2.1 + b2n (decide (es = [])), x.2.2 + (es.map (fun e => e.2.1)).sum)) (s, 0, 0)
  let l := { l with combined := lo + n, empty := l.empty + r.2.1, rows := l.rows + r.2.2 }
  let s := r.1.fresh
  if l.combined < l.bags then s.putLookup j l else s.endLookup j l (s.lookupStatus j l)

/-! Sparse updates (R269-R271). -/

structure EmbUpdDesc where
  fp32 : Bool
  table : Nat
  tag : Nat
  idx : Nat
  grad : Nat
  nrows : Nat
  reservedOk : Bool
  deriving DecidableEq, Repr

def parseEmbUpd (ws : List Nat) : EmbUpdDesc :=
  let w (i : Nat) := ws.getD i 0
  { fp32 := bitOf (w 0) 8, table := fieldOf (w 0) 16 8, tag := w 1, idx := fieldOf (w 2) 0 52, grad := fieldOf (w 3) 0 52
    nrows := fieldOf (w 4) 0 21
    reservedOk := reservedZero ws [0xFF01FF, 2 ^ 64 - 1, 2 ^ 52 - 1, 2 ^ 52 - 1, 2 ^ 21 - 1, 0, 0, 0] }

/-- The update completion record (R271). -/
def embUpdWords (tag : Nat) (st : Status) (step dropped epoch : Nat) : List Nat :=
  [tag, st.code + b2n (dropped ≠ 0) * 2 ^ 8, step % 2 ^ 32 + dropped % 2 ^ 32 * 2 ^ 32, epoch]

/-- Add a gradient row to its buffer entry (R270, R271): false where the step's buffer is full. -/
def State.addGradient (s : State) (t step row : Nat) (g : List F32) : State × Bool :=
  let v := s.tab t
  match v.entries.find? (fun e => decide (e.step = step) && decide (e.row = row)) with
  | some e =>
    (s.setTab t { v with entries := v.entries.map (fun x => if x = e then { e with sum := List.zipWith F32.add e.sum g } else x) }, true)
  | none =>
    let mine := (v.entries.filter (fun e => e.step = step)).length
    let others := ((v.entries.filter (fun e => e.step ≠ step)).map (fun e => e.step)).foldl insNat []
    if decide ((s.readEmb t).updCap ≤ mine) || decide (2 ≤ others.length) then
      let old := ((v.lost.find? (fun x => x.1 = step)).map (fun x => x.2)).getD 0
      ((s.setTab t { v with lost := v.lost.filter (fun x => x.1 ≠ step) ++ [(step, old + 1)] }).bump Reg.G.UPD_LOST, false)
    else (s.setTab t { v with entries := v.entries ++ [{ step := step, row := row, sum := g }] }, true)

/-- A gradient row from another node (R270): a drop is reported to the sender. -/
def State.gradientRow (s : State) (src t step row : Nat) (g : List F32) : State :=
  let v := s.tab t
  let d := s.readEmb t
  if v.st = 0 || !s.owns v.curSlot.map d.shift row then s
  else
    let r := s.addGradient t step row g
    if r.2 then r.1 else r.1.send src 3 (.drop t step row)

/-- A row of the gradient array. -/
def State.gradVals (s : State) (x : EmbUpdDesc) (dim i : Nat) : List F32 :=
  if x.fp32 then f32List (s.read (x.grad + 4 * dim * i) (4 * dim)) else bf16List (s.read (x.grad + 2 * dim * i) (2 * dim))

def State.embUpdFail (s : State) (d : Nat) (x : EmbUpdDesc) (e : EmbDesc) : Option Status :=
  let v := s.tab x.table
  let map := v.curSlot.map
  let gb := x.nrows * e.dim * (if x.fp32 then 4 else 2)
  firstFail (s.tabChecks d x.table e [(x.idx, 4 * x.nrows), (x.grad, gb)] ++ [
    (x.reservedOk && decide (x.idx % 64 = 0) && decide (x.grad % 64 = 0) && decide (1 ≤ x.nrows) && decide (x.nrows ≤ 1048576), .refused),
    (decide (s.otherOwners map e = []) || s.crossNode, .refused),
    (e.updEn && (List.range (e.rowsM1 / 2 ^ e.shift + 1)).any (fun i => (s.shard map i).any (fun y => decide (y.1 = s.self))), .refused),
    (!s.poisoned x.idx (4 * x.nrows), .poisoned),
    ((s.idx32 x.idx x.nrows).all (fun r => decide (r ≤ e.rowsM1) && (s.ownerOf map e.shift r).isSome), .refused),
    (!s.poisoned x.grad gb, .poisoned)])

/-- Take an EMB_UPDATE: its rows go to their owners; it completes when each is added or dropped. -/
def State.takeEmbUpdate (s : State) (d r : Nat) : State :=
  let x := parseEmbUpd (s.words8 (s.headAddr d r))
  let e := s.readEmb x.table
  let v := s.tab x.table
  let fail := s.embUpdFail d x e
  let s := s.takeHead d r 1
  match fail with
  | some st => (s.countEnd d x.tag st).postRecord d r st (embUpdWords x.tag st v.stepOpen 0 s.now)
  | none =>
    let res := (List.range x.nrows).foldl (fun (y : State × List (Nat × Nat) × Nat × Bool) i =>
      let row := s.nat (x.idx + 4 * i) 4
      let g := s.gradVals x e.dim i
      let o := (s.ownerOf v.curSlot.map e.shift row).getD 0
      if o = s.self then
        let a := y.1.addGradient x.table v.stepOpen row g
        (a.1, y.2.1, y.2.2.1 + b2n (!a.2), y.2.2.2)
      else if s.fabric.failed.contains o then (y.1, y.2.1, y.2.2.1 + 1, true)
      else
        (y.1.send o 3 (.gradient x.table v.stepOpen row g), y.2.1 ++ [(o, SMap.get txDefault y.1.fabric.txNo (8 * o + 3))], y.2.2.1, y.2.2.2)) (s, [], 0, false)
    let st := if res.2.2.2 then Status.aborted else .ok
    if res.2.1 = [] then (res.1.countEnd d x.tag st).postRecord d r st (embUpdWords x.tag st v.stepOpen res.2.2.1 s.now)
    else
      let a := res.1.addJob d r 0x11 x.tag (.embUpdate { table := x.table, step := v.stepOpen, left := res.2.1, dropped := res.2.2.1 })
      if res.2.2.2 then a.1.doomJob a.2 .aborted else a.1

def State.endEmbUpdate (s : State) (j : Job) (u : EmbUpdate) (st : Status) : State :=
  ((s.countEnd j.dom j.tag st).postRecord j.dom j.ring st (embUpdWords j.tag st u.step u.dropped j.epoch)).dropJob j.id

/-- A message of the node is still owed to its receiver. -/
def State.owed (s : State) (dst queue no : Nat) : Bool :=
  s.fabric.out.any (fun m => decide (m.dst = dst) && decide (m.queue = queue) && decide (m.no = no))

/-- Updates whose rows have all been delivered. -/
def State.settleUpdates (s : State) : State :=
  s.sched.jobs.foldl (fun s j => match j.work with
    | .embUpdate u =>
      let left := u.left.filter (fun m => s.owed m.1 3 m.2)
      if j.doom = none && decide (left = []) then s.endEmbUpdate j u .ok else s.putJob { j with work := .embUpdate { u with left := left } }
    | _ => s) s

/-- A drop report reaches the sender (R271). -/
def State.dropReport (s : State) (t step : Nat) : State :=
  match s.sched.jobs.find? (fun j => match j.work with | .embUpdate u => decide (u.table = t) && decide (u.step = step) | _ => false) with
  | some j => match j.work with
    | .embUpdate u => s.putJob { j with work := .embUpdate { u with dropped := u.dropped + 1 } }
    | _ => s
  | none => s

/-! Steps (R272-R276). -/

structure StepDesc where
  table : Nat
  tag : Nat
  at_ : Nat
  lr : F32
  reservedOk : Bool
  deriving DecidableEq, Repr

def parseStep (ws : List Nat) : StepDesc :=
  let w (i : Nat) := ws.getD i 0
  { table := fieldOf (w 0) 16 8, tag := w 1, at_ := fieldOf (w 2) 0 48, lr := BitVec.ofNat 32 (w 3)
    reservedOk := reservedZero ws [0xFF00FF, 2 ^ 64 - 1, 2 ^ 48 - 1, 2 ^ 32 - 1, 0, 0, 0, 0] }

/-- The STEP_CLOSE completion record (R276). -/
def stepWords (tag : Nat) (st : Status) (late memberLost : Bool) (step c resume applied dropped poisoned : Nat) : List Nat :=
  [tag, st.code + b2n late * 2 ^ 8 + b2n (dropped ≠ 0) * 2 ^ 9 + b2n memberLost * 2 ^ 10, step % 2 ^ 32, c, resume,
   applied % 2 ^ 32 + dropped % 2 ^ 32 * 2 ^ 32, poisoned % 2 ^ 32]

/-- The record of a STEP_CLOSE that closes no step: C and the resume epoch are free (log entry 33). -/
def openStepWords (seed tag : Nat) (st : Status) (late : Bool) (step : Nat) : List Nat :=
  stepWords tag st late false step (freeBits seed 0 48) (freeBits seed 1 48) 0 0 0

/-- Take a STEP_CLOSE (R272). -/
def State.takeStepClose (s : State) (d r : Nat) : State :=
  let x := parseStep (s.words8 (s.headAddr d r))
  let e := s.readEmb x.table
  let fail := firstFail (s.tabChecks d x.table e [] ++ [(x.reservedOk && e.updEn, .refused)])
  let s := s.takeHead d r 1
  match fail with
  | some st => (s.fresh.countEnd d x.tag st).postRecord d r st (openStepWords s.freshCount x.tag st false (s.tab x.table).stepOpen)
  | none =>
    let late := decide (x.at_ ≤ s.now)
    let s := if late then s.setFld Reg.G.LATE_CLOSE 1 else s
    (s.addJob d r 0x12 x.tag (.stepClose { table := x.table, at_ := x.at_, lr := x.lr, late := late })).1

/-- The step closes at the boundary that begins C (R272, R276). -/
def State.closeStep (s : State) (j : Job) (c : StepClose) : State :=
  let v := s.tab c.table
  if 2 ≤ v.closed.length then
    ((s.fresh.countEnd j.dom j.tag .refused).postRecord j.dom j.ring .refused
      (openStepWords s.freshCount j.tag .refused c.late v.stepOpen)).dropJob j.id
  else
    s.setTab c.table { v with
      stepOpen := (v.stepOpen + 1) % 2 ^ 32
      closed := v.closed ++ [{ step := v.stepOpen, c := s.now, lr := c.lr, job := j.id
                               seals := (v.early.filter (fun y => y.2 = v.stepOpen)).map (fun y => y.1) }]
      early := v.early.filter (fun y => y.2 ≠ v.stepOpen) }

/-- Steps that are due to close at this boundary, of the tables named. -/
def State.closeSteps (s : State) (f : Nat → Bool) : State :=
  s.sched.jobs.foldl (fun s j => match j.work with
    | .stepClose c =>
      if f c.table && decide (j.epoch < s.now) && decide (c.at_ ≤ s.now) && !(s.tab c.table).closed.any (fun x => x.job = j.id) then s.closeStep j c else s
    | _ => s) s

/-- Send the seal of the oldest step not yet sealed, once every lookup bound below its C has completed (R273). -/
def State.sealStep (s : State) (t : Nat) : State :=
  let v := s.tab t
  match v.closed.find? (fun x => !x.sealSent) with
  | none => s
  | some x =>
    if s.lookups.any (fun y => decide (y.2.table = t) && decide (y.1.epoch < x.c)) then s
    else
      let s := s.setTab t { v with closed := v.closed.map (fun y => if y.step = x.step then { y with sealSent := true } else y) }
      ((s.otherOwners v.curSlot.map (s.readEmb t)).filter (fun o => !s.fabric.failed.contains o)).foldl (fun s o => s.send o 3 (.seal t x.step)) s

/-- Another owner's seal (R273). -/
def State.recvSeal (s : State) (src t step : Nat) : State :=
  let v := s.tab t
  if v.st = 0 then s
  else if v.closed.any (fun x => x.step = step) then
    s.setTab t { v with closed := v.closed.map (fun x => if x.step = step then { x with seals := insNat x.seals src } else x) }
  else if v.stepOpen ≤ step && !v.early.contains (src, step) then s.setTab t { v with early := v.early ++ [(src, step)] }
  else s

/-- Some owner that has sent no seal was declared failed. -/
def State.memberLost (s : State) (t : Nat) (x : ClosedStep) : Bool :=
  (s.otherOwners (s.tab t).curSlot.map (s.readEmb t)).any (fun o => !x.seals.contains o && s.fabric.failed.contains o)

/-- The oldest closed step, when it may be applied. -/
def State.readyStep (s : State) (t : Nat) : Option ClosedStep :=
  match (s.tab t).closed with
  | [] => none
  | x :: _ =>
    if x.sealSent && (s.otherOwners (s.tab t).curSlot.map (s.readEmb t)).all (fun o => x.seals.contains o || s.fabric.failed.contains o) then some x else none

/-- Entries of a step that the near-bank units of K-stack `k` apply, and those left to vector cores (R261). -/
def State.nbEntries (s : State) (t k : Nat) (x : ClosedStep) : List GradEntry :=
  let v := s.tab t
  let d := s.readEmb t
  v.entries.filter (fun e => decide (e.step = x.step) && (s.nbUnitOf (s.rowAddr v.curSlot d e.row)).any (fun p => decide (p.1 = k)))

def State.vecEntries (s : State) (t : Nat) (x : ClosedStep) : List GradEntry :=
  let v := s.tab t
  let d := s.readEmb t
  v.entries.filter (fun e => decide (e.step = x.step) && (s.nbUnitOf (s.rowAddr v.curSlot d e.row)).isNone)

/-- New row and state row of one element (R274). -/
def optStep (opt : Nat) (lr mu eps w v g : F32) : F32 × F32 :=
  match opt with
  | 1 => (F32.sub w (F32.mul lr g), v)
  | 2 =>
    let v' := F32.add (F32.mul mu v) g
    (F32.sub w (F32.mul lr v'), v')
  | _ =>
    let a := F32.add v (F32.mul g g)
    (F32.sub w (F32.mul (F32.mul lr g) (F32.rsqrt 4 (F32.add a eps))), a)

/-- Apply one entry: the row, its state row, its hot copy and its journal record (R274, R280, R348). -/
def State.applyRow (s : State) (t nb : Nat) (x : ClosedStep) (e : GradEntry) : State :=
  let v := s.tab t
  let d := s.readEmb t
  let ra := s.rowAddr v.curSlot d e.row
  let sa := s.stateAddr v.curSlot d e.row
  let n := 2 * d.dim
  let useState := decide (2 ≤ d.opt)
  let bad := s.poisoned ra n || (useState && s.poisoned sa n)
  let w := bf16List (s.read ra n)
  let st := if useState then bf16List (s.read sa n) else []
  let new := (List.range d.dim).map (fun i => optStep d.opt x.lr d.mu d.eps (w.getD i 0#32) (st.getD i 0#32) (e.sum.getD i 0#32))
  let enc (l : List F32) : List Byte := l.flatMap (fun y => leBytes 2 y.toBf16.toNat)
  let s :=
    if bad then (linesOf ra n ++ (if useState then linesOf sa n else [])).foldl (fun s l => s.poison l d.dom) s
    else
      let s := s.storeNb ra (enc (new.map (fun y => y.1))) d.dom nb
      if useState then s.storeNb sa (enc (new.map (fun y => y.2))) d.dom nb else s
  let data := s.read ra n
  let s := s.setTab t { v with
    entries := v.entries.filter (fun y => y ≠ e)
    hot := v.hot.map (fun h => if h.row = e.row && h.slot = v.cur then { h with data := data, poison := bad } else h)
    closed := v.closed.map (fun y => if y.step = x.step then { y with applied := y.applied + 1, poisoned := y.poisoned + b2n bad } else y) }
  (s.bump Reg.G.ROWS_APPLIED).journal
    { kind := 3, cbSlot := 0, epoch := x.c, number := t, part := 0, position := e.row, step := x.step, gid := 0#64
      payload := leBytes 4 x.lr.toNat ++ List.replicate 60 0#8 ++ e.sum.flatMap (fun y => leBytes 4 y.toNat), seq := 0, run := 0, st := 0 }

/-- End a STEP_CLOSE whose step is the table's oldest: its entries and counts go with it. -/
def State.endStep (s : State) (t : Nat) (x : ClosedStep) (st : Status) : State :=
  let v := s.tab t
  let lost := ((v.lost.find? (fun y => y.1 = x.step)).map (fun y => y.2)).getD 0
  let ml := s.memberLost t x
  let s := s.setTab t { v with
    closed := v.closed.filter (fun y => y.step ≠ x.step), entries := v.entries.filter (fun y => y.step ≠ x.step)
    lost := v.lost.filter (fun y => y.1 ≠ x.step) }
  match s.job? x.job with
  | some j =>
    let late := match j.work with | .stepClose c => c.late | _ => false
    ((s.countEnd j.dom j.tag st).postRecord j.dom j.ring st
      (stepWords j.tag st late ml x.step x.c (s.now + 1) ((v.closed.find? (fun y => y.step = x.step)).map (fun y => y.applied) |>.getD 0) lost
        ((v.closed.find? (fun y => y.step = x.step)).map (fun y => y.poisoned) |>.getD 0))).dropJob j.id
  | none => s

/-- Slices of a table's apply that are running. -/
def State.applying (s : State) (t : Nat) : Bool :=
  s.sched.slices.any (fun x => match x.kind with
    | .stepApply t' _ | .nbApply _ t' _ => decide (t' = t)
    | _ => false)

/-- The apply has ended when no entry is left. -/
def State.finishStep (s : State) (t : Nat) : State :=
  match s.readyStep t with
  | some x => if (s.tab t).entries.any (fun e => e.step = x.step) || s.applying t then s else s.endStep t x .ok
  | none => s

/-- An apply slice over entries ends. -/
def State.runApply (s : State) (t nb : Nat) (es : List GradEntry) : State :=
  match s.readyStep t with
  | some x => (es.foldl (fun s e => s.applyRow t nb x e) s).finishStep t
  | none => s

/-! Hot rows (R277, R278). -/

structure HotDesc where
  table : Nat
  tag : Nat
  list : Nat
  nrows : Nat
  refresh : Nat
  reservedOk : Bool
  deriving DecidableEq, Repr

def parseHot (ws : List Nat) : HotDesc :=
  let w (i : Nat) := ws.getD i 0
  { table := fieldOf (w 0) 16 8, tag := w 1, list := fieldOf (w 2) 0 52, nrows := fieldOf (w 3) 0 24, refresh := fieldOf (w 3) 32 16
    reservedOk := reservedZero ws [0xFF00FF, 2 ^ 64 - 1, 2 ^ 52 - 1, 0xFFFF00FFFFFF, 0, 0, 0, 0] }

def State.hotUsed (s : State) : Nat := (s.emb.tables.map (fun x => (x.2.hot.map (fun h => h.data.length)).sum)).sum
def State.hotFits (s : State) (n : Nat) : Bool := decide (s.hotUsed + n ≤ s.fld Reg.G.HOT_MB * 0x100000)

/-- Put a copy into the pool, in place of an older one of the row, or count it as skipped. -/
def State.putHot (s : State) (t slot row : Nat) (data : List Byte) (poison : Bool) : State :=
  let v := s.tab t
  let h : HotRow := { row := row, slot := slot, data := data, poison := poison }
  if v.hot.any (fun x => x.row = row) then s.setTab t { v with hot := v.hot.map (fun x => if x.row = row then h else x) }
  else if s.hotFits data.length then s.setTab t { v with hot := v.hot ++ [h] }
  else s.bump Reg.G.HOT_SKIP

/-- Load the hot set from the CURRENT slot: own rows at once, remote rows by asking their owners. -/
def State.loadHot (s : State) (t : Nat) : State :=
  let v := s.tab t
  let d := s.readEmb t
  let s := s.setTab t { v with loaded := s.now }
  v.hotList.foldl (fun s r =>
    if s.owns v.curSlot.map d.shift r then
      let a := s.rowAddr v.curSlot d r
      s.putHot t v.cur r (s.read a d.rowBytes) (s.poisoned a d.rowBytes)
    else match s.ownerOf v.curSlot.map d.shift r with
      | some o => s.send o 4 (.hotFetch t v.cur r)
      | none => s) s

def State.takeHotSet (s : State) (d r : Nat) : State :=
  let x := parseHot (s.words8 (s.headAddr d r))
  let e := s.readEmb x.table
  let v := s.tab x.table
  let rows := s.idx32 x.list x.nrows
  let fail := firstFail (s.tabChecks d x.table e [(x.list, 4 * x.nrows)] ++ [
    (x.reservedOk, .refused),
    (!s.poisoned x.list (4 * x.nrows), .poisoned),
    (rows.all (fun i => decide (i ≤ e.rowsM1) &&
      (if e.updEn then s.owns v.curSlot.map e.shift i else (s.ownerOf v.curSlot.map e.shift i).isSome)), .refused)])
  let s := s.takeHead d r 1
  match fail with
  | some st => (s.countEnd d x.tag st).postRecord d r st [x.tag, st.code]
  | none => (s.addJob d r 0x13 x.tag (.hotSet { table := x.table, rows := rows, refresh := x.refresh })).1

/-- Hot sets that a boundary puts in place. -/
def State.applyHotSets (s : State) : State :=
  s.sched.jobs.foldl (fun s j => match j.work with
    | .hotSet h =>
      if j.epoch < s.now then
        let v := s.tab h.table
        let s := (s.setTab h.table { v with hot := [], hotList := h.rows, refresh := h.refresh }).loadHot h.table
        (s.postRecord j.dom j.ring .ok [j.tag, Status.ok.code]).dropJob j.id
      else s
    | _ => s) s

/-- Reload a set that is due (R278). -/
def State.refreshHot (s : State) (t : Nat) : State :=
  let v := s.tab t
  if decide (v.refresh ≠ 0) && decide (v.loaded + v.refresh ≤ s.now) then s.loadHot t else s

/-- A remote row arrives for a hot set (R278). -/
def State.hotRowArrives (s : State) (t slot row : Nat) (data : List Byte) : State :=
  let v := s.tab t
  if v.hotList.contains row && decide (data.length = (s.readEmb t).rowBytes) then s.putHot t slot row data false else s

/-! Version swaps (R279). -/

structure EmbVerDesc where
  table : Nat
  slot : Nat
  tag : Nat
  map : Nat
  row : Nat
  swapAt : Nat
  reservedOk : Bool
  deriving DecidableEq, Repr

def parseEmbVer (ws : List Nat) : EmbVerDesc :=
  let w (i : Nat) := ws.getD i 0
  { table := fieldOf (w 0) 16 8, slot := fieldOf (w 0) 8 1, tag := w 1, map := fieldOf (w 2) 0 52, row := fieldOf (w 3) 0 52
    swapAt := fieldOf (w 4) 0 48
    reservedOk := reservedZero ws [0xFF01FF, 2 ^ 64 - 1, 2 ^ 52 - 1, 2 ^ 52 - 1, 2 ^ 48 - 1, 0, 0, 0] }

/-- The table holds a closed step not yet applied, or an entry of the open step. -/
def EmbTable.busy (v : EmbTable) : Bool := decide (v.closed ≠ []) || v.entries.any (fun e => e.step = v.stepOpen)

def State.takeEmbVersion (s : State) (d r : Nat) : State :=
  let x := parseEmbVer (s.words8 (s.headAddr d r))
  let e := s.readEmb x.table
  let v := s.tab x.table
  let fail := firstFail (s.tabChecks d x.table e [(x.map, 8 * (e.rowsM1 / 2 ^ e.shift + 1)), (x.row, max 1 (e.localShards * 2 ^ e.shift * e.rowBytes))] ++ [
    (x.reservedOk && decide (x.map % 0x10000 = 0) && decide (x.row % 0x10000 = 0) && e.regionOk x.row, .refused),
    (decide ((v.slot x.slot).state = 0) && !v.busy, .refused)])
  let s := s.takeHead d r 1
  match fail with
  | some st => (s.countEnd d x.tag st).postRecord d r st [x.tag, st.code]
  | none =>
    let s := s.setTab x.table (v.setSlot x.slot { state := 1, map := x.map, row := x.row })
    (s.addJob d r 0x14 x.tag (.embVersion { table := x.table, slot := x.slot, swapAt := x.swapAt })).1

/-- Swaps that are due, of the tables named. -/
def State.embSwaps (s : State) (f : Nat → Bool) : State :=
  s.sched.jobs.foldl (fun s j => match j.work with
    | .embVersion x =>
      if f x.table && decide (j.epoch < s.now) && decide (x.swapAt ≤ s.now) then
        let v := s.tab x.table
        if v.busy then
          ((s.setTab x.table (v.setSlot x.slot {})).countEnd j.dom j.tag .refused |>.postRecord j.dom j.ring .refused [j.tag, Status.refused.code]).dropJob j.id
        else
          let o := 1 - x.slot
          let v := if (v.slot o).state = 2 then v.setSlot o { v.slot o with state := 3, since := s.now } else v
          let v := { v.setSlot x.slot { v.slot x.slot with state := 2, since := s.now } with swap := s.now }
          ((s.setTab x.table v).postRecord j.dom j.ring .ok [j.tag, Status.ok.code]).dropJob j.id
      else s
    | _ => s) s

/-- Retired slots become FREE after FANOUT_GRACE stitches and once unpinned. -/
def State.releaseTab (s : State) (t slot : Nat) : State :=
  let v := s.tab t
  let x := v.slot slot
  if decide (x.state = 3) && decide (x.since + s.fld Reg.G.FANOUT_GRACE ≤ s.now) && decide (s.tabPins t slot = 0) then
    s.setTab t (v.setSlot slot {})
  else s

/-! The boundary. -/

/-- Read a table's STATE (R53, R259, R283). A table that becomes ACTIVE enters with slot A CURRENT. -/
def State.readTab (s : State) (t : Nat) : State :=
  if s.poisoned (s.embAddr t) 128 then s
  else
    let d := s.readEmb t
    let v : EmbTable := { s.tab t with dom := d.dom }
    if d.st = 0 then s.setTab t {}
    else if d.st = 2 && decide (v.st ≠ 2) && decide (v.a.state = 0) && decide (v.b.state = 0) then
      s.setTab t { v with st := 2, a := { state := 2, map := d.mapA, row := d.rowA }, b := {} }
    else s.setTab t { v with st := d.st }

/-- Tables that a boundary looks at. -/
def State.boundaryTabs (s : State) : List Nat := (s.emb.tables.map (fun x => x.1)).foldl insNat (s.touched (s.embAddr 0) 128 256)

def State.readTabs (s : State) : State := s.boundaryTabs.foldl State.readTab s

/-- Embedding work of a boundary besides swaps and closes. -/
def State.embBoundary (s : State) : State :=
  let s := s.applyHotSets
  let s := (s.emb.tables.map (fun x => x.1)).foldl (fun s t => (((s.refreshHot t).releaseTab t 0).releaseTab t 1).finishStep t) s
  s.settleUpdates.tryLookups

/-! Slices of embeddings (R281). -/

/-- Cost of an embedding slice on a vector core, where it may run now. -/
def State.embCost (s : State) : SliceKind → Option Nat
  | .sortOwners id lo n =>
    match s.lookup? id with
    | some (_, l) =>
      if !l.sent && decide (lo = l.sorted) && decide (1 ≤ n) && decide (lo + n ≤ cdiv l.nidx 64) &&
          !s.sched.slices.any (fun x => match x.kind with | .sortOwners i .. => decide (i = id) | _ => false) then
        some (l.sortCost (min (64 * n) (l.nidx - 64 * lo)))
      else none
    | none => none
  | .pooling id n =>
    match s.embShare? id with
    | some (_, x) =>
      let is := s.poolItems x
      if decide (1 ≤ n) && decide (n ≤ is.length) && !s.sched.slices.any (fun y => match y.kind with | .pooling i _ => decide (i = id) | _ => false) then
        some (x.desc.poolCost n ((is.take n).map (PoolItem.bytes x.desc)).sum)
      else none
    | none => none
  | .lookupCombine id lo n =>
    match s.lookup? id with
    | some (_, l) =>
      if l.gathered && decide (lo = l.combined) && decide (1 ≤ n) && decide (lo + n ≤ l.bags) &&
          !s.sched.slices.any (fun x => match x.kind with | .lookupCombine i .. => decide (i = id) | _ => false) then
        some (l.combineCost ((List.range n).map (fun i => (l.entriesOf (lo + i)).length)).sum n)
      else none
    | none => none
  | .stepApply t n =>
    match s.readyStep t with
    | some x =>
      let d := s.readEmb t
      if decide (1 ≤ n) && decide (n ≤ (s.vecEntries t x).length) && !s.sched.slices.any (fun y => match y.kind with | .stepApply t' _ => decide (t' = t) | _ => false) then
        some (64 + max (n * (4 * d.dim / 64)) (cdiv (n * (2 * d.dim + (if 2 ≤ d.opt then 2 * d.dim else 0) + cdiv (8 + 4 * d.dim) 64 * 64)) 128))
      else none
    | none => none
  | _ => none

end Sys2Proof.Machine
end

