-- ==== Sys2Proof/Machine/NearBank.lean ====
section
/-! DEFINITION. Near-bank units of the K-stacks (R284-R318): patterns, the lace, the issue's slices, refresh. -/

namespace Sys2Proof.Machine

open Sys2Proof

/-! Units, issues and what they hold. -/

def nbKey (k u : Nat) : Nat := 1024 * k + u
def State.unit? (s : State) (k u : Nat) : Option NbUnit :=
  if decide (k < 4) && decide (u < 1024) then SMap.get (fun _ => none) s.nb.units (nbKey k u) else none
def State.setUnit (s : State) (k u : Nat) (x : NbUnit) : State :=
  { s with nb := { s.nb with units := SMap.set (fun _ => none) s.nb.units (nbKey k u) (some x) } }
def State.issue? (s : State) (k : Nat) : Option NbIssue := SMap.get (fun _ => none) s.nb.issues k
def State.setIssue (s : State) (k : Nat) (x : Option NbIssue) : State :=
  { s with nb := { s.nb with issues := SMap.set (fun _ => none) s.nb.issues k x } }
def State.beats (s : State) (k u : Nat) : List NbBeat := SMap.get (fun _ => []) s.nb.lace (nbKey k u)
def State.setBeats (s : State) (k u : Nat) (l : List NbBeat) : State :=
  { s with nb := { s.nb with lace := SMap.set (fun _ => []) s.nb.lace (nbKey k u) l } }

/-- Units of a K-stack that a slice holds, ascending. -/
def State.unitsOf (s : State) (k : Nat) : List Nat :=
  (s.nb.units.filter (fun x => decide (x.1 / 1024 = k))).map (fun x => x.1 % 1024)

/-- The next unit on the lace: a retired pseudo-channel is bypassed (R297). -/
def State.nextUnit (s : State) (k u : Nat) : Option Nat := (List.range 1024).find? (fun v => decide (u < v) && !s.pcGone k v)

def startRegs (seed : Nat) : NbRegs :=
  { v := (List.range 8).map (fun r => { lanes := (List.range 16).map (fun i => BitVec.ofNat 32 (freeBits seed (16 * r + i) 32)), poison := false })
    a := (List.range 4).map (fun i => freeBits seed (128 + i) 22), c := (List.range 4).map (fun i => freeBits seed (132 + i) 16)
    train := none, tail := false, pc := 0 }

/-- Registers at the start of a granule run (R305). -/
def NbGran.regs (g : NbGran) (seed : Nat) : NbRegs :=
  let r := startRegs seed
  { r with a := [4 * g.a, (g.b.map (fun b => 4 * b)).getD (r.a.getD 1 0), r.a.getD 2 0, 4 * g.d], c := g.n :: r.c.tail }

def NbGran.src (g : NbGran) : List (Nat × Nat) := (g.a, g.n) :: (g.b.map (fun b => (b, g.n))).toList

/-! Instruction fields (R293). -/

def nbOp (w : Nat) : Nat := fieldOf w 26 6
def nbD (w : Nat) : Nat := fieldOf w 22 3
def nbA (w : Nat) : Nat := fieldOf w 19 3
def nbB (w : Nat) : Nat := fieldOf w 16 3
def nbC (w : Nat) : Nat := fieldOf w 13 3
def nbFmt (w : Nat) : Nat := fieldOf w 10 3
def nbW (w : Nat) : Nat := fieldOf w 0 8

/-- Codes 0-3 name A0-A3, 4-7 name C0-C3. -/
def NbRegs.scalar (r : NbRegs) (i : Nat) : Nat := if i < 4 then r.a.getD i 0 else r.c.getD (i - 4) 0
def NbRegs.setScalar (r : NbRegs) (i x : Nat) : NbRegs :=
  if i < 4 then { r with a := r.a.set i (x % 2 ^ 22) } else { r with c := r.c.set (i - 4) (x % 2 ^ 16) }
def NbRegs.vec (r : NbRegs) (i : Nat) : NbVec := r.v.getD (i % 8) { lanes := [], poison := false }
def NbRegs.setVec (r : NbRegs) (i : Nat) (x : NbVec) : NbRegs := { r with v := r.v.set (i % 8) x }
def NbRegs.next (r : NbRegs) : NbRegs := { r with pc := r.pc + 1 }

/-- A data word: those that the issue wrote, else a free value (R292, R305). -/
def NbUnit.word (x : NbUnit) (seed i : Nat) : Nat := if 64 ≤ i then x.data.getD (i - 64) (freeBits seed (1000 + i) 32) else 0

/-! Formats (R289, R290). -/

/-- Format code after the job's own formats are put in. -/
def NbIssue.fmt (i : NbIssue) (f : Nat) : Nat := if f = 4 then i.inFmt else if f = 5 then i.outFmt else f

/-- Bytes of 16 elements. -/
def nbLoadBytes (f : Nat) : Nat := match f with | 0 => 32 | 3 => 64 | _ => 16
def nbStoreRegs (f : Nat) : Nat := match f with | 0 => 2 | 3 => 1 | _ => 4

def nbDecode (f : Nat) (b : List Byte) : List F32 :=
  match f with
  | 0 => bf16List b
  | 1 => b.map (fun x => F32.ofVal (e4m3.decode x.toNat))
  | 2 => b.map (fun x => F32.ofInt (bitsSigned 8 x.toNat))
  | _ => f32List b

/-- One element narrowed, with its clip; an INT8 of a NaN is a free value. -/
def nbEncode (seed f : Nat) (x : F32) : List Byte × Bool :=
  match f with
  | 0 => (leBytes 2 x.toBf16.toNat, false)
  | 1 => let q := e4m3.encode x.val; (leBytes 1 q.1, q.2)
  | 2 =>
    match x.val with
    | .nan _ => ([Config.freeByte seed x.toNat], false)
    | .inf s => (leBytes 1 (if s then 0x81 else 0x7F), true)
    | .fin .. => match x.toInt with
      | some i => (leBytes 1 (signedBits 8 (max (-127) (min 127 i))), decide (i < -127) || decide (127 < i))
      | none => ([], false)
  | _ => (leBytes 4 x.toNat, false)

/-! A unit's memory (R289, R291, R305, R312). -/

/-- Bank lines that `n` bytes from 16 B unit `a` touch. -/
def nbLines (a n : Nat) : List Nat := linesOf (16 * a) n

def NbUnit.inSrc (x : NbUnit) (l : Nat) : Bool := x.src.any (fun w => decide (w.1 ≤ l) && decide (l < w.1 + w.2))
def NbUnit.inDst (x : NbUnit) (l : Nat) : Bool := x.dst.any (fun w => decide (w.1 ≤ l) && decide (l < w.1 + w.2))

/-- A bank line's bytes and poison, the write buffer first. -/
def State.nbLine (s : State) (k u : Nat) (x : NbUnit) (l : Nat) : List Byte × Bool :=
  match x.buf.find? (fun b => b.line = l) with
  | some b => (b.data, b.poison)
  | none => (s.read (nbAddr k u l) 64, s.poisoned (nbAddr k u l) 64)

/-- Sixteen elements at 16 B unit `a`. -/
def State.nbLoad (s : State) (k u : Nat) (x : NbUnit) (f a err : Nat) : NbVec :=
  let n := nbLoadBytes f
  let ls := nbLines a n
  let got := ls.map (s.nbLine k u x)
  { lanes := nbDecode f ((((got.map (fun g => g.1)).flatten).drop (16 * a % 64)).take n), poison := got.any (fun g => g.2) || decide (err = 2) }

/-! Stitch points (R291, R295, R310, R313, R314). -/

/-- Commit one buffered line with the unit's own check bytes. -/
def State.nbCommit (s : State) (k u : Nat) (i : NbIssue) (b : NbLine) : State :=
  let a := nbAddr k u b.line
  if b.poison then ({ s with mem := s.mem.poisonLine (a / 64) i.dom }).bump (Reg.KS.POISON_LINES_OUT k)
  else { s with mem := s.mem.write a b.data i.dom 1 }

def State.stitchPoint (s : State) (k u : Nat) (x : NbUnit) : State :=
  match s.issue? k with
  | none => s
  | some i =>
    let s := x.buf.foldl (fun s b => s.nbCommit k u i b) s
    let s := s.setIssue k (some { i with
      committed := (x.buf.map (fun b => nbAddr k u b.line)).foldl insNat i.committed
      poisoned := i.poisoned + (x.buf.filter (fun b => b.poison)).length })
    let s := match s.nextUnit k u with
      | some v => s.setBeats k v (s.beats k v ++ x.sent)
      | none => s
    let s := if x.refreshDue then s.bump (Reg.KS.PREEMPTS k) else s
    s.setUnit k u { x with buf := [], sent := [], consumed := [], snap := x.regs, refreshDue := false }

/-- END: the next granule run of the unit starts, or the unit stops. -/
def State.nbEnd (s : State) (k u : Nat) (x : NbUnit) : State :=
  let s := s.stitchPoint k u x
  match s.unit? k u with
  | none => s
  | some y =>
    match y.left with
    | [] => s.setUnit k u { y with on := false }
    | g :: t =>
      let r := g.regs s.freshCount
      s.fresh.setUnit k u { y with regs := r, snap := r, src := g.src, dst := [(g.d, g.n)], left := t }

/-- An access outside the run's windows stops the unit (R305). -/
def State.nbBad (s : State) (k u : Nat) (x : NbUnit) : State := s.setUnit k u { x with on := false, bad := true, buf := [], sent := [] }

/-! One instruction (R294). -/

/-- The word at a unit's instruction pointer. -/
def State.nbWord (s : State) (k u : Nat) : Option (NbUnit × NbIssue × Nat) :=
  match s.unit? k u, s.issue? k with
  | some x, some i => if x.on && decide (x.regs.pc < 64) then some (x, i, i.code.getD x.regs.pc 0) else none
  | _, _ => none

/-- The instruction is done: its stitch point where S is set (R295). -/
def State.nbDone (s : State) (k u w : Nat) (x : NbUnit) (r : NbRegs) : State :=
  let y := { x with regs := r }
  if bitOf w 25 then s.stitchPoint k u y else s.setUnit k u y

def lanes2 (f : F32 → F32 → F32) (a b : NbVec) : NbVec := { lanes := List.zipWith f a.lanes b.lanes, poison := a.poison || b.poison }

/-- A load's poison makes the job POISONED (R314); a corrected line is counted (R312). -/
def State.nbLoaded (s : State) (k err : Nat) (v : NbVec) : State :=
  let s := if err = 1 then s.bump (Reg.KS.OUTER_CORRECTED k) else s
  match s.issue? k with
  | some i => if v.poison then s.setIssue k (some { i with loadedPoison := true }) else s
  | none => s

/-- Put a line into the write buffer; a 17th line passes a stitch point first (R291, R295). -/
def State.nbBuffer (s : State) (k u : Nat) (x : NbUnit) (b : NbLine) : State × NbUnit :=
  let full := decide (16 ≤ x.buf.length) && !x.buf.any (fun y => y.line = b.line)
  let s := if full then s.stitchPoint k u x else s
  let x := if full then (s.unit? k u).getD x else x
  (s, { x with buf := x.buf.filter (fun y => y.line ≠ b.line) ++ [b] })

/-- ACT (R290, R294); `none` for a function that is not defined. -/
def nbAct (fn : Nat) (a b c : F32) : Option F32 :=
  match fn with
  | 0 => some (relu a)
  | 1 => some (clampF b c a)
  | 2 => some (F32.real 6 a)
  | 3 => some (F32.real 7 a)
  | 4 => some (F32.rsqrt 4 a)
  | _ => none

def State.nbNop (s : State) (k u : Nat) : State :=
  match s.nbWord k u with
  | some (x, _, w) => if nbOp w = 0 then s.nbDone k u w x x.regs.next else s
  | none => s

def State.nbEndI (s : State) (k u : Nat) : State :=
  match s.nbWord k u with
  | some (x, _, w) => if nbOp w = 1 then s.nbEnd k u x else s
  | none => s

def State.nbSet (s : State) (k u : Nat) : State :=
  match s.nbWord k u with
  | some (x, _, w) => if nbOp w = 2 then s.nbDone k u w x ((x.regs.setScalar (nbD w) (fieldOf w 0 20)).next) else s
  | none => s

def State.nbLdw (s : State) (k u : Nat) : State :=
  match s.nbWord k u with
  | some (x, i, w) =>
    if nbOp w = 3 then
      let v := x.word s.freshCount (nbW w)
      let r :=
        if decide (i.kind = 1) && Config.ldwVector w then
          x.regs.setVec (nbD w) { lanes := List.replicate 16 (BitVec.ofNat 32 v), poison := false }
        else if nbD w < 4 then x.regs.setScalar (nbD w) v
        else x.regs.setScalar (nbD w) (if bitOf w 8 then v / 2 ^ 16 else v)
      s.nbDone k u w x r.next
    else s
  | none => s

def State.nbLde (s : State) (k u : Nat) : State :=
  match s.nbWord k u with
  | some (x, _, w) =>
    if nbOp w = 4 then
      let p := x.regs.scalar (nbA w)
      let e := x.word s.freshCount p
      let tail := bitOf e 31
      let r := (x.regs.setScalar (nbA w) (p + if tail then 2 else 1)).setScalar (nbD w) (4 * fieldOf e 0 20)
      let r := { r with train := some (fieldOf e 20 10), tail := tail }
      let r := if tail then r.setScalar 3 (4 * x.word s.freshCount (p + 1)) else r
      s.nbDone k u w x r.next
    else s
  | none => s

/-- Advance an address register past the data moved, in 16 B units. -/
def nbInc (w n : Nat) (r : NbRegs) : NbRegs := if bitOf w 9 then r.setScalar (nbA w) (r.scalar (nbA w) + n / 16) else r

def State.nbLd (s : State) (k u err : Nat) : State :=
  match s.nbWord k u with
  | some (x, i, w) =>
    let f := i.fmt (nbFmt w)
    if decide (nbOp w = 5) && decide (f < 4) then
      let a := x.regs.scalar (nbA w)
      if (nbLines a (nbLoadBytes f)).all x.inSrc then
        let v := s.nbLoad k u x f a err
        (s.nbLoaded k err v).nbDone k u w x ((nbInc w (nbLoadBytes f) x.regs).setVec (nbD w) v).next
      else s.nbBad k u x
    else s
  | none => s

def State.nbSt (s : State) (k u : Nat) : State :=
  match s.nbWord k u with
  | some (x, i, w) =>
    let f := i.fmt (nbFmt w)
    if decide (nbOp w = 6) && decide (f < 4) then
      let l := x.regs.scalar (nbA w) / 4
      if x.inDst l then
        let vs := (List.range (nbStoreRegs f)).map (fun j => x.regs.vec (nbD w + j))
        let es := (vs.flatMap (fun v => v.lanes)).map (nbEncode s.freshCount f)
        let clip := s.overClip (es.filter (fun e => e.2)).length es.length
        let s := if clip then s.bump Reg.G.NB_CLIP_LINES else s
        let s := if clip then s.setIssue k (some { i with clipped := i.clipped + 1 }) else s
        let y := s.fresh.nbBuffer k u x { line := l, data := es.flatMap (fun e => e.1), poison := vs.any (fun v => v.poison) }
        y.1.nbDone k u w y.2 (nbInc w 64 y.2.regs).next
      else s.nbBad k u x
    else s
  | none => s

/-- The operations on vector registers. -/
def State.nbVec (s : State) (k u op : Nat) (f : Nat → NbRegs → Option NbVec) : State :=
  match s.nbWord k u with
  | some (x, _, w) =>
    if nbOp w = op then
      match f w x.regs with
      | some v => s.nbDone k u w x (x.regs.setVec (nbD w) v).next
      | none => s
    else s
  | none => s

def State.nbAdd (s : State) (k u : Nat) : State := s.nbVec k u 7 (fun w r => some (lanes2 F32.add (r.vec (nbA w)) (r.vec (nbB w))))
def State.nbMul (s : State) (k u : Nat) : State := s.nbVec k u 8 (fun w r => some (lanes2 F32.mul (r.vec (nbA w)) (r.vec (nbB w))))

def State.nbFma (s : State) (k u : Nat) : State :=
  s.nbVec k u 9 (fun w r =>
    let a := r.vec (nbA w)
    let b := r.vec (nbB w)
    let c := r.vec (nbC w)
    some { lanes := (List.range 16).map (fun i => F32.fma (a.lanes.getD i 0#32) (b.lanes.getD i 0#32) (c.lanes.getD i 0#32))
           poison := a.poison || b.poison || c.poison })

def State.nbActI (s : State) (k u : Nat) : State :=
  s.nbVec k u 10 (fun w r =>
    let a := r.vec (nbA w)
    let b := r.vec (nbB w)
    let c := r.vec (nbC w)
    let fn := nbFmt w
    let out := (List.range 16).map (fun i => nbAct fn (a.lanes.getD i 0#32) (b.lanes.getD i 0#32) (c.lanes.getD i 0#32))
    if out.any Option.isNone then none
    else some { lanes := out.map (fun o => o.getD 0#32), poison := a.poison || (decide (fn = 1) && (b.poison || c.poison)) })

/-- LACC (R294, R298): without a beat of its train the unit waits, at a stitch point. -/
def State.nbLacc (s : State) (k u err : Nat) : State :=
  match s.nbWord k u with
  | some (x, i, w) =>
    let f := i.fmt (nbFmt w)
    if decide (nbOp w = 11) && decide (f < 4) then
      match x.inbox.find? (fun b => x.regs.train = some b.train) with
      | none => s.stitchPoint k u x
      | some b =>
        let a := x.regs.scalar (nbA w)
        if !(nbLines a (nbLoadBytes f)).all x.inSrc then s.nbBad k u x
        else
          let v := s.nbLoad k u x f a err
          let sum : NbVec := { lanes := List.zipWith F32.add b.vals v.lanes, poison := b.poison || v.poison }
          let s := s.nbLoaded k err v
          let x := { x with inbox := x.inbox.erase b, consumed := x.consumed ++ [b] }
          let r := (nbInc w (nbLoadBytes f) x.regs).setVec (nbD w) sum
          if x.regs.tail then
            let l := x.regs.scalar 3 / 4
            if x.inDst l then
              let y := s.nbBuffer k u { x with regs := r } { line := l, data := sum.lanes.flatMap (fun e => leBytes 4 e.toNat), poison := sum.poison }
              y.1.nbDone k u w y.2 (r.setScalar 3 (r.scalar 3 + 4)).next
            else s.nbBad k u x
          else s.nbDone k u w { x with sent := x.sent ++ [{ b with vals := sum.lanes, poison := sum.poison }] } r.next
    else s
  | none => s

def State.nbLoop (s : State) (k u : Nat) : State :=
  match s.nbWord k u with
  | some (x, _, w) =>
    if nbOp w = 12 then
      let m := if nbD w < 4 then 2 ^ 22 else 2 ^ 16
      let c := (x.regs.scalar (nbD w) + m - 1) % m
      let r := x.regs.setScalar (nbD w) c
      s.nbDone k u w x (if c = 0 then r.next else { r with pc := nbW w })
    else s
  | none => s

def State.nbBr (s : State) (k u : Nat) : State :=
  match s.nbWord k u with
  | some (x, _, w) =>
    if decide (nbOp w = 13) && decide (nbFmt w ≤ 1) then
      s.nbDone k u w x (if nbFmt w = 0 || x.regs.tail then { x.regs with pc := nbW w } else x.regs.next)
    else s
  | none => s

/-- The instruction at the unit's pointer, whichever it is. -/
def State.nbStep (s : State) (k u : Nat) : State :=
  match s.nbWord k u with
  | none => s
  | some (_, _, w) =>
    match nbOp w with
    | 0 => s.nbNop k u
    | 1 => s.nbEndI k u
    | 2 => s.nbSet k u
    | 3 => s.nbLdw k u
    | 4 => s.nbLde k u
    | 5 => s.nbLd k u 0
    | 6 => s.nbSt k u
    | 7 => s.nbAdd k u
    | 8 => s.nbMul k u
    | 9 => s.nbFma k u
    | 10 => s.nbActI k u
    | 11 => s.nbLacc k u 0
    | 12 => s.nbLoop k u
    | 13 => s.nbBr k u
    | _ => s

/-! The lace and refresh (R298, R310, R311). -/

/-- The first beat on its way to a unit arrives: into the inbox where the unit has latched its train, else past the unit;
a full inbox stalls it. -/
def State.laceStep (s : State) (k u : Nat) : State :=
  match s.beats k u with
  | [] => s
  | b :: t =>
    let pass : State := match s.nextUnit k u with
      | some v => (s.setBeats k u t).setBeats k v (s.beats k v ++ [b])
      | none => s.setBeats k u t
    match s.unit? k u with
    | none => pass
    | some x =>
      if x.on && x.regs.train = some b.train then
        if x.inbox.length < 4 then (s.setBeats k u t).setUnit k u { x with inbox := x.inbox ++ [b] } else s
      else pass

def State.laceBeat (s : State) (k u : Nat) (b : NbBeat) : State :=
  if decide (k < 4) && decide (u < 1024) && decide ((s.beats k u).head? = some b) then s.laceStep k u else s

/-- A refresh falls due (R310): at once while the unit waits on the lace, else at its next stitch point. -/
def State.refresh (s : State) (k u : Nat) : State :=
  match s.unit? k u with
  | none => s
  | some x =>
    if !x.on then s
    else
      let waiting := match s.nbWord k u with
        | some (_, _, w) => decide (nbOp w = 11) && !x.inbox.any (fun b => x.regs.train = some b.train)
        | none => false
      if waiting then s.stitchPoint k u { x with refreshDue := true } else s.setUnit k u { x with refreshDue := true }

/-- A second refresh falls due first: forced preemption (R311). -/
def State.preempt (s : State) (k u : Nat) : State :=
  match s.unit? k u with
  | none => s
  | some x =>
    if x.on && x.refreshDue then
      (s.setUnit k u { x with buf := [], sent := [], inbox := x.consumed ++ x.inbox, consumed := [], regs := x.snap, refreshDue := false }).bump
        (Reg.KS.FORCED_PREEMPTS k)
    else s

/-! Running a slice to its end. -/

/-- Run a unit until it stops or makes no progress; a beat comes in when LACC waits for one. -/
def State.nbRunUnit (s : State) (k u : Nat) : Nat → State
  | 0 => s
  | fuel + 1 =>
    match s.nbWord k u with
    | none => s
    | some (x, _, w) =>
      if decide (nbOp w = 11) && !x.inbox.any (fun b => x.regs.train = some b.train) then
        if s.beats k u = [] then s else (s.laceStep k u).nbRunUnit k u fuel
      else (s.nbStep k u).nbRunUnit k u fuel

/-- Beats that a unit will not consume pass it. -/
def State.laceDrain (s : State) (k u : Nat) : Nat → State
  | 0 => s
  | fuel + 1 => if s.beats k u = [] then s else (s.laceStep k u).laceDrain k u fuel

/-- All units of a slice, in the order of the lace; 2^17 instructions bound what fits a stitch. -/
def State.nbRunAll (s : State) (k : Nat) : State :=
  (List.range 1024).foldl (fun s u =>
    let s := if (s.unit? k u).isSome then s.nbRunUnit k u (2 ^ 17) else s
    s.laceDrain k u (s.beats k u).length) s

def State.nbStopped (s : State) (k : Nat) : Bool := (s.unitsOf k).all (fun u => (s.unit? k u).all (fun x => !x.on))

/-- The slice leaves the issue: units, beats and windows go, held controller writes happen (R315). -/
def State.nbClear (s : State) (k : Nat) : State :=
  let s := { s with nb := { s.nb with
    units := s.nb.units.filter (fun x => decide (x.1 / 1024 ≠ k)), lace := s.nb.lace.filter (fun x => decide (x.1 / 1024 ≠ k))
    windows := s.nb.windows.filter (fun x => decide (x.1 ≠ k)) } }
  let mine := s.nb.held.filter (fun x => (kwindow x.1).any (fun y => decide (y.1 = k)))
  let s := ({ s with nb := { s.nb with held := s.nb.held.filter (fun x => !mine.contains x) } }).setIssue k none
  mine.foldl (fun s x => s.store x.1 x.2.1 x.2.2) s

/-! Pooling slices (R265, R301). -/

/-- Rows of one bag of a share on K-stack `k`: (unit, bank line), with the row. -/
def State.bagRows (s : State) (k : Nat) (x : EmbShare) (b : Nat) : List (Nat × Nat × ShareRow) :=
  if x.weighted then []
  else x.rows.filterMap (fun r => if r.bag = b then (s.nbUnitOf r.addr).bind (fun p => if p.1 = k then some (p.2.1, p.2.2, r) else none) else none)

def insUnit : List (Nat × Nat) → Nat × Nat → List (Nat × Nat)
  | [], x => [x]
  | y :: t, x => if x.1 < y.1 then x :: y :: t else y :: insUnit t x

/-- Split a bag's rows into trains in which no unit stands twice. -/
def splitTrains : Nat → List (Nat × Nat) → List (List (Nat × Nat))
  | 0, _ => []
  | fuel + 1, l =>
    if l = [] then []
    else
      let first := l.foldl (fun (t : List (Nat × Nat)) r => if t.any (fun y => y.1 = r.1) then t else t ++ [r]) []
      first.foldl insUnit [] :: splitTrains fuel (first.foldl (fun m r => m.erase r) l)

/-- Trains of a share on K-stack `k`, in bag order. -/
def State.shareTrains (s : State) (k : Nat) (j : Job) (x : EmbShare) : List Train :=
  let bags := (x.rows.map (fun r => r.bag)).foldl insNat []
  bags.flatMap (fun b =>
    let rs := (s.bagRows k x b).map (fun r => (r.1, r.2.1))
    (splitTrains rs.length rs).map (fun t => { job := j.id, bag := b, rows := t, scratch := 0, slot := 0 }))

/-- Waiting trains of a K-stack, shares in order of admission. -/
def State.nbTrains (s : State) (k : Nat) : List Train :=
  s.embShares.flatMap (fun x => if x.1.doom = none then s.shareTrains k x.1 x.2 else [])

def Train.tail (t : Train) : Nat := (t.rows.getLast?.map (fun r => r.1)).getD 0

/-- Give each train its scratch lines: the tail's sums follow one another. -/
def placeTrains (base beats : Nat) : List Train → List Train → List Train
  | [], done => done
  | t :: rest, done =>
    let i := (done.filter (fun y => y.tail = t.tail)).length
    placeTrains base beats rest (done ++ [{ t with scratch := base + i * beats, slot := i }])

/-- A unit's entries: (train, bank line, tail's scratch line). -/
def unitEntries (ts : List Train) (u : Nat) : List (Nat × Nat × Option Nat) :=
  (ts.zipIdx).flatMap (fun t => (t.1.rows.filter (fun r => r.1 = u)).map (fun r => (t.2, r.2, if t.1.tail = u then some t.1.scratch else none)))

/-- A unit's data words from 64 on (R301). -/
def poolWords (es : List (Nat × Nat × Option Nat)) (beats : Nat) : List Nat :=
  (es.length + beats * 2 ^ 16) :: es.flatMap (fun e => match e.2.2 with
    | some sc => [e.2.1 + e.1 * 2 ^ 20 + 2 ^ 31, sc]
    | none => [e.2.1 + e.1 * 2 ^ 20])

def trainUnits (ts : List Train) : List Nat := (ts.flatMap (fun t => t.rows.map (fun r => r.1))).foldl insNat []

/-- F of R307 times 144, and the cap's factor of the unit term. -/
def State.nbFactor (s : State) (k : Nat) : Nat × Nat := if s.flag (Reg.KS.CAPPED k) then (162, 2) else (153, 1)

/-- Cost of an issue slice: setup, and the largest term in tenths of a CCLK (R307). -/
def State.nbCostOf (s : State) (k setup chain unit act : Nat) : Nat :=
  let f := s.nbFactor k
  setup + cdiv (f.1 * max chain (max (f.2 * unit) act)) 1440

/-- Largest of a measure over the pseudo-channels that some units lie in. -/
def maxPc (us : List Nat) (f : Nat → Nat) : Nat :=
  let pcs := (us.map (fun u => u / 16)).foldl insNat []
  (pcs.map (fun p => ((us.filter (fun u => u / 16 = p)).map f).sum)).foldl max 0

def kb (n : Nat) : Nat := cdiv n 1024

/-- The first `n` waiting trains, placed, when they fit one slice. -/
def State.poolSlice (s : State) (k n : Nat) : Option (EmbDesc × Nat × List Train) :=
  let ts := (s.nbTrains k).take n
  match ts.head? with
  | none => none
  | some t0 =>
    match s.embShare? t0.job with
    | none => none
    | some (j, x) =>
      let d := x.desc
      let beats := d.dim / 16
      let ts := placeTrains (s.fld (Reg.KS.SCRATCH_BASE k)) beats ts []
      let same := ts.all (fun t => (s.embShare? t.job).any (fun y => decide (y.2.desc.dim = d.dim) && decide (y.2.desc.fmt = d.fmt) && decide (y.1.dom = j.dom)))
      let fits := (trainUnits ts).all (fun u => decide ((poolWords (unitEntries ts u) beats).length ≤ 192)) &&
        ts.all (fun t => decide ((t.slot + 1) * beats ≤ s.fld (Reg.KS.SCRATCH_LINES k)))
      if same && fits && decide (ts.length = n) && decide (n ≤ 1024) then some (d, j.dom, ts) else none

def State.poolNbCost (s : State) (k : Nat) (d : EmbDesc) (ts : List Train) : Nat :=
  let us := trainUnits ts
  let beats := d.dim / 16
  let rows (u : Nat) := (unitEntries ts u).length
  let tails (u : Nat) := ((unitEntries ts u).filter (fun e => e.2.2.isSome)).length
  let unit := (us.map (fun u => 26 * (rows u * (2 + beats) + tails u * 2 * beats))).foldl max 0
  s.nbCostOf k (256 + cdiv (maxPc us (fun u => rows u + tails u)) 4) (26 * (1088 + ts.length * beats)) unit
    (52 * maxPc us (fun u => rows u * kb d.rowBytes + tails u * kb (4 * d.dim)))

/-- Nothing of an earlier slice still uses the K-stack's scratch. -/
def State.scratchFree (s : State) (k : Nat) : Bool := s.embShares.all (fun x => x.2.sums.all (fun y => decide (y.k ≠ k)))

def blankUnit (words : List Nat) (src dst : List (Nat × Nat)) (left : List NbGran) (r : NbRegs) : NbUnit :=
  { on := true, regs := r, snap := r, data := words, buf := [], sent := [], consumed := [], inbox := [], src := src, dst := dst
    left := left, refreshDue := false, bad := false }

/-- Words of a library entry. -/
def State.libCode (s : State) (k e : Nat) : List Nat := (List.range 64).map (fun w => s.fld (Reg.Lib.INSTR k e w))

/-- The issue loads a pooling slice and injects its trains (R298, R300, R301). -/
def State.startPool (s : State) (k n : Nat) : State :=
  match s.poolSlice k n with
  | none => s
  | some (d, dom, ts) =>
    let beats := d.dim / 16
    let s := s.setIssue k (some { kind := 0, code := s.libCode k 0, inFmt := d.fmt, outFmt := 3, dom := dom, job := 0, beats := beats, trains := ts
                                  clipped := 0, poisoned := 0, loadedPoison := false, committed := [] })
    let s := (trainUnits ts).foldl (fun s u =>
      let es := unitEntries ts u
      s.setUnit k u (blankUnit (poolWords es beats) (es.map (fun e => (e.2.1, cdiv d.rowBytes 64)))
        (es.filterMap (fun e => e.2.2.map (fun sc => (sc, beats)))) [] (startRegs s.freshCount))) s
    let zero (t : Nat) : NbBeat := { train := t, vals := List.replicate 16 0#32, poison := false }
    let u0 := (if s.pcGone k 0 then s.nextUnit k 0 else some 0).getD 0
    let s := s.setBeats k u0 ((List.range ts.length).flatMap (fun t => List.replicate beats (zero t)))
    let ws := ts.flatMap (fun (t : Train) => (List.range beats).map (fun b => (k, nbAddr k t.tail (t.scratch + b), 64)))
    let s := { s with nb := { s.nb with windows := s.nb.windows ++ ws } }
    (ts.foldl (fun (s : State) (t : Train) =>
      match s.embShare? t.job with
      | some (j, x) =>
        let gone := t.rows.filterMap (fun r => (s.bagRows k x t.bag).find? (fun y => decide (y.1 = r.1) && decide (y.2.1 = r.2)))
        s.putShare j { x with rows := gone.foldl (fun l y => l.erase y.2.2) x.rows, out := x.out + t.rows.length }
      | none => s) s).fresh

/-- The pooling slice ends: its sums wait for the vector cores. -/
def State.endPool (s : State) (k : Nat) (i : NbIssue) : State :=
  let s := i.trains.foldl (fun s t =>
    match s.embShare? t.job with
    | some (j, x) =>
      s.putShare j { x with out := x.out - t.rows.length
                            sums := x.sums ++ [{ bag := t.bag, k := k, u := t.tail, line := t.scratch, count := t.rows.length }] }
    | none => s) s
  s.nbClear k

/-! Apply slices (R302). -/

/-- Entries of an apply slice: the first `n` of the K-stack, when lists and scratch hold them. -/
def State.applySlice (s : State) (k t n : Nat) : Option (EmbDesc × List (Nat × GradEntry)) :=
  match s.readyStep t with
  | none => none
  | some x =>
    let d := s.readEmb t
    let v := s.tab t
    let es := ((s.nbEntries t k x).take n).map (fun e => (((nbPlace (s.rowAddr v.curSlot d e.row)).map (fun p => p.2.1)).getD 0, e))
    let us := (es.map (fun e => e.1)).foldl insNat []
    let rows (u : Nat) := (es.filter (fun e => e.1 = u)).length
    if decide (1 ≤ n) && decide (es.length = n) && us.all (fun u => decide (3 * rows u ≤ 191) && decide (rows u * (d.dim / 16) ≤ s.fld (Reg.KS.SCRATCH_LINES k))) then
      some (d, es)
    else none

def State.applyNbCost (s : State) (k : Nat) (d : EmbDesc) (es : List (Nat × GradEntry)) : Nat :=
  let us := (es.map (fun e => e.1)).foldl insNat []
  let rows (u : Nat) := (es.filter (fun e => e.1 = u)).length
  let c := if d.opt = 1 then 4 else if d.opt = 2 then 6 else 8
  let acts := kb (2 * d.dim) + (if d.opt = 1 then 0 else kb (2 * d.dim)) + kb (4 * d.dim)
  s.nbCostOf k (256 + cdiv (maxPc us (fun u => 3 * rows u)) 4) 0 ((us.map (fun u => 26 * (rows u * (2 + c * (d.dim / 16))))).foldl max 0)
    (52 * maxPc us (fun u => rows u * acts))

/-- The Shank copies the entries' sums into scratch lines of their banks. -/
def State.startApply (s : State) (k t n : Nat) : State :=
  match s.applySlice k t n with
  | none => s
  | some (d, es) =>
    let beats := d.dim / 16
    (es.zipIdx).foldl (fun s e =>
      let u := e.1.1
      let i := ((es.take e.2).filter (fun y => y.1 = u)).length
      (List.range beats).foldl (fun s b =>
        let data := ((e.1.2.sum.drop (16 * b)).take 16).flatMap (fun x => leBytes 4 x.toNat)
        { s with mem := s.mem.write (nbAddr k u (s.fld (Reg.KS.SCRATCH_BASE k) + i * beats + b)) data d.dom 0 }) s) s

/-! NB_RUN (R303-R306). -/

structure NbDesc where
  n : NbJob
  tag : Nat
  link : Bool
  reservedOk : Bool
  deriving DecidableEq, Repr

def parseNb (ws : List Nat) : NbDesc :=
  let w (i : Nat) := ws.getD i 0
  { tag := w 1, link := bitOf (w 0) 18
    reservedOk := reservedZero ws [0x7FFFF, 2 ^ 64 - 1, 2 ^ 52 - 1, 2 ^ 52 - 1, 2 ^ 52 - 1, 2 ^ 24 - 1, 2 ^ 64 - 1, 0]
    n := { pattern := fieldOf (w 0) 8 4, k := fieldOf (w 0) 12 2, inFmt := fieldOf (w 0) 14 2, outFmt := fieldOf (w 0) 16 2
           a := fieldOf (w 2) 0 52, b := fieldOf (w 3) 0 52, dst := fieldOf (w 4) 0 52, lines := fieldOf (w 5) 0 24
           p0 := fieldOf (w 6) 0 32, p1 := fieldOf (w 6) 32 32 } }

def NbJob.arrays (n : NbJob) : List Nat := [n.a, n.dst] ++ (if n.b = 0 then [] else [n.b])

/-- Lines before the first granule boundary of DST, and the number of runs. -/
def NbJob.head (n : NbJob) : Nat := min n.lines (32 - n.dst / 64 % 32)
def NbJob.runs (n : NbJob) : Nat := 1 + cdiv (n.lines - n.head) 32

/-- Run `i`: its first line and its lines. -/
def NbJob.run (n : NbJob) (i : Nat) : Nat × Nat :=
  if i = 0 then (0, n.head) else (n.head + 32 * (i - 1), min 32 (n.lines - (n.head + 32 * (i - 1))))

/-- Unit of a run and its granule run. -/
def NbJob.gran (n : NbJob) (i : Nat) : Nat × NbGran :=
  let r := n.run i
  let place (a : Nat) := (nbPlace (a + 64 * r.1)).getD (0, 0, 0)
  ((place n.dst).2.1, { a := (place n.a).2.2, b := if n.b = 0 then none else some (place n.b).2.2, d := (place n.dst).2.2, n := r.2 })

/-- Cost of runs `lo` to `lo + m - 1`. -/
def State.nbRunCost (s : State) (n : NbJob) (lo m : Nat) : Nat :=
  let gs := (List.range m).map (fun i => n.gran (lo + i))
  let us := (gs.map (fun g => g.1)).foldl insNat []
  let of (u : Nat) := gs.filter (fun g => g.1 = u)
  s.nbCostOf n.k 256 0 ((us.map (fun u => 26 * n.perLine * ((of u).map (fun g => g.2.n)).sum)).foldl max 0)
    (52 * maxPc us (fun u => ((of u).map (fun g => n.arrays.length * kb (64 * g.2.n))).sum))

def nbWidth (f : Nat) : Nat := if f = 0 then 2 else 1

def State.nbChecks (s : State) (d : Nat) (x : NbDesc) (n : NbJob) : List (Bool × Status) :=
  let inK (a : Nat) := (kwindow a).any (fun y => decide (y.1 = n.k)) && (kwindow (a + 64 * n.lines - 1)).any (fun y => decide (y.1 = n.k))
  [
    (s.flag Reg.G.USER_ENGINE_EN, .refused),
    (n.arrays.all (fun a => inK a && s.inDomain d a (64 * n.lines)), .domainFault),
    (x.reservedOk && n.arrays.all (fun a => decide (a % 64 = 0)) && decide (4 ≤ n.pattern) && s.flag (Reg.Lib.VALID n.k n.pattern) &&
      decide (n.inFmt ≤ 2) && decide (n.outFmt ≤ 2) && decide (1 ≤ n.lines), .refused),
    (decide (nbWidth n.inFmt = nbWidth n.outFmt), .refused),
    (decide (s.pcRetired (kstackOf n.k) < 5), .refused),
    (n.arrays.all (fun a => decide (a % 0x200000 = n.dst % 0x200000)), .refused),
    (!s.anyUnfit d [(.nbIssue, s.nbRunCost n 0 1)], .refused)]

/-- Status of the first check that fails. -/
def State.nbFail (s : State) (d : Nat) (x : NbDesc) (n : NbJob) : Option Status := firstFail (s.nbChecks d x n)

/-- The NB_RUN completion (R306). -/
def nbWords (tag : Nat) (st : Status) (n : NbJob) (epoch stitches : Nat) : List Nat :=
  [tag, st.code + n.clipped % 2 ^ 32 * 2 ^ 32, epoch, stitches, n.poisoned % 2 ^ 32]

/-- Take the NB_RUN chain at the head of a ring: its entries are used as they stand now (R296, R304). -/
def State.takeNb (s : State) (d r : Nat) : Option State :=
  match s.linkChain d r 0x40 18 (s.visibleCount d r + 1) 0 with
  | none => none
  | some (m, sound) =>
    if s.compRoom d r < m then none
    else
      let xs := (List.range m).map (fun i =>
        let x := parseNb (s.words8 (s.slotAddr d r i))
        { x with n := { x.n with code := s.libCode x.n.k x.n.pattern, perLine := s.fld (Reg.Lib.UCLK_PER_LINE x.n.k x.n.pattern) } })
      let fail := ((xs.filterMap (fun x => s.nbFail d x x.n)).head?).or (if sound then none else some Status.refused)
      let chain := s.sched.nextJob
      let s0 := s
      some (xs.foldl (fun s x =>
        let s := s.takeHead d r 1
        match fail with
        | some st =>
          let s := if failsAtLast (s0.nbChecks d x x.n) 0 then s.countShareRefused d [(.nbIssue, s0.nbRunCost x.n 0 1)] else s
          (s.countEnd d x.tag st).postRecord d r st (nbWords x.tag st {} s.now 0)
        | none => (s.addJob d r 0x40 x.tag (.nbRun { x.n with chain := chain })).1) s)

def State.nbJob? (s : State) (id : Nat) : Option (Job × NbJob) :=
  match s.job? id with
  | some j => match j.work with
    | .nbRun n => if j.doom = none then some (j, n) else none
    | _ => none
  | none => none

def State.nbChain (s : State) (chain : Nat) : List (Job × NbJob) :=
  s.sched.jobs.filterMap (fun j => match j.work with | .nbRun n => if n.chain = chain then some (j, n) else none | _ => none)

/-- Completions of a chain's first members that have ended. -/
def State.postNb (s : State) : List (Job × NbJob) → State
  | [] => s
  | (j, n) :: t =>
    match n.ended with
    | some st =>
      let s := s.countEnd j.dom j.tag st
      ((s.postRecord j.dom j.ring st (nbWords j.tag st n j.epoch (s.stitches j.epoch))).dropJob j.id).postNb t
    | none => s

/-- Lines of memory that hold nothing the manual names: free bytes (R206, R316). -/
def State.undefine (s : State) (a n dom : Nat) : State :=
  { s with mem := s.mem.write a ((List.range n).map (fun i => Config.freeByte s.freshCount (a + i))) dom 0 }.fresh

/-- End a command: it and, unless it ended OK, every later member of its chain. After an overrun the lines of DST that
were not committed are undefined (R316). -/
def State.endNb (s : State) (j : Job) (n : NbJob) (st : Status) : State :=
  let s := if st = .overrun then
      (List.range n.lines).foldl (fun s i => if n.committed.contains (n.dst + 64 * i) then s else s.undefine (n.dst + 64 * i) 64 j.dom) s
    else s
  let s := (s.nbChain n.chain).foldl (fun s x =>
    if decide (x.1.id = j.id) || (decide (st ≠ .ok) && decide (j.id < x.1.id) && decide (x.2.ended = none)) then
      let m : NbJob := if x.1.id = j.id then n else x.2
      s.putJob { x.1 with work := .nbRun { m with ended := some st } }
    else s) s
  s.postNb (s.nbChain n.chain)

/-- Earlier members of the chain whose output this one uses have ended. -/
def State.nbClearChain (s : State) (j : Job) (n : NbJob) : Bool :=
  (s.nbChain n.chain).all (fun x => decide (j.id ≤ x.1.id) || x.2.ended.isSome ||
    !n.arrays.any (fun a => overlaps (a, 64 * n.lines) (x.2.dst, 64 * x.2.lines)))

/-- The issue loads an NB_RUN slice: each unit runs its granules one after another. -/
def State.startNb (s : State) (j : Job) (n : NbJob) (lo m : Nat) : State :=
  let gs := (List.range m).map (fun i => n.gran (lo + i))
  let us := (gs.map (fun g => g.1)).foldl insNat []
  let s := s.setIssue n.k (some { kind := 1, code := n.code, inFmt := n.inFmt, outFmt := n.outFmt, dom := j.dom, job := j.id, beats := 0, trains := []
                                  clipped := 0, poisoned := 0, loadedPoison := false, committed := [] })
  let s := us.foldl (fun s u =>
    match (gs.filter (fun g => g.1 = u)).map (fun g => g.2) with
    | [] => s
    | g :: t => s.setUnit n.k u (blankUnit [n.p0, n.p1] g.src [(g.d, g.n)] t (g.regs s.freshCount))) s
  let a := n.run lo
  let b := n.run (lo + m - 1)
  ({ s with nb := { s.nb with windows := s.nb.windows ++ [(n.k, n.dst + 64 * a.1, 64 * (b.1 + b.2 - a.1))] } }).fresh

/-- An NB_RUN slice ends; the last one completes the command. -/
def State.endNbSlice (s : State) (k : Nat) (i : NbIssue) (lo m : Nat) : State :=
  let bad := (s.unitsOf k).any (fun u => (s.unit? k u).any (fun x => x.bad))
  let s := s.nbClear k
  match s.nbJob? i.job with
  | none => s
  | some (j, n) =>
    let n := { n with done := (lo, m) :: n.done, clipped := n.clipped + i.clipped, poisoned := n.poisoned + i.poisoned
                      loadedPoison := n.loadedPoison || i.loadedPoison, committed := i.committed.foldl insNat n.committed }
    let s := s.putJob { j with work := .nbRun n }
    if bad then s.doomJob j.id .domainFault
    else if (n.done.map (fun x => x.2)).sum = n.runs then s.endNb j n (if n.loadedPoison then .poisoned else .ok)
    else s

/-! Costs (R300, R307, R309). -/

/-- Cost of an issue slice, where it may run now; an issue runs one slice at a time, and none at 95 °C or more. -/
def State.nbCost (s : State) : SliceKind → Option Nat
  | .nbPool k n =>
    if (s.issue? k).isSome || s.flag (Reg.KS.HOT_STOP k) || decide (n = 0) || !s.scratchFree k then none
    else (s.poolSlice k n).map (fun x => s.poolNbCost k x.1 x.2.2)
  | .nbApply k t n =>
    if (s.issue? k).isSome || s.flag (Reg.KS.HOT_STOP k) || !s.scratchFree k ||
        s.sched.slices.any (fun x => match x.kind with | .nbApply k' t' _ => decide (k' = k) && decide (t' = t) | _ => false) then none
    else (s.applySlice k t n).map (fun x => s.applyNbCost k x.1 x.2)
  | .nbRun id lo m =>
    match s.nbJob? id with
    | some (j, n) =>
      if (s.issue? n.k).isNone && !s.flag (Reg.KS.HOT_STOP n.k) && decide (1 ≤ m) && decide (lo + m ≤ n.runs) && !n.done.any (overlaps (lo, m)) && s.nbClearChain j n then
        some (s.nbRunCost n lo m)
      else none
    | none => none
  | _ => none

/-- Work of an issue slice as it starts. -/
def State.nbStart (s : State) : SliceKind → State
  | .nbPool k n => s.startPool k n
  | .nbApply k t n => s.startApply k t n
  | .nbRun id lo m => match s.nbJob? id with | some (j, n) => s.startNb j n lo m | none => s
  | _ => s

/-! Checks of a library entry at its commit (R296). -/

/-- Fields that an operation does not use are zero. -/
def nbFieldsOk (w : Nat) : Bool :=
  let mask : Option Nat := match nbOp w with
    | 0 | 1 => some 0
    | 2 => some 0x1CFFFFF
    | 3 => some 0x1C001FF
    | 4 => some 0x1F80000 
    | 5 => some 0x1F81E00
    | 6 => some 0x1F81E00
    | 7 | 8 => some 0x1FF0000
    | 9 => some 0x1FFE000
    | 10 => some 0x1FFFC00
    | 11 => some 0x1F81E00
    | 12 => some 0x1C000FF
    | 13 => some 0x1CFF
    | _ => none
  match mask with
  | some m => decide (Nat.land (w % 2 ^ 25) (2 ^ 25 - 1 - m) = 0)
  | none => false

/-- An entry passes its check: `len` instructions. -/
def libOk (code : List Nat) (len : Nat) : Bool :=
  let ws := code.take len
  ws.all nbFieldsOk && ws.all (fun w => !(decide (nbOp w = 12) || decide (nbOp w = 13)) || decide (nbW w < len)) && ws.any (fun w => bitOf w 25) &&
  ws.all (fun w => decide (nbOp w ≠ 11) && decide (nbOp w ≠ 4))

end Sys2Proof.Machine
end

