-- ==== Sys2Proof/Machine/Coherence.lean ====
section
/-! DEFINITION. The Wymer link, the directory and its agents (R354-R369, R375-R377). -/

namespace Sys2Proof.Machine

open Sys2Proof

def State.setLink (s : State) (l : LinkSt) : State := { s with link := l }

/-! The link (R355-R357). -/

/-- UP32 or UP16. -/
def State.linkUp (s : State) : Bool := decide (s.fld Reg.Link.LINK_STATE = 2) || decide (s.fld Reg.Link.LINK_STATE = 3)

def State.classOf (s : State) (a : Nat) : Nat := s.fld (Reg.Agent.CLASS a)
def State.live (s : State) (a : Nat) : Bool := decide (s.fld (Reg.Agent.STATE a) = 1)

/-- Agents that have never been live come into service: those of the node at once, those behind the link once it is up. -/
def State.wakeAgents (s : State) : State :=
  (List.range 128).foldl (fun s a =>
    if decide (s.fld (Reg.Agent.STATE a) = 0) && decide (s.classOf a ≠ 0) && (decide (a < 3) || s.linkUp) then s.setFld (Reg.Agent.STATE a) 1 else s) s

/-- A cache: it may hold lines and is tracked. -/
def State.caching (s : State) (a : Nat) : Bool := decide (a < 64) && (decide (s.classOf a = 2) || decide (s.classOf a = 3))

/-! Memory behind the directory. -/

/-- A line that no slice and no request changes: home data as the link sees it. -/
def State.lineData (s : State) (l : Nat) : List Byte := s.read (64 * l) 64
def State.linePoison (s : State) (l : Nat) : Bool := s.mem.linePoison l

/-- The home writes bytes of a line to memory: pages and sectors are touched, copies are not the concern here.
A write that finds no frame is discarded and logged (R331). -/
def State.homeWrite (s : State) (l : Nat) (data : List Byte) (dom : Nat) : State :=
  if s.noRoom (64 * l) 64 then s.log 0x08 1 dom 0 0 (64 * l) 0 else
  let s := (sectorsOf (64 * l) 64).foldl State.touchWrite s
  if s.nbWindow (64 * l) 64 then { s with nb := { s.nb with held := s.nb.held ++ [(64 * l, data, dom)] } }
  else { s with mem := s.mem.write (64 * l) data dom 0 }

/-- Merge `new` into `old` under a byte mask. -/
def mergeMask (mask : Nat) (new old : List Byte) : List Byte :=
  (List.range 64).map (fun i => if bitOf mask i then new.getD i 0#8 else old.getD i 0#8)

/-- A dirty line comes back: it fills every byte that the node has not written meanwhile (log entry 21). -/
def State.dirtyBack (s : State) (l : Nat) (e : DirEntry) (data : List Byte) (poison : Bool) : State :=
  if poison then
    if e.nodeMask = 0 then
      let s := (sectorsOf (64 * l) 64).foldl State.touchWrite s
      { s with mem := s.mem.poisonLine l e.dom }
    else s
  else s.homeWrite l (mergeMask e.nodeMask (s.lineData l) data) e.dom

/-- Stack that holds a line, and the agent number of its Shank's stack cache. -/
def State.stackOfLine (s : State) (l : Nat) : Option Nat :=
  match kwindow (64 * l) with
  | some (k, _) => some (kstackOf k)
  | none =>
    if 64 * l < tieredEnd then
      let g := s.page (l / 1024)
      if g.framed then some g.stack else none
    else none

def State.shankCache (s : State) (l : Nat) : Option Nat := (s.stackOfLine l).map (fun k => if k < 6 then 0 else 1)

/-! Directory room (R360, R362). -/

def State.dirSetOf (s : State) (l : Nat) : List (Nat × DirEntry) := s.link.dir.filter (fun x => decide (Config.dirSet x.1 = Config.dirSet l))

/-- Entry to evict: S before E and M, then the fewest holders; among equals one is free to choose (log entry 18). -/
def State.dirVictim (s : State) (l : Nat) : Option Nat :=
  let c := (s.dirSetOf l).filter (fun x => x.2.req.isNone)
  let key (x : Nat × DirEntry) : Nat := (if x.2.st = 1 then 0 else 1000) + x.2.holders.length
  let best := (c.map key).foldl min 100000
  match c.filter (fun x => key x = best) with
  | [] => none
  | v => (v[Config.pick s.freshCount v.length % max 1 v.length]?).map (fun x => x.1)

/-- Invalidate every copy of a line for a request of the node's own. -/
def State.invalidate (s : State) (l op : Nat) : State :=
  let e := s.dir l
  let hs := e.holders.filter (· ≠ 2)
  if hs = [] then s.setDir l {}
  else s.sendSnoops l { e with nodeMask := 0 } { op := op, agent := 2, txn := 0, line := l, dom := 0, data := [], mask := 0, target := 0 }
    (hs.map (fun a => { agent := a, kind := 2, attempt := 0 }))

/-- An entry is free for the line: true when it has one or its set has room, else a back-invalidation is begun. -/
def State.dirRoom (s : State) (l : Nat) : State × Bool :=
  if s.dir l ≠ {} || decide ((s.dirSetOf l).length < 16) then (s, true)
  else match s.dirVictim l with
    | some v =>
      let s := (s.fresh.bump Reg.Link.BACK_INVAL).invalidate v 6
      (s, decide ((s.dirSetOf l).length < 16))
    | none => (s, false)

/-! Serving a request (R361-R363, R366, R367). -/

/-- The line's page lies in memory or its data is staged; else it is asked for (R324, R332, R333); one that
may lie in a set not yet scanned waits (R486). -/
def State.lineReady (s : State) (l : Nat) : State × Bool :=
  if tieredEnd ≤ 64 * l then (s, decide (flashEnd ≤ 64 * l) || !s.unscannedSector (l / 64))
  else if s.unscanned (l / 1024) then (s, false)
  else
    let p := l / 1024
    match (s.page p).st with
    | .resident | .writing | .unbacked => (s, true)
    | .fetching => (s, false)
    | .flash =>
      if s.flash.staged.contains p then (s.setFlash { s.flash with staged := s.flash.staged.filter (· ≠ p) }, true)
      else if s.memShort then (s.setFlash { s.flash with stageReq := insNat s.flash.stageReq p }, false)
      else (s.fetchPage p, false)

/-- Complete a request with its line. -/
def State.sendLine (s : State) (r : LinkReq) : State :=
  if r.agent = 2 || !s.live r.agent then s else s.toLink (.cmpData r.agent r.txn r.line (s.lineData r.line) (s.linePoison r.line))

def State.sendCmp (s : State) (r : LinkReq) : State := if r.agent = 2 || !s.live r.agent then s else s.toLink (.cmp r.agent r.txn)

/-- Stack cache or neighbour that forwards a shared line to a privileged requester (R363). -/
def State.forwarder (s : State) (r : LinkReq) (e : DirEntry) : Option Nat :=
  match s.shankCache r.line with
  | none => none
  | some c =>
    if bitOf e.sharers c && decide (c ≠ r.agent) && (decide (r.agent = 3) || decide (r.agent < 2)) then some c else none

/-- Bytes that a write request leaves in the line, and whether it stays poisoned (R366). -/
def State.finishWrite (s : State) (r : LinkReq) : State :=
  let l := r.line
  let s := if r.op = 4 then
      if s.linePoison l then s.bump Reg.Link.ACCESS_ERRORS
      else s.homeWrite l (mergeMask r.mask r.data (s.lineData l)) r.dom
    else s.homeWrite l r.data r.dom
  s.sendCmp r

/-- The conditions of a WR_HINT (R367). -/
def State.hintOk (s : State) (r : LinkReq) : Bool :=
  s.flag Reg.Link.HINT_EN && s.flag (Reg.Agent.COMPAT r.agent) && s.caching r.target && s.live r.target

/-- The transaction of a line ends: the requester is answered and the entry takes its new state. -/
def State.finishTxn (s : State) (l : Nat) : State :=
  let e := s.dir l
  match e.req with
  | none => s
  | some r =>
    let alive := s.live r.agent || decide (r.agent = 2)
    let base : DirEntry := { st := e.st, owner := e.owner, sharers := e.sharers, dom := e.dom }
    match r.op with
    | 0 =>
      -- sharers: those that keep a copy after the snoops
      let s := if e.fwd then s else s.sendLine r
      if !alive then s.setDir l (if e.sharers = 0 then {} else { base with st := 1 })
      else if e.sharers = 0 then s.setDir l { st := 2, owner := r.agent, dom := r.dom }
      else s.setDir l { st := 1, sharers := e.sharers ||| 2 ^ r.agent, dom := e.dom }
    | 1 =>
      let s := if e.fwd then s else s.sendLine r
      if !alive then
        if e.fwd then (s.setDir l { st := 3, owner := r.agent, dom := r.dom }).reclaim l else s.setDir l {}
      else s.setDir l { st := 3, owner := r.agent, dom := r.dom }
    | 2 =>
      let s := if e.fwd then s else s.sendLine r
      s.setDir l (if e.st = 0 then {} else if e.st = 1 then base else { base with sharers := 0 })
    | 3 | 4 => (s.setDir l {}).finishWrite r
    | 5 =>
      let s := (s.setDir l {}).finishWrite r
      if s.hintOk r then
        s.sendSnoops l { dom := r.dom } { r with op := 12 } [{ agent := r.target, kind := 3, attempt := 0 }]
      else s.bump Reg.Link.HINT_DROPPED
    | 8 => s.setDir l (if e.sharers = 0 then {} else { base with st := 1 })
    | 12 => s.setDir l (if e.st = 2 then base else {})
    | _ => s.setDir l {}

/-- Begin a transaction with the snoops named; without any it ends at once. -/
def State.beginTxn (s : State) (e : DirEntry) (r : LinkReq) (xs : List Snoop) : State :=
  let s := s.sendSnoops r.line { e with nodeMask := 0, fwd := false } r xs
  if xs = [] then s.finishTxn r.line else s

/-- The internal requester's own copy answers a snoop at once: it is dropped (R358). -/
def DirEntry.dropNode (e : DirEntry) : DirEntry :=
  match e.st with
  | 1 => let sh := if bitOf e.sharers 2 then e.sharers - 4 else e.sharers; if sh = 0 then { e with st := 0, sharers := 0 } else { e with sharers := sh }
  | 2 => if e.owner = 2 then { e with st := 0 } else e
  | _ => e

/-- Serve one request on a line that is not B. -/
def State.serve (s : State) (r : LinkReq) : State :=
  let l := r.line
  let e := s.dir l
  let snoop (kind : Nat) (as : List Nat) : List Snoop := as.map (fun a => { agent := a, kind := kind, attempt := 0 })
  match r.op with
  | 0 | 2 | 8 =>
    if r.op = 0 && e.st = 2 && e.owner = 2 then
      -- the node's clean copy stays shared
      s.beginTxn { e with st := 1, sharers := 4 } r []
    else match e.st with
      | 0 => s.beginTxn e r []
      | 1 =>
        match s.forwarder r e with
        | some c => s.beginTxn e r (snoop 0 [c])
        | none => s.beginTxn e r []
      | _ =>
        if e.owner = r.agent then s.beginTxn { dom := e.dom } r []
        else s.beginTxn { e with sharers := 0 } r (snoop 0 [e.owner])
  | 1 =>
    let e := e.dropNode
    match e.st with
    | 0 => s.beginTxn e r []
    | 1 =>
      let others := (bitsSet e.sharers 64).filter (· ≠ r.agent)
      match s.forwarder r e with
      | some c => s.beginTxn { e with sharers := 0 } r (snoop 1 [c] ++ snoop 2 (others.filter (· ≠ c)))
      | none => s.beginTxn { e with sharers := 0 } r (snoop 2 others)
    | _ => if e.owner = r.agent then s.beginTxn { dom := e.dom } r [] else s.beginTxn { e with sharers := 0 } r (snoop 1 [e.owner])
  | 3 | 4 | 5 =>
    let e := e.dropNode
    s.beginTxn e r (snoop 2 (e.holders.filter (· ≠ r.agent)))
  | 10 =>
    let mine := (decide (e.st = 2) || decide (e.st = 3)) && decide (e.owner = r.agent)
    let s := if mine then (s.setDir l {}).dirtyBack l { dom := r.dom } r.data (decide (r.mask = 1)) else s
    s.sendCmp r
  | _ =>
    let s :=
      if decide (e.st = 1) && bitOf e.sharers r.agent then
        s.setDir l (if e.sharers = 2 ^ r.agent then {} else { e with sharers := e.sharers - 2 ^ r.agent })
      else if decide (e.st = 2) && decide (e.owner = r.agent) then s.setDir l {}
      else s
    s.sendCmp r

/-- The request may begin now: its data is there, its entry has room. -/
def State.canServe (s : State) (r : LinkReq) : State × Bool :=
  let x := if r.op ≤ 2 || decide (r.op = 8) then s.lineReady r.line else (s, true)
  if !x.2 then x
  else if r.op ≤ 1 then x.1.dirRoom r.line
  else x

/-- One pass over the waiting requests, in order of arrival: of one line the first alone may begin (R361). -/
def State.drivePass (s : State) : List LinkReq → List Nat → State
  | [], _ => s
  | r :: t, seen =>
    if seen.contains r.line || (s.dir r.line).req.isSome then s.drivePass t (r.line :: seen)
    else
      let s := s.reclaim r.line
      let x := s.canServe r
      if x.2 then
        let s := { x.1 with link := { x.1.link with waiting := x.1.link.waiting.erase r } }
        (s.serve r).drivePass t seen
      else x.1.drivePass t (r.line :: seen)

/-- Serve what can be served: passes until none of the waiting requests is left or able. -/
def State.drive (s : State) : State :=
  let rec go : Nat → State → State
    | 0, s => s
    | fuel + 1, s =>
      let t := s.drivePass s.link.waiting []
      if t.link.waiting.length < s.link.waiting.length then go fuel t else t
  go (s.link.waiting.length + 1) s

/-! Requests arrive (R358, R359, R368). -/

/-- The class of message an agent may send (R359). -/
def State.mayAsk (s : State) (r : LinkReq) : Bool :=
  match r.op with
  | 0 | 1 | 10 | 11 => s.caching r.agent
  | 5 => s.flag (Reg.Agent.COMPAT r.agent)
  | _ => true

/-- Fields in range: a line below 2^46, whole data, a 64-bit mask, a domain of 6 bits. -/
def LinkReq.wf (r : LinkReq) : Bool :=
  decide (r.line < 2 ^ 46) && decide (r.dom < 64) && decide (r.mask < 2 ^ 64) && decide (r.target < 128) &&
  (decide (r.op ≤ 2) || decide (r.op = 11) || decide (r.data.length = 64))

/-- An uncorrectable entry is recovered: every live cache is told to give the line up, and the entry becomes I (R435). -/
def State.dirRecover (s : State) (l : Nat) : State :=
  if s.dir l = {} || (s.dir l).req.isSome then s
  else
    let as := (List.range 64).filter (fun a => s.caching a && s.live a && decide (a ≠ 2))
    let s := s.bump Reg.Ras.DIR_RECOVERED
    if as = [] then s.setDir l {}
    else s.sendSnoops l {} { op := 9, agent := 2, txn := 0, line := l, dom := 0, data := [], mask := 0, target := 0 }
      (as.map (fun a => { agent := a, kind := 2, attempt := 0 }))

/-- A request of an agent. `dirErr`: its directory entry is found uncorrectable. -/
def State.request (s : State) (r : LinkReq) (dirErr : Bool) : State :=
  if 128 ≤ r.agent then
    (s.bump Reg.Link.PROTO_ERRORS).log 0x08 1 r.dom 12 r.agent (64 * r.line) (Config.msgClass r.op)
  else if 2 < r.agent && !s.linkUp then s
  else if r.agent = 2 || s.classOf r.agent = 0 || !s.live r.agent then s.bump Reg.Link.ACCESS_ERRORS
  else if !r.wf || !(s.mayAsk r || decide (r.op = 5)) then
    ((s.bump Reg.Link.PROTO_ERRORS).log 0x08 1 r.dom 12 r.agent (64 * r.line) (Config.msgClass r.op)).toLink (.errAccess r.agent r.txn)
  else if !s.mayReach r.dom (64 * r.line) then
    ((s.bump Reg.Link.ACCESS_ERRORS).log 0x08 1 r.dom 12 r.agent (64 * r.line) (Config.msgClass r.op)).toLink (.errAccess r.agent r.txn)
  else
    let s := s.sampleAccess (64 * r.line)
    let s := if dirErr then s.dirRecover r.line else s
    ({ s with link := { s.link with waiting := s.link.waiting ++ [r] } }).drive

/-! Responses (R363, R365, R367, R369). -/

/-- A response with an attempt number: the snoop it answers, or a count of what is wrong with it. -/
def State.answered (s : State) (agent line attempt : Nat) (f : DirEntry → Snoop → Option State) : State :=
  if s.classOf agent = 0 || !s.live agent then s.bump Reg.Link.ACCESS_ERRORS
  else
    let e := s.dir line
    match e.snoops.find? (fun x => x.agent = agent) with
    | none => s.bump Reg.Link.PROTO_ERRORS
    | some x =>
      if x.attempt = attempt then
        match f { e with snoops := e.snoops.filter (fun y => y.agent ≠ agent) } x with
        | some t => if (t.dir line).snoops = [] then (t.finishTxn line).drive else t
        | none => s.bump Reg.Link.PROTO_ERRORS
      else if attempt < x.attempt then s
      else s.bump Reg.Link.PROTO_ERRORS

/-- Sharers after one agent gives up its copy. -/
def DirEntry.without (e : DirEntry) (a : Nat) : DirEntry := if bitOf e.sharers a then { e with sharers := e.sharers - 2 ^ a } else e

def State.rspI (s : State) (agent line attempt : Nat) : State :=
  s.answered agent line attempt (fun e x =>
    let e := e.without agent
    if x.kind = 3 then some (s.setDir line { e with st := 2, owner := agent })
    else some (s.setDir line (if e.st ≠ 1 && e.owner = agent then { e with st := 0 } else e)))

def State.rspS (s : State) (agent line attempt : Nat) : State :=
  s.answered agent line attempt (fun e x =>
    if x.kind = 3 then some (s.setDir line { e with st := 2, owner := agent })
    else if x.kind = 0 then some (s.setDir line (if e.st = 1 then e else { e with sharers := e.sharers ||| 2 ^ agent }))
    else none)

/-- The line was forwarded; a dirty line is also written to memory when it becomes shared. -/
def State.rspFwd (s : State) (agent line attempt : Nat) (data : List Byte) (poison : Bool) : State :=
  s.answered agent line attempt (fun e x =>
    if x.kind = 0 then
      let dirty := decide (2 ≤ e.st) && e.req.any (fun r => r.op ≠ 2) && (poison || decide (data ≠ s.lineData line))
      let s := if dirty then s.dirtyBack line e data poison else s
      some (s.setDir line { e with fwd := true, sharers := if e.st = 1 then e.sharers else e.sharers ||| 2 ^ agent })
    else if x.kind = 1 then some (s.setDir line { e with fwd := true })
    else none)

/-- A dirty line returned with the response: home memory takes it, unless the request discards it (R366). -/
def State.rspDirty (s : State) (agent line attempt : Nat) (data : List Byte) (poison : Bool) : State :=
  s.answered agent line attempt (fun e x =>
    if x.kind = 3 then none
    else
      let drop := e.req.any (fun r => decide (r.op = 3) || decide (r.op = 5))
      let s := if drop then s else s.dirtyBack line e data poison
      some (s.setDir line (if x.kind = 0 then { e with sharers := e.sharers ||| 2 ^ agent, st := if e.st = 3 then 2 else e.st } else { e with st := 0 })))

def State.rspDecline (s : State) (agent line attempt : Nat) : State :=
  s.answered agent line attempt (fun e x => if x.kind = 3 then some ((s.bump Reg.Link.HINT_DECLINED).setDir line e) else none)

/-! Dead agents (R375-R377). -/

/-- A snoop outstanding to a dead agent counts as answered (R376 step 2). -/
def State.answerDead (s : State) (a l : Nat) : State :=
  let e := s.dir l
  if e.snoops.any (fun x => x.agent = a) then
    let e := { e with snoops := e.snoops.filter (fun x => x.agent ≠ a) }
    let s := s.setDir l e
    if e.snoops = [] then s.finishTxn l else s
  else s

/-- An agent dies: it is RECLAIMING, its requests are dropped, its walk starts. -/
def State.kill (s : State) (a : Nat) : State :=
  let st := s.fld (Reg.Agent.STATE a)
  if a < 3 || 128 ≤ a || s.classOf a = 0 || !(st = 1 || st = 2) then s
  else
    let s := (s.setFld (Reg.Agent.STATE a) 2).setFld Reg.Link.RECLAIM_ACTIVE 1
    let s := s.setLink { s.link with walk := insNat s.link.walk a, walkLogged := 0, waiting := s.link.waiting.filter (fun r => r.agent ≠ a) }
    let busy := (s.link.dir.filter (fun x => x.2.snoops.any (fun y => y.agent = a))).map (fun x => x.1)
    (busy.foldl (fun s l => (s.reclaim l).answerDead a l) s).drive

/-- The walk ends: every entry is reclaimed, the agents are DEAD and their deaths reported with the lines poisoned. -/
def State.walkEnd (s : State) : State :=
  if s.link.walk = [] then s
  else
    let s := ((s.link.dir.filter (fun x => x.2.req.isNone)).map (fun x => x.1)).foldl State.reclaim s
    let s := s.link.walk.foldl (fun s a => (s.setFld (Reg.Agent.STATE a) 3).log 0x0D 2 0 12 a 0 s.link.walkLogged) s
    (s.setLink { s.link with walk := [], walkLogged := 0 }).setFld Reg.Link.RECLAIM_ACTIVE 0

/-- Revive a DEAD agent (R377). -/
def State.revive (s : State) (a : Nat) : State :=
  if decide (s.fld (Reg.Agent.STATE a) = 3) && decide (a < 128) && s.linkUp then s.setFld (Reg.Agent.STATE a) 1
  else s.bump Reg.Link.ACCESS_ERRORS

/-- A snoop misses its slot (R365). -/
def State.snoopLate (s : State) (a l : Nat) : State :=
  let e := s.dir l
  match e.snoops.find? (fun x => x.agent = a) with
  | none => s
  | some x =>
    if a < 3 || decide (s.fld Reg.Link.LINK_STATE = 1) then s
    else
      let s := s.bump Reg.Link.SNOOP_LATE
      if s.fld Reg.Link.SNOOP_RETRY ≤ x.attempt then s.kill a
      else
        let y := { x with attempt := x.attempt + 1 }
        (s.setDir l { e with snoops := e.snoops.map (fun z => if z = x then y else z) }).toLink (y.msg l ((e.req.map (fun r => r.agent)).getD 2))

/-! Link events (R356, R357). -/

/-- Agents behind the link die when it leaves UP32 or UP16 for DOWN or FAILED. -/
def State.killBehind (s : State) : State := (List.range 125).foldl (fun s i => s.kill (i + 3)) s

/-- The companion drives the lanes. -/
def State.linkTraining (s : State) : State := if s.fld Reg.Link.LINK_STATE = 0 && decide (1 ≤ s.fld Reg.Start.WAVES_RUN) then s.setFld Reg.Link.LINK_STATE 1 else s

/-- Snoops in flight go out again when the link is up. -/
def State.reissueSnoops (s : State) : State :=
  s.link.dir.foldl (fun s x => x.2.snoops.foldl (fun s y => s.toLink (y.msg x.1 ((x.2.req.map (fun r => r.agent)).getD 2))) s) s

/-- Training ends at 64 GT/s: a link that has retrained at ×16 keeps that width. -/
def State.linkTrained (s : State) (wide : Bool) : State :=
  if s.fld Reg.Link.LINK_STATE = 1 then
    let narrow := s.link.narrow || !wide
    let s := (s.setLink { s.link with narrow := narrow }).setFld Reg.Link.LINK_STATE (if narrow then 3 else 2)
    s.wakeAgents.reissueSnoops
  else s

/-- Training exceeds RETRAIN_MAX_US. -/
def State.retrainTimeout (s : State) : State :=
  if s.fld Reg.Link.LINK_STATE = 1 then (s.setFld Reg.Link.LINK_STATE (if s.flag Reg.Link.HALF_RETIRED then 4 else 0)).killBehind else s

def State.partnerLoss (s : State) : State := if s.linkUp then (s.setFld Reg.Link.LINK_STATE 0).killBehind else s

/-- A flit is replayed: a transient upset (R357, R443). -/
def State.flitReplay (s : State) : State := if s.linkUp then (s.bump Reg.Link.FLIT_REPLAYS).bump Reg.Ras.TRANSIENT_COUNT else s

/-- A lane's fault is permanent: its half is retired and the link retrains at ×16; a second one fails the link. -/
def State.laneFault (s : State) (lane : Nat) : State :=
  if !s.linkUp || 32 ≤ lane then s
  else
    let s := (s.bump Reg.Ras.PERM_EVENTS).log 0x03 1 0 4 lane 0 1
    let s := s.log 0x04 2 0 4 lane 0 6
    let s := { s with ras := { s.ras with retireRecord := s.ras.retireRecord ++ [(4, lane)] } }
    if s.flag Reg.Link.HALF_RETIRED || decide (s.fld Reg.Link.LINK_STATE = 3) then (s.setFld Reg.Link.LINK_STATE 4).killBehind
    else
      let s := (s.setFld Reg.Link.HALF_RETIRED 1).setFld Reg.Link.LOW_HALF (b2n (decide (16 ≤ lane)))
      (s.setLink { s.link with narrow := true }).setFld Reg.Link.LINK_STATE 1

/-! The node as requester (R358, R372; log entry 21). -/

/-- A range of lines that a slice or a ring reader is to read: copies in E or M are first asked back to shared; true when
none is left. -/
def State.nodeReads (s : State) (ls : List Nat) : State × Bool :=
  ls.foldl (fun x l =>
    let s := x.1.reclaim l
    let e := s.dir l
    if e.req.isSome then (s, false)
    else if decide (e.st ≥ 2) && decide (e.owner ≠ 2) then
      (s.serve { op := 8, agent := 2, txn := 0, line := l, dom := 0, data := [], mask := 0, target := 0 }, false)
    else (s, x.2)) (s, true)

/-- Keep a shared copy of a ring's software line for the internal requester. -/
def State.nodeCopy (s : State) (l : Nat) : State :=
  let e := s.dir l
  if e.req.isSome then s
  else match e.st with
    | 0 => let x := s.dirRoom l; if x.2 then x.1.setDir l { st := 2, owner := 2 } else x.1
    | 1 => s.setDir l { e with sharers := e.sharers ||| 4 }
    | _ => s

end Sys2Proof.Machine
end

