-- ==== Sys2Proof/Machine/Rings.lean ====
section
/-! DEFINITION. Work rings: the software line, the head descriptor, and who takes it (R12, R370-R374, R563); JOURNAL_READ
(R349). -/

namespace Sys2Proof.Machine

open Sys2Proof

/-! JOURNAL_READ (R349). -/

structure JReadDesc where
  mask : Nat
  number : Nat
  allParts : Bool
  tag : Nat
  dst : Nat
  fromEpoch : Nat
  part : Nat
  max : Nat
  reservedOk : Bool
  deriving DecidableEq, Repr

def parseJRead (ws : List Nat) : JReadDesc :=
  let w (i : Nat) := ws.getD i 0
  { mask := fieldOf (w 0) 8 3, number := fieldOf (w 0) 16 10, allParts := bitOf (w 0) 26, tag := w 1, dst := fieldOf (w 2) 0 52
    fromEpoch := fieldOf (w 3) 0 48, part := fieldOf (w 4) 0 20, max := fieldOf (w 5) 0 32
    reservedOk := reservedZero ws [0x7FF07FF, 2 ^ 64 - 1, 2 ^ 52 - 1, 2 ^ 48 - 1, 2 ^ 20 - 1, 2 ^ 32 - 1, 0, 0] }

/-- Records that fit, in journal order, up to the first that would pass MAX_BYTES. -/
def fitRecords : List JRec → Nat → List JRec
  | [], _ => []
  | x :: t, room => if x.bytes ≤ room then x :: fitRecords t (room - x.bytes) else []

/-- Take a JOURNAL_READ (R349). -/
def State.takeJournalRead (s : State) (d r : Nat) : State :=
  let x := parseJRead (s.words8 (s.headAddr d r))
  let s := s.takeHead d r 1
  let owns (y : JRec) : Bool := if y.kind = 3 then s.tableDomain y.number = some d else decide ((s.coll y.number).dom = d)
  match firstFail [(s.inDomain d x.dst x.max, Status.domainFault), (x.reservedOk, .refused)] with
  | some st => (s.countEnd d x.tag st).postRecord d r st [x.tag, statusWord st 0]
  | none =>
    let sel := s.flash.journal.filter (fun y => decide (y.st = 2) && bitOf x.mask (y.kind - 1) && decide (y.number = x.number) &&
      (x.allParts || decide (y.part = x.part)) && decide (x.fromEpoch ≤ y.epoch) && owns y)
    let out := fitRecords sel x.max
    let next := match sel.drop out.length with | y :: _ => y.epoch | [] => s.journalDurable + 1
    let s := s.store x.dst (out.map JRec.image).flatten d
    s.postRecord d r .ok [x.tag, statusWord .ok (b2n (decide (x.fromEpoch ≤ s.flash.jErased))), out.length + journalBytes out * 2 ^ 32, next]


/-! The software line (R371, R372, R374). -/

/-- The pair is enabled and its domain is served (R370, R493). -/
def State.ringOn (s : State) (d r : Nat) : Bool :=
  decide (d < 64) && decide (r < 8) && s.flag (Reg.Ring.EN d r) && s.domOn d

/-- Read a pair's software line, once no agent holds it modified; the node keeps a shared copy. -/
def State.readTail (s : State) (d r : Nat) : State :=
  let l := s.ctrlBase d r / 64
  let x := s.nodeReads [l]
  if !x.2 then x.1
  else
    let s := x.1.nodeCopy l
    if s.linePoison l then s.setFld (Reg.Ring.RING_FAULT d r) 1
    else
      let s := s.setFld (Reg.Ring.RING_FAULT d r) 0
      s.setRing d r { s.ring d r with workTail := s.nat (64 * l) 4, compHead := s.nat (64 * l + 4) 4 }

/-! Descriptors (R12, R373, R563). -/

/-- Opcodes that are taken only at a boundary. -/
def boundaryOnly (op : Nat) : Bool := decide (2 ≤ op) && decide (op ≤ 6)

/-- Descriptors that are taken together with the head: a LINK chain, else the head alone; `none` while the chain's end
is not visible. -/
def State.groupLen (s : State) (d r : Nat) : Option Nat :=
  let op := fieldOf (s.w64 (s.headAddr d r)) 0 8
  let n := s.visibleCount d r + 1
  if op = 2 || op = 3 then (s.chainAt d r n 0).map (fun x => x.1)
  else if op = 0x30 then (s.linkChain d r 0x30 29 n 0).map (fun x => x.1)
  else if op = 0x40 then (s.linkChain d r 0x40 18 n 0).map (fun x => x.1)
  else some 1

/-- Completion slots that `n` descriptors of one opcode reserve (R373). -/
def roomNeed (op n : Nat) : Nat := if op = 4 || op = 5 || op = 6 then 2 else if op = 0x0F then 0 else n

/-- Memory that the node reads when it takes a descriptor, besides the slot. -/
def State.descReads (s : State) (ws : List Nat) : List (Nat × Nat) :=
  match fieldOf (ws.getD 0 0) 0 8 with
  | 0x01 => let x := parseSearch ws; [(x.qvec, 2 * (s.coll x.coll).shape.dim)]
  | 0x02 => let x := parseUpdate ws; [(x.vec, updateSpan (s.coll x.coll).shape x)]
  | 0x05 => [((parseVersion ws).base, 64)]
  | 0x06 => let x := parseRouteEdit ws; [(x.list, 4 * x.count)]
  | 0x11 =>
    let x := parseEmbUpd ws
    let n := min x.nrows 1048576
    [(x.idx, 4 * n), (x.grad, n * (s.readEmb x.table).dim * (if x.fp32 then 4 else 2))]
  | 0x13 => let x := parseHot ws; [(x.list, 4 * x.nrows)]
  | _ => []

/-- An opcode that names no service: the descriptor completes REFUSED (R12). -/
def State.takeUnknown (s : State) (d r : Nat) : State :=
  let tag := s.w64 (s.headAddr d r + 8)
  (s.takeHead d r 1).postRecord d r .refused [tag, statusWord .refused 0]

/-- Hand the head descriptor to its service; `none` leaves it on the ring. -/
def State.takeBy (s : State) (op d r : Nat) : Option State :=
  match op with
  | 0x01 => s.takeSearch d r
  | 0x02 | 0x03 => s.takeUpdates d r
  | 0x04 => s.takeCompact d r
  | 0x05 => some (s.takeVersion d r)
  | 0x06 => some (s.takeRouteEdit d r)
  | 0x0F => some (s.takeAbort d r)
  | 0x10 => s.takeLookup d r
  | 0x11 => some (s.takeEmbUpdate d r)
  | 0x12 => some (s.takeStepClose d r)
  | 0x13 => some (s.takeHotSet d r)
  | 0x14 => some (s.takeEmbVersion d r)
  | 0x20 => s.takeAttend d r
  | 0x21 => s.takeMerge d r
  | 0x30 => s.takeEngine d r
  | 0x40 => s.takeNb d r
  | 0x50 => some (s.takeHint d r)
  | 0x51 => some (s.takeJournalRead d r)
  | _ => some (s.takeUnknown d r)

/-- A poisoned slot: a record with TAG 0, and the next slot (R374). -/
def State.takePoisoned (s : State) (d r : Nat) : State :=
  ((s.takeHead d r 1).bump (Reg.Link.DESC_POISONED)).postRecord d r .poisoned [0, statusWord .poisoned 0]

/-- The node admits jobs: slice admission is open since the first commit, and no hold stands (R30, R49, R452, R463);
none before HALF_SOLE_1 (R487). -/
def State.admits (s : State) : Bool := decide (4 ≤ s.startState) && decide (s.startState ≤ 6) && s.time.admitOpen && s.time.firstCommit && !s.flag Reg.Ras.ADMIT_HOLD

/-- A descriptor that waits for its service's room is noted (R33, R154, R232). -/
def State.noteWait (s : State) (op d r : Nat) : State := if op = 4 || op = 0x21 then s.noteCompactWait d r else s

/-- A chain of `n` visible descriptors: taken when its completion slots are free and what it names can be read. -/
def State.takeGroup (s : State) (op d r n : Nat) : State × Bool :=
  if s.compRoom d r < roomNeed op n then (s.setFld (Reg.Ring.COMP_WAIT d r) 1, false)
  else
    let ranges := (List.range (max 1 n)).flatMap (fun i => s.descReads (s.words8 (s.slotAddr d r i)))
    let y := s.nodeReads (ranges.flatMap (fun z => linesOf z.1 z.2))
    if !y.2 then y
    else match y.1.takeBy op d r with
      | some t => (t, true)
      | none => (y.1.noteWait op d r, false)

/-- The head descriptor can be read: take it, with its chain, if `f` admits its first word, its completion slots are free and
what it names can be read. -/
def State.takeVisible (s : State) (boundary : Bool) (f : Nat → Bool) (d r : Nat) : State × Bool :=
  let a := s.headAddr d r
  let op := fieldOf (s.w64 a) 0 8
  if s.poisoned a 64 then
    if s.compRoom d r < 1 then (s.setFld (Reg.Ring.COMP_WAIT d r) 1, false) else (s.takePoisoned d r, true)
  else if !f (s.w64 a) || (boundaryOnly op && !boundary) then (s, false)
  else
    match s.groupLen d r with
    | none => (s, false)
    | some n =>
      s.takeGroup op d r n

/-- Try the head descriptor, if its first word is one that `f` admits: true when something was taken. -/
def State.tryHead (s : State) (boundary : Bool) (f : Nat → Bool) (d r : Nat) : State × Bool :=
  if !s.ringOn d r || !s.headVisible d r || s.flag (Reg.Ring.RING_FAULT d r) || !s.admits then (s, false)
  else
    let slots := (List.range (s.visibleCount d r)).flatMap (fun i => linesOf (s.slotAddr d r i) 64)
    let x := s.nodeReads slots
    if !x.2 then x
    else x.1.takeVisible boundary f d r

/-- Take descriptors from a ring until one stays. -/
def State.takeLoop (s : State) (boundary : Bool) (d r : Nat) : Nat → State
  | 0 => s
  | fuel + 1 =>
    let x := s.tryHead boundary (fun _ => true) d r
    if x.2 then State.takeLoop x.1 boundary d r fuel else x.1

/-- Read a ring: its software line, then its descriptors in ring order (R372, R563). -/
def State.readRing (s : State) (boundary : Bool) (d r : Nat) : State :=
  if s.ringOn d r then
    let s := s.readTail d r
    s.takeLoop boundary d r (s.visibleCount d r)
  else s

/-- Within the boundary window. -/
def State.inWindow (s : State) : Bool := decide (s.time.phase < s.fld Reg.G.BOUNDARY_CYCLES)

/-- Take the head descriptor of one ring if its first word is one that `f` admits. -/
def State.takeIf (s : State) (f : Nat → Bool) (d r : Nat) : State := (s.tryHead s.inWindow f d r).1

/-- Take the head descriptor of one ring if it carries the opcode. -/
def State.takeOp (s : State) (op d r : Nat) : State := s.takeIf (fun w => decide (fieldOf w 0 8 = op)) d r

/-- The same for an opcode and a kind in the four bits after it: an ENGINE's KIND, a TIER_HINT's HINT. -/
def State.takeKind (s : State) (op : Nat) (k : Nat → Bool) (d r : Nat) : State :=
  s.takeIf (fun w => decide (fieldOf w 0 8 = op) && k (fieldOf w 8 4)) d r

/-- Enabled pairs in ascending (domain, ring), from the pair that this boundary starts with (R373). -/
def State.ringOrder (s : State) : List (Nat × Nat) :=
  let l := ((s.regs.filter (fun p => decide (0x810000 ≤ p.1) && decide (p.1 < 0x818000))).map (fun p => (p.1 - 0x810000) / 64)).foldl insNat []
  let on := (l.map (fun k => (k / 8, k % 8))).filter (fun x => s.ringOn x.1 x.2)
  let n := s.sched.ringStart % max 1 on.length
  on.drop n ++ on.take n

/-- The boundary's visit of every ring. -/
def State.visitRings (s : State) : State :=
  let o := s.ringOrder
  let s := o.foldl (fun s x => s.readRing true x.1 x.2) s
  { s with sched := { s.sched with ringStart := s.sched.ringStart + 1 } }

/-- What a job still to complete reads in an ABORT's terms is the service's; nothing else is held here. -/
def State.ringWatch (s : State) (d r : Nat) : State := s.readRing s.inWindow d r

/-! The write side of the flash layer: a run becomes durable (R324, R336, R341, R347). -/

/-- A run's last wordline and parity page are programmed into superblock `sb`; none before SEQ has resumed (R490). -/
def State.runDone (s : State) (run sb : Nat) : State :=
  match s.flash.runs.find? (fun r => r.id = run) with
  | none => s
  | some r =>
    if !s.flash.seqResumed || !s.sbTakes sb r.set then s
    else
      let s := (s.placeIn sb r.set r.sectors).durable r
      let s := match r.kind with
        | .evict p | .synced p => let g := s.page p; s.setPage p { g with coded := r.coded, fine := r.each }
        | .sectors => s.takePoison r.sectors
        | .journal => s.setFlash { s.flash with journal := s.flash.journal.map (fun (x : JRec) => if x.st = 1 && decide (x.run = run) then { x with st := 2 } else x) }
      s.driveHints

end Sys2Proof.Machine
end

