-- ==== Sys2Proof/Machine/Fabric.lean ====
section
/-! DEFINITION. The fabric: ports, frames, membership, the partition map, failures and coded placement (R381-R411). -/

namespace Sys2Proof.Machine

open Sys2Proof

def State.setFabric (s : State) (f : FabricSt) : State := { s with fabric := f }

/-! Ports (R383, R385, R420, R443). -/

def State.portState (s : State) (p : Nat) : Nat := s.fld (Reg.Port.PORT_STATE p)
def State.setPort (s : State) (p v : Nat) : State := s.setFld (Reg.Port.PORT_STATE p) v

def egressDefault (_ : Nat) : EgressPort := {}
def State.egress (s : State) (p : Nat) : EgressPort := SMap.get egressDefault s.fabric.egress p
def State.setEgress (s : State) (p : Nat) (e : EgressPort) : State :=
  s.setFabric { s.fabric with egress := SMap.set egressDefault s.fabric.egress p e }

/-- The port of a message among the UP ports (R385); 8 while no port is UP. -/
def portFor (ups : List Nat) (m : OutMsg) : Nat := ups.getD ((m.dst + m.no) % max 1 ups.length) 8

/-- A port left UP: its frames not acknowledged go again, on the ports that remain; its egress state goes (R385, R426). -/
def State.requeue (s : State) (p : Nat) : State :=
  let ups := s.upPorts
  (s.setFabric { s.fabric with out := s.fabric.out.map (fun (m : OutMsg) =>
    if m.port = p then { m with port := portFor ups m, queued := m.queued.foldl insNat (m.unacked.map (fun x => x.1)) } else m) }).setEgress p {}

/-- Training begins, or a port that is UP begins to train again. -/
def State.portTraining (s : State) (p : Nat) : State :=
  if p < 8 && s.flag (Reg.Port.PORT_EN p) then
    match s.portState p with
    | 0 => s.setPort p 1
    | 2 => (s.setPort p 1).requeue p
    | _ => s
  else s

/-- Credit of a shaped queue when it starts anew (R419, R420), in units of 10^-5 bit. -/
def State.startCredit (s : State) (p q : Nat) : Int :=
  if s.flag (Reg.Egress.SHAPE_EN p q) && s.flag (Reg.Egress.RESET_FULL p q) then 800000 * (s.fld (Reg.Egress.BURST_B p q) : Int) else 0

/-- Training ends well: the port is UP, its credits start, and messages without a port take one. -/
def State.portUp (s : State) (p : Nat) : State :=
  if p < 8 && decide (s.portState p = 1) then
    let s := s.setPort p 2
    let s := s.setEgress p { credit := (List.range 8).map (s.startCredit p) }
    let ups := s.upPorts
    s.setFabric { s.fabric with out := s.fabric.out.map (fun (m : OutMsg) => if m.port = 8 then { m with port := portFor ups m } else m) }
  else s

def State.portDown (s : State) (p : Nat) : State :=
  if p < 8 && (decide (s.portState p = 1) || decide (s.portState p = 2)) then (s.setPort p 0).requeue p else s

/-- A permanent fault of either lane retires the port. -/
def State.portFault (s : State) (p lane : Nat) : State :=
  if p < 8 && lane < 2 && decide (s.portState p ≠ 3) then
    let i := 2 * p + lane
    let s := (s.bump Reg.Ras.PERM_EVENTS).log 0x03 1 0 3 i 0 1
    let s := ((s.log 0x04 2 0 3 i 0 5).setPort p 3).requeue p
    { s with ras := { s.ras with retireRecord := s.ras.retireRecord ++ [(3, i)] } }
  else s

/-! Frames (R382, R386, R387). -/

/-- Messages that are not acknowledged: acknowledgements and control (R382, R384). -/
def NetMsg.control : NetMsg → Bool
  | .ack .. | .suspect _ | .joinReq .. | .mapLate _ | .rebuilt .. | .startReport _ => true
  | .share _ | .partialMsg _ | .attn .. | .lookup _ | .lookupPart _ | .gradient .. | .seal .. | .drop .. | .hotFetch .. | .hotRow ..
  | .parity _ => false

/-- Payload bytes of a frame of a message. -/
def OutMsg.frameLen (m : OutMsg) (idx : Nat) : Nat := min 8192 (m.len - 8192 * idx)

/-- PARITY_PENDING (R407). -/
def State.parityPending (s : State) : Nat :=
  (s.fabric.out.filter (fun m => match m.body with | .parity _ => true | _ => false)).length

/-- An acknowledgement arrives: the frame is no longer owed, a message without frames is delivered. -/
def State.acked (s : State) (dst queue no idx : Nat) : State :=
  let upd (m : OutMsg) : OutMsg :=
    if m.dst = dst && m.queue = queue && m.no = no then
      { m with queued := m.queued.filter (· ≠ idx), unacked := m.unacked.filter (fun x => x.1 ≠ idx) } else m
  let out := (s.fabric.out.map upd).filter (fun m => decide (m.queued ≠ []) || decide (m.unacked ≠ []))
  (s.setFabric { s.fabric with out := out }).settleUpdates

/-- A frame has waited RETX_US for its acknowledgement: it goes again; the last resend allowed names the peer suspect. -/
def State.resend (s : State) (dst queue no idx : Nat) : State :=
  match s.fabric.out.find? (fun m => decide (m.dst = dst) && decide (m.queue = queue) && decide (m.no = no)) with
  | none => s
  | some m =>
    match m.unacked.find? (fun x => x.1 = idx) with
    | none => s
    | some x =>
      if m.queued.contains idx then s
      else
        let upd (y : OutMsg) : OutMsg :=
          if y.dst = dst && y.queue = queue && y.no = no then
            { y with queued := insNat y.queued idx, unacked := y.unacked.map (fun z => if z.1 = idx then (idx, z.2 + 1) else z) } else y
        let s := s.setFabric { s.fabric with out := s.fabric.out.map upd }
        let s := if m.port < 8 then s.bump (Reg.Port.RETX m.port) else s
        if x.2 + 1 = s.fld Reg.G.RETX_MAX then s.send manager 5 (.suspect dst) else s

def rxDefault (_ : Nat) : Nat := 0

/-- Bytes of the assembly pool in use. -/
def State.rxUsed (s : State) : Nat := (s.fabric.rx.map (fun m => (m.frames.map (fun x => x.2)).sum)).sum

/-- Deliver a flow's messages that are whole, in order of number. -/
def State.deliver (s : State) (src queue : Nat) : Nat → State
  | 0 => s
  | fuel + 1 =>
    let k := 8 * src + queue
    let n := SMap.get rxDefault s.fabric.rxNext k
    match s.fabric.rx.find? (fun m => decide (m.src = src) && decide (m.queue = queue) && decide (m.msgNo = n)) with
    | some m =>
      if (m.frames.map (fun x => x.2)).sum = m.msgLen then
        State.deliver (s.setFabric { s.fabric with
          rx := s.fabric.rx.erase m, rxNext := SMap.set rxDefault s.fabric.rxNext k ((n + 1) % 2 ^ 32) }) src queue fuel
      else s
    | none => s

/-- A frame's fields are those of some frame of its message. -/
def frameOk (f : Frame) : Bool :=
  decide (f.src < 16384) && decide (f.queue < 8) && decide (1 ≤ f.msgLen) && decide (f.msgLen ≤ 2 ^ 30) && decide (f.idx < cdiv f.msgLen 8192) &&
  decide (f.len = min 8192 (f.msgLen - 8192 * f.idx))

/-- A data frame arrives on a port. -/
def State.dataFrame (s : State) (p : Nat) (f : Frame) : State :=
  if p < 8 && decide (s.portState p = 2) then
    let s := s.bump (Reg.Port.FRAMES_RX p)
    if !frameOk f || decide (f.dst ≠ s.self) || decide (s.fld Reg.G.MEMBER_STATE ≠ 2) || s.fabric.failed.contains f.src then s
    else
      let n := SMap.get rxDefault s.fabric.rxNext (8 * f.src + f.queue)
      let old := decide (2 ^ 31 ≤ (f.msgNo % 2 ^ 32 + 2 ^ 32 - n) % 2 ^ 32)
      let has := s.fabric.rx.find? (fun m => decide (m.src = f.src) && decide (m.queue = f.queue) && decide (m.msgNo = f.msgNo))
      let ack (s : State) : State := s.send f.src 5 (.ack f.queue f.msgNo f.idx)
      if old || has.any (fun m => m.frames.any (fun x => x.1 = f.idx)) then ack s
      else if s.rxUsed + f.len ≤ s.fld Reg.G.RX_POOL_MB * 2 ^ 20 then
        let rx := match has with
          | some m => s.fabric.rx.map (fun (x : RxFlow) => if x = m then { x with frames := x.frames ++ [(f.idx, f.len)] } else x)
          | none => s.fabric.rx ++ [{ src := f.src, queue := f.queue, msgNo := f.msgNo, msgLen := f.msgLen, frames := [(f.idx, f.len)] }]
        ack ((s.setFabric { s.fabric with rx := rx }).deliver f.src f.queue (rx.length + 1))
      else s.bump (Reg.Port.RX_DROP p)
  else s

/-- A message from another member: discarded from a fenced node, and before this node is a member (R388, R393). -/
def State.fromPeer (s : State) (src : Nat) (f : State → State) : State :=
  if s.fld Reg.G.MEMBER_STATE ≠ 2 then s
  else if s.fabric.failed.contains src then s.bump Reg.G.FENCED_DROP
  else f s

/-! Membership (R388-R390, R394). -/

/-- Report MEMBER_STATE and JOIN_FAULT (R389, R458). -/
def State.logMember (s : State) : State := s.log 0x0E 2 0 0 0 0 (s.fld Reg.G.MEMBER_STATE + 16 * s.fld Reg.G.JOIN_FAULT)

/-- JOIN_REQ leaves on each UP port. -/
def State.joinReq (s : State) : State :=
  if s.fld Reg.G.MEMBER_STATE = 0 then
    let ups := s.upPorts
    let body : NetMsg := .joinReq Config.serial.toNat (s.fld Reg.G.STEPPING) (s.fld Reg.G.PERIOD_US) (s.fld Reg.G.SLICE_MARGIN) (s.fld Reg.G.PTP_DOMAIN)
      ((ups.map (fun p => 2 ^ p)).sum) (s.wide Reg.Start.IMAGE_ID_LO Reg.Start.IMAGE_ID_HI)
    ups.foldl (fun s p => s.setFabric { s.fabric with out := s.fabric.out ++
      [{ dst := manager, queue := 5, no := 0, comp := 0, port := p, len := 64, body := body, queued := [0], unacked := [] }] }) s
  else s

def State.assign (s : State) (addr comp join : Nat) : State :=
  if s.fld Reg.G.MEMBER_STATE = 0 && addr < 16384 && comp < 2 ^ 32 && join < 2 ^ 48 then
    (((s.setFld Reg.G.NODE_ADDR addr).setFld Reg.G.COMP_ID comp).setFld Reg.G.MEMBER_STATE 1).setFabric { s.fabric with joinAt := some join }
  else s

/-- The join is refused. -/
def State.refuseJoin (s : State) (code : Nat) : State :=
  if s.fld Reg.G.MEMBER_STATE ≤ 1 then
    (((s.setFld Reg.G.JOIN_FAULT code).setFld Reg.G.MEMBER_STATE 0).setFabric { s.fabric with joinAt := none }).logMember
  else s

/-- Jobs that depend on another node (R394). -/
def State.remoteJob (s : State) (j : Job) : Bool :=
  match j.work with
  | .query q => q.fan || (match q.shareIn with | some x => decide (x.collector ≠ s.self) | none => false)
  | .embShare x => decide (x.requester ≠ s.self)
  | .lookup l => if l.sent then l.shares.any (fun h => decide (h.owner ≠ s.self)) else decide (s.otherOwners ((s.tab l.table).slot l.slot).map l.desc ≠ [])
  | .attnMerge _ => true
  | .embUpdate u => decide (u.left ≠ [])
  | .update _ | .compact _ | .version _ | .routeEdit _ | .hint _ | .engine _ | .attend _ | .stepClose _ | .hotSet _ | .embVersion _ | .nbRun _ => false

/-- This node is the one declared failed: FENCED; what depends on others ends at the next boundary. -/
def State.fence (s : State) : State :=
  let s := s.setJobs (s.sched.jobs.map (fun j => if s.remoteJob j then j.doomed .aborted else j))
  let f := s.fabric
  ((s.setFld Reg.G.MEMBER_STATE 3).setFabric { f with
    out := [], rx := [], shareWait := f.shareWait.filter (fun w => w.2.2.collector = s.self) }).logMember

/-- The boundary after a fence: the node is ISOLATED. -/
def State.endFence (s : State) : State :=
  if s.fld Reg.G.MEMBER_STATE = 3 then (s.setFld Reg.G.MEMBER_STATE 0).setFabric { s.fabric with failed := [], joinAt := none } else s

/-! Declared failures (R44, R45, R234, R267, R271, R273, R393). -/

/-- A query's shares on a failed node: reissued, unless each probe of the share is also with another placement (R410). -/
def State.failShares (s : State) (id n : Nat) : State :=
  match s.query? id with
  | none => s
  | some (_, q) =>
    (q.shares.filter (fun o => decide (o.holder = n) && o.got.isNone)).foldl (fun s o =>
      match s.query? id with
      | none => s
      | some (j, q) =>
        let other (p : Nat) : Bool := q.shares.any (fun x => decide (x.num ≠ o.num) && decide (x.holder ≠ n) && x.probes.contains p)
        if o.probes.all other then s.putQuery j { q with shares := q.shares.filter (fun x => x.num ≠ o.num) }
        else s.reissue j q o false false) s

/-- What a job loses with a failed node besides shares. -/
def State.failWork (n : Nat) (j : Job) : Bool :=
  match j.work with
  | .lookup l => l.shares.any (fun h => decide (h.owner = n) && h.got.isNone)
  | .embUpdate u => u.left.any (fun m => decide (m.1 = n))
  | .attnMerge m => (List.range m.shards).any (fun k => !m.parts.any (fun p => decide (p.shard = k)) && decide (Config.shardNode m.slot k = n))
  | .query _ | .update _ | .compact _ | .version _ | .routeEdit _ | .hint _ | .engine _ | .attend _ | .embShare _ | .stepClose _
  | .hotSet _ | .embVersion _ | .nbRun _ => false

def State.declareFailed (s : State) (n : Nat) : State :=
  if s.fld Reg.G.MEMBER_STATE ≠ 2 then s
  else if n = s.self then s.fence
  else if s.fabric.failed.contains n then s
  else
    let f := s.fabric
    let s := s.setJobs (s.sched.jobs.map (fun j => if State.failWork n j then j.doomed .aborted else j))
    let s := s.setFabric { f with
      failed := insNat f.failed n, out := f.out.filter (fun m => m.dst ≠ n), rx := f.rx.filter (fun m => m.src ≠ n)
      shareWait := f.shareWait.filter (fun w => w.2.2.collector ≠ n) }
    let s := { s with emb := { s.emb with wait := s.emb.wait.filter (fun w => w.2.2.requester ≠ n) } }
    let s := (s.queries.map (fun x => x.1.id)).foldl (fun s id => s.failShares id n) s
    let s := (s.emb.tables.map (fun x => x.1)).foldl State.finishStep s
    s.settleUpdates

/-! The partition map (R395, R396). -/

def State.mapSize (s : State) : Nat := s.fld Reg.G.MAP_MB * 0x80000

/-- Replace the bytes of one map slot by those of another, or clear them. -/
def State.copyMap (s : State) (src : Option Nat) (dst : Nat) : State :=
  let d := s.mapBase dst
  let m := s.mem
  let out := m.bytes.filter (fun x => !(decide (d ≤ x.1) && decide (x.1 < d + s.mapSize)))
  let new := match src with
    | some k =>
      let a := s.mapBase k
      (m.bytes.filter (fun x => decide (a ≤ x.1) && decide (x.1 < a + s.mapSize))).foldl (fun l x => SMap.set byteDefault l (x.1 - a + d) x.2) out
    | none => out
  { s with mem := { m with bytes := new } }

/-- Make the other slot the pending one, where none is pending. -/
def State.openPending (s : State) : State :=
  if s.fabric.mapPending.isSome then s
  else
    let dst := match s.fabric.mapSlot with | some k => 1 - k | none => 0
    let s := s.copyMap s.fabric.mapSlot dst
    s.setFabric { s.fabric with mapPending := some dst }

def State.control (s : State) : Bool := decide (s.fld Reg.G.MEMBER_STATE = 1) || decide (s.fld Reg.G.MEMBER_STATE = 2)

def State.mapWrite (s : State) (off : Nat) (data : List Byte) : State :=
  if s.control && decide (off + data.length ≤ s.mapSize) then
    let s := s.openPending
    { s with mem := s.mem.write (s.mapBase (s.fabric.mapPending.getD 0) + off) data 0 0 }
  else s

def State.mapActivate (s : State) (a : Nat) : State :=
  if s.control && a < 2 ^ 48 then
    let s := s.openPending
    (s.setFld Reg.G.MAP_PENDING_EPOCH a).setFabric { s.fabric with mapDue := some a, mapLateDue := decide (a ≤ s.now) }
  else s

/-- Node addresses that a partition entry of a slot lists. -/
def State.entryNodes (s : State) (slot i : Nat) : List Nat :=
  let w := s.w64 (s.mapBase slot + 16384 + 16 * i)
  (if bitOf w 14 then [fieldOf w 0 14] else []) ++ (if bitOf w 30 then [fieldOf w 16 14] else []) ++ (if bitOf w 46 then [fieldOf w 32 14] else [])

/-- The map due at this boundary becomes current (R30 step 2). A failed node that it lists anew has joined again. -/
def State.activateMap (s : State) : State :=
  match s.fabric.mapDue, s.fabric.mapPending with
  | some a, some k =>
    if s.now < a then s
    else
      let f := s.fabric
      let es := s.touched (s.mapBase k + 16384) 16 (s.mapSize / 16)
      let back := f.failed.filter (fun n => es.any (fun i => (s.entryNodes k i).contains n && !(f.mapSlot.any (fun o => (s.entryNodes o i).contains n))))
      let s := (s.setFld Reg.G.MAP_PREV_EPOCH (if f.mapSlot.isSome then f.mapA else 0)).setFld Reg.G.MAP_EPOCH a
      let s := s.setFld Reg.G.MAP_PENDING_EPOCH 0
      let s := s.setFabric { s.fabric with
        mapSlot := some k, mapA := a, mapPrevA := if f.mapSlot.isSome then some f.mapA else none, mapPending := none, mapDue := none
        mapLateDue := false, failed := f.failed.filter (fun n => !back.contains n) }
      if f.mapLateDue || decide (a < s.now) then (s.setFld Reg.G.MAP_LATE 1).send manager 5 (.mapLate a) else s
  | _, _ => s

/-! Coded placement (R405-R409). -/

/-- Doubling and powers of 2 in GF(2^8) with 0x11D. -/
def gfDouble (x : Nat) : Nat := if 256 ≤ 2 * x then Nat.xor (2 * x) 0x11D else 2 * x
def gfMul2 : Nat → Nat → Nat
  | 0, x => x
  | n + 1, x => gfMul2 n (gfDouble x)

def xorBytes (a b : List Byte) : List Byte := List.zipWith (fun x y => x ^^^ y) a b
def gfScale (n : Nat) (l : List Byte) : List Byte := l.map (fun b => BitVec.ofNat 8 (gfMul2 n b.toNat))

/-- Entries of the current map's partition table. -/
def State.mapEntries (s : State) (m : Nat) : Nat :=
  ((List.range 1024).map (fun c => let w := s.w64 (s.mapBase m + 16 * c); fieldOf w 0 21 + fieldOf w 32 32)).foldl max 0

/-- Members of a coded group (R406). -/
def State.groupMembers (s : State) (g : Nat) : List Nat :=
  match s.fabric.mapSlot with
  | none => []
  | some m =>
    let w := s.nat (s.mapBase m + 16384 + 16 * s.mapEntries m + 32 * g) 32
    (List.range 10).map (fun i => fieldOf w (14 * i) 14)

def State.codeArea (s : State) : Nat := s.wide Reg.G.CODE_AREA_LO Reg.G.CODE_AREA_HI

/-- The coded group of a full-vector sector that this node holds (R406, R407). -/
def State.codedSector (s : State) (sec : Nat) : Option Nat :=
  if 4096 * sec < s.codeArea then none
  else
    (s.parts.findSome? (fun x =>
      let c := x.1 / 2 ^ 20
      let p := x.1 % 2 ^ 20
      let d := s.partDesc c p
      if x.2.built && (s.mapColl c).2.1 && decide (d.fullBase ≤ 4096 * sec) && decide (4096 * sec < d.fullBase + fullSpan (s.coll c).shape d.ordCap) then
        (match s.mapEntry c p with
         | some e => if e.h0 = some s.self then some e.group else none
         | none => none)
      else none))

def durBytes (f : FlashSt) (sec : Nat) : List Byte := (List.range 4096).map (fun i => SMap.get byteDefault f.dur (4096 * sec + i))

/-- PARITY_DELTAs for the coded sectors whose durable copies changed from `old` to `s` (R407). -/
def State.parityDeltas (s old : State) : State :=
  (s.flash.seqOf.filter (fun x => decide (tieredEnd ≤ 4096 * x.1) && decide (old.sectorSeq x.1 ≠ x.2))).foldl (fun s x =>
    match s.codedSector x.1 with
    | none => s
    | some g =>
      let ms := s.groupMembers g
      match (List.range 8).find? (fun i => decide (ms.getD i 16384 = s.self)) with
      | none => s
      | some i =>
        let m : ParityMsg := { group := g, stripe := (4096 * x.1 - s.codeArea) / 16384, member := i, sector := x.1 % 4, oldSeq := old.sectorSeq x.1, newSeq := x.2
                               diff := xorBytes (durBytes old.flash x.1) (durBytes s.flash x.1)
                               mask := ((List.range 64).map (fun b => if SMap.get poisonDefault s.flash.durPoison (64 * x.1 + b) then 2 ^ b else 0)).sum }
        (s.send (ms.getD 8 16384) 2 (.parity m)).send (ms.getD 9 16384) 2 (.parity m)) s

def parityKey (m : ParityMsg) : Nat := ((m.group * 2 ^ 40 + m.stripe) * 16 + m.member) * 4 + m.sector
def parityDefault (_ : Nat) : Nat := 0

/-- The sector is STALE on this parity member: marked and logged. -/
def State.markStale (s : State) (m : ParityMsg) : State :=
  (s.setFabric { s.fabric with stale := insNat s.fabric.stale (parityKey m) }).log 0x10 2 0 0 0 (s.codeArea + 16384 * m.stripe + 4096 * m.sector) 1

/-- A PARITY_DELTA at a parity member (R407, R441). -/
def State.parityDelta (s : State) (m : ParityMsg) : State :=
  let ms := s.groupMembers m.group
  let q := decide (ms.getD 9 16384 = s.self)
  if !(q || decide (ms.getD 8 16384 = s.self)) || 8 ≤ m.member || 4 ≤ m.sector || m.diff.length ≠ 4096 then s
  else if m.mask ≠ 0 then s.markStale m
  else
    let rec_ := SMap.get parityDefault s.fabric.parity (parityKey m)
    if rec_ = m.newSeq then s
    else if rec_ = m.oldSeq then
      let a := s.codeArea + 16384 * m.stripe + 4096 * m.sector
      let s := s.store a (xorBytes (s.read a 4096) (if q then gfScale m.member m.diff else m.diff)) 0
      s.setFabric { s.fabric with parity := SMap.set parityDefault s.fabric.parity (parityKey m) m.newSeq }
    else s.markStale m

/-- This node is to take a data member's place (R409). -/
def State.startRebuild (s : State) (g i : Nat) : State :=
  if s.control && i < 8 then s.setFabric { s.fabric with rebuild := some { group := g, member := i, pages := [] } } else s

/-- The lost page of a stripe from seven data pages and P, or Q. -/
def lostPage (i : Nat) (data : List (Nat × List Byte)) (par : List Byte) (q : Bool) : List Byte :=
  let x := data.foldl (fun a d => xorBytes a (if q then gfScale d.1 d.2 else d.2)) par
  if q then gfScale ((255 - i) % 255) x else x

/-- Units of a copy as lines of poison, numbered from the copy's first line. -/
def unitPoison (units : List (List Byte × Nat)) : List Nat :=
  (units.zipIdx).flatMap (fun u => (bitsSet u.1.2 64).map (fun b => 64 * u.2 + b))

/-- Write copied bytes with their poisoned lines (R441). -/
def State.writeCopy (s : State) (a : Nat) (data : List Byte) (poison : List Nat) : State :=
  poison.foldl (fun s l => s.poison (a / 64 + l) 0) (s.store a data 0)

/-- A stripe's page is rebuilt once its eight sources are here. -/
def State.rebuildStripe (s : State) (r : Rebuild) (k : Nat) : State :=
  let ps := r.pages.filter (fun p => p.1 = k)
  let data := ((List.range 8).filter (· ≠ r.member)).filterMap (fun i => ps.find? (fun p => p.2.1 = i))
  let par := (ps.find? (fun p => p.2.1 = 8)).or (ps.find? (fun p => p.2.1 = 9))
  match par with
  | some p =>
    if data.length = 7 then
      let page := lostPage r.member (data.map (fun d => (d.2.1, d.2.2.1))) p.2.2.1 (decide (p.2.1 = 9))
      let bad := ((p :: data).flatMap (fun d => d.2.2.2)).foldl insNat []
      (s.writeCopy (s.codeArea + 16384 * k) page bad).setFabric { s.fabric with rebuild := some { r with pages := r.pages.filter (fun p => p.1 ≠ k) } }
    else s
  | none => s

/-- Units arrive in Q0: a page of a rebuild, or a copy to be written (R409, R441). -/
def State.copyArrives (s : State) (src addr : Nat) (units : List (List Byte × Nat)) : State :=
  if !units.all (fun u => decide (u.1.length = 4096)) || decide (addr % 4096 ≠ 0) then s
  else
    let data := (units.map (fun u => u.1)).flatten
    let bad := unitPoison units
    let ms (r : Rebuild) := s.groupMembers r.group
    match s.fabric.rebuild with
    | some r =>
      match (List.range 10).find? (fun i => decide (i ≠ r.member) && decide ((ms r).getD i 16384 = src)) with
      | some i =>
        if units.length = 4 && s.codeArea ≤ addr && (addr - s.codeArea) % 16384 = 0 then
          let k := (addr - s.codeArea) / 16384
          let r := { r with pages := r.pages.filter (fun p => !(decide (p.1 = k) && decide (p.2.1 = i))) ++ [(k, i, data, bad)] }
          (s.setFabric { s.fabric with rebuild := some r }).rebuildStripe r k
        else s
      | none => s.writeCopy addr data bad
    | none => s.writeCopy addr data bad

/-- Source vectors of STALE sectors, from the mirror's journal. -/
def State.journalVectors (s : State) (vs : List (Nat × List Byte)) : State :=
  if s.fabric.rebuild.isSome then vs.foldl (fun s v => if flashDirect v.1 v.2.length then s.store v.1 v.2 0 else s) s else s

/-- Every stripe is done. -/
def State.rebuildDone (s : State) : State :=
  match s.fabric.rebuild with
  | some r =>
    if r.pages = [] then
      let s := s.send manager 5 (.rebuilt r.group r.member)
      s.setFabric { s.fabric with rebuild := none }
    else s
  | none => s

end Sys2Proof.Machine
end

