-- ==== Sys2Proof/Machine/Egress.lean ====
section
/-! DEFINITION. Egress of a port: priorities, the weighted group, credit shapers, gate lists, guard bands (R413-R429).
Times count 10 ps from the stitch boundary: a byte takes four of them on the wire. -/

namespace Sys2Proof.Machine

open Sys2Proof

/-- Length of the stitch in 10 ps (R422). -/
def State.stitchTime (s : State) : Nat := s.time.stitchLen * 1000 / 13

/-! Gate lists (R421). -/

def State.gateCount (s : State) (p : Nat) : Nat := s.fld (Reg.Port.GATE_COUNT p)
def State.gateMask (s : State) (p i : Nat) : Nat := s.fld (Reg.Gate.GATE_MASK p i)

/-- Starts of the entries within a stitch, as (time, entry), from entry 0 on. -/
def State.gateStarts (s : State) (p : Nat) : List (Nat × Nat) :=
  (List.range (s.gateCount p)).map (fun i =>
    (100 * (s.fld (Reg.Port.CYCLE_OFFSET_NS p) + ((List.range i).map (fun k => s.fld (Reg.Gate.DURATION_NS p k))).sum), i))

/-- The entry in force at a time of the stitch. -/
def State.entryAt (s : State) (p t : Nat) : Nat :=
  (((s.gateStarts p).filter (fun x => decide (x.1 ≤ t))).getLast?.map (fun x => x.2)).getD (s.gateCount p - 1)

def State.gateOpen (s : State) (p q t : Nat) : Bool := bitOf (s.gateMask p (s.entryAt p t)) q

/-- Changes of entry after a time, in this stitch and in the next under the same list. -/
def State.gateChanges (s : State) (p t : Nat) : List (Nat × Nat) :=
  let l := s.stitchTime
  ((s.gateStarts p).filter (fun x => decide (x.1 < l)) ++ (s.gateStarts p).map (fun x => (x.1 + l, x.2))).filter (fun x => decide (t < x.1))

/-- The next instant after `t` at which the gate of `q` closes, and the next at which it opens. -/
def State.nextClose (s : State) (p q t : Nat) : Option Nat := ((s.gateChanges p t).find? (fun x => !bitOf (s.gateMask p x.2) q)).map (fun x => x.1)
def State.nextOpen (s : State) (p q t : Nat) : Option Nat := ((s.gateChanges p t).find? (fun x => bitOf (s.gateMask p x.2) q)).map (fun x => x.1)

/-- GUARD_NS (R423). -/
def State.guardNs (s : State) (p q : Nat) : Nat := cdiv ((s.fld (Reg.Egress.GUARD_FRAME_B p q) + 20) * 8) 200 + 6

/-- Inside the guard band of a queue whose gate is open. -/
def State.inGuard (s : State) (p q t : Nat) : Bool :=
  match s.nextClose p q t with
  | some c => decide (c ≤ t + 100 * s.guardNs p q)
  | none => false

/-- Time between `a` and `b` in which the gate is open and the moment outside the guard band. -/
def State.openTime (s : State) (p q b : Nat) : Nat → Nat → Nat
  | 0, _ => 0
  | fuel + 1, a =>
    if b ≤ a then 0
    else if s.gateOpen p q a then
      match s.nextClose p q a with
      | some c => (min b (c - 100 * s.guardNs p q) - a) + s.openTime p q b fuel (min b c)
      | none => b - a
    else match s.nextOpen p q a with
      | some o => s.openTime p q b fuel o
      | none => 0

/-! Credits (R417-R419). -/

/-- One byte of credit. -/
def creditByte : Int := 800000

/-- A queue's credit after the time from the last change to `t`. -/
def State.creditAt (s : State) (p q t : Nat) : Int :=
  let e := s.egress p
  let c := e.credit.getD q 0
  if !s.flag (Reg.Egress.SHAPE_EN p q) then 0
  else
    let own := if e.frameQ = q then min t e.frameEnd else e.time
    let c := c - ((own - e.time) * s.fld (Reg.Egress.SEND_SLOPE p q) : Nat)
    let up := s.openTime p q t 200 (max own e.time) * s.fld (Reg.Egress.IDLE_SLOPE p q)
    let top := creditByte * (s.fld (Reg.Egress.BURST_B p q) : Int)
    if c ≤ top then min top (c + (up : Nat)) else c

/-- Bring a port's credits to time `t`. -/
def State.creditTo (s : State) (p t : Nat) : State :=
  let e := s.egress p
  if t ≤ e.time then s else s.setEgress p { e with credit := (List.range 8).map (fun q => s.creditAt p q t), time := t }

/-- CREDIT as read: whole bytes, rounded toward zero. -/
def State.creditRead (s : State) (p q : Nat) : Nat :=
  if s.flag (Reg.Egress.SHAPE_EN p q) then (Int.tdiv ((s.egress p).credit.getD q 0) creditByte % 2 ^ 32).toNat else 0

/-! Choosing a frame (R414-R416, R424). -/

/-- Head frame of a queue: its message and frame number. -/
def State.headFrame (s : State) (p q : Nat) : Option (OutMsg × Nat) :=
  (s.fabric.out.find? (fun m => decide (m.port = p) && decide (m.queue = q) && decide (m.queued ≠ []))).bind (fun m => m.queued.head?.map (fun i => (m, i)))

/-- Length of a frame from destination address to FCS (R382), and its size on the wire. -/
def frameBytes (x : OutMsg × Nat) : Nat := x.1.frameLen x.2 + 54
def wireBytes (x : OutMsg × Nat) : Nat := frameBytes x + 20

/-- The head frame fits before the next close where it is longer than GUARD_FRAME_B. -/
def State.fitsGate (s : State) (p q t : Nat) (x : OutMsg × Nat) : Bool :=
  decide (frameBytes x ≤ s.fld (Reg.Egress.GUARD_FRAME_B p q)) ||
  (match s.nextClose p q t with
   | some c => decide (t + 4 * wireBytes x + 600 ≤ c)
   | none => true)

def State.creditOk (s : State) (p q : Nat) : Bool := !s.flag (Reg.Egress.SHAPE_EN p q) || decide (0 ≤ (s.egress p).credit.getD q 0)

/-- The queue is eligible at `t`, its credit being that of `t`. -/
def State.eligible (s : State) (p q t : Nat) : Bool :=
  match s.headFrame p q with
  | some x => s.gateOpen p q t && !s.inGuard p q t && s.creditOk p q && s.fitsGate p q t x
  | none => false

/-- Count a head frame once when a guard band or its own length withholds it. -/
def State.countHeld (s : State) (p q t : Nat) : State :=
  match s.headFrame p q with
  | none => s
  | some x =>
    let e := s.egress p
    if !s.gateOpen p q t || !s.creditOk p q then s
    else if s.inGuard p q t then
      (if e.held.contains q then s else (s.setEgress p { e with held := q :: e.held }).bump (Reg.Egress.GUARD_HELD p q))
    else if !s.fitsGate p q t x then
      (if e.oversize.contains q then s else (s.setEgress p { e with oversize := q :: e.oversize }).bump (Reg.Egress.OVERSIZE_HELD p q))
    else s

/-- The queue of Q0-Q4 that the deficit round robin serves, with the port's egress after the choice. -/
def State.robin (s : State) (p t : Nat) : Nat → EgressPort → Option (Nat × EgressPort)
  | 0, _ => none
  | fuel + 1, e =>
    let q := e.pointer
    let on : EgressPort := { e with pointer := (q + 1) % 5, arrived := true }
    match s.headFrame p q with
    | none => s.robin p t fuel { on with deficit := e.deficit.set q 0 }
    | some x =>
      if !s.eligible p q t then s.robin p t fuel on
      else
        let d := e.deficit.getD q 0 + if e.arrived then 1024 * s.fld (Reg.Egress.WEIGHT p q) else 0
        if wireBytes x ≤ d then some (q, { e with deficit := e.deficit.set q (d - wireBytes x), arrived := false })
        else s.robin p t fuel { on with deficit := e.deficit.set q d }

/-- Put the head frame of a queue on the wire at `t`. -/
def State.sendFrame (s : State) (p q t : Nat) : State :=
  match s.headFrame p q with
  | none => s
  | some x =>
    let m := x.1
    let m' : OutMsg := { m with
      queued := m.queued.filter (· ≠ x.2)
      unacked := if m.body.control then [] else if m.unacked.any (fun y => y.1 = x.2) then m.unacked else m.unacked ++ [(x.2, 0)] }
    let out := (s.fabric.out.map (fun y => if y = m then m' else y)).filter (fun y => decide (y.queued ≠ []) || decide (y.unacked ≠ []))
    let e := s.egress p
    let last := t + 4 * wireBytes x
    let s := (s.setFabric { s.fabric with out := out }).setEgress p
      { e with frameEnd := last, frameQ := q, busy := last, held := e.held.filter (· ≠ q), oversize := e.oversize.filter (· ≠ q) }
    (s.bump (Reg.Port.FRAMES_TX p)).bump (Reg.Egress.FRAMES_SENT p q)

/-- The wire falls idle at `t` and the port chooses (R415). -/
def State.egressSelect (s : State) (p t : Nat) : State :=
  let e := s.egress p
  if 8 ≤ p || s.portState p ≠ 2 || t < e.busy || t < e.time || s.stitchTime ≤ t then s
  else
    let s := s.creditTo p t
    let s := (List.range 8).foldl (fun s q => s.countHeld p q t) s
    match [7, 6, 5].find? (fun q => s.eligible p q t) with
    | some q => s.sendFrame p q t
    | none =>
      if (List.range 5).any (fun q => s.eligible p q t) then
        match s.robin p t 64 (s.egress p) with
        | some x => (s.setEgress p x.2).sendFrame p x.1 t
        | none => s
      else s

/-- A time message takes the wire ahead of every frame not yet started (R413). -/
def State.timeMessage (s : State) (p t n : Nat) : State :=
  let e := s.egress p
  if 8 ≤ p || s.portState p ≠ 2 || 130 < n || t < e.time || s.stitchTime ≤ t then s
  else
    let s := s.creditTo p t
    let e := s.egress p
    s.setEgress p { e with busy := max e.busy t + 4 * n }

/-- A gate entry begins (R421). -/
def State.gateEntry (s : State) (p t : Nat) : State :=
  if 8 ≤ p || t < (s.egress p).time || s.stitchTime ≤ t then s
  else (s.creditTo p t).setFld (Reg.Port.GATE_INDEX p) (s.entryAt p t)

/-- A guard band begins (R423). -/
def State.guardBand (s : State) (p q t : Nat) : State :=
  if 8 ≤ p || 8 ≤ q || t < (s.egress p).time || s.stitchTime ≤ t then s
  else (s.creditTo p t).countHeld p q t

/-! At the boundary (R30 step 6, R419, R421, R426). -/

/-- Credits at the end of the stitch under the list that still holds, and what was open there. -/
def State.egressClose (s : State) : State :=
  (List.range 8).foldl (fun s p =>
    let l := s.stitchTime
    let s := s.creditTo p l
    let e := s.egress p
    s.setEgress p { e with time := 0, frameEnd := e.frameEnd - l, busy := e.busy - l, mask := s.gateMask p (s.entryAt p (l - 1)) }) s

/-- Every port's cycle restarts: a frame still on the wire whose gate the new list closed here is counted. -/
def State.gateRestart (s : State) : State :=
  (List.range 8).foldl (fun s p =>
    let e := s.egress p
    let s := s.setFld (Reg.Port.GATE_INDEX p) (s.entryAt p 0)
    if decide (0 < e.frameEnd) && bitOf e.mask e.frameQ && !s.gateOpen p e.frameQ 0 then s.bump (Reg.Port.COMMIT_OVERRUN p) else s) s

/-! Checks and effects of a commit (R419, R425). -/

/-- Longest time for which a queue stays closed, over two cycles of `l` ns. -/
def closedRun (l : Nat) (starts : List (Nat × Bool)) : Nat :=
  let two := starts ++ starts.map (fun x => (x.1 + l, x.2))
  let init := (starts.getLast?.map (fun x => x.2)).getD true
  let r := two.foldl (fun (a : Nat × Nat × Bool) x =>
    -- longest so far, start of the state, open
    (if a.2.2 then a.1 else max a.1 (x.1 - a.2.1), if x.2 = a.2.2 then a.2.1 else x.1, x.2)) (0, 0, init)
  if r.2.2 then r.1 else max r.1 (2 * l - r.2.1)

/-- The table "Port commit checks", over the values that a commit would make active. -/
def State.portCommitOk (s : State) (p : Nat) : Bool :=
  let n := s.gateCount p
  let l := s.fld Reg.G.PERIOD_US * 1000
  let durs := (List.range (n - 1)).map (fun i => s.fld (Reg.Gate.DURATION_NS p i))
  let starts := (s.gateStarts p).map (fun x => (x.1 / 100, bitOf (s.gateMask p x.2) 5))
  let shaped := (List.range 8).filter (fun q => s.flag (Reg.Egress.SHAPE_EN p q))
  let slope (v : Nat) : Bool := decide (1 ≤ v) && decide (v ≤ 200000)
  decide (1 ≤ n) && decide (n ≤ 64) && decide (s.fld (Reg.Port.CYCLE_OFFSET_NS p) < l) &&
  durs.all (fun d => decide (1 ≤ d)) && decide (durs.sum < l) &&
  decide (closedRun l starts ≤ 1500) &&
  (List.range 5).all (fun q => decide (1 ≤ s.fld (Reg.Egress.WEIGHT p q)) && decide (s.fld (Reg.Egress.WEIGHT p q) ≤ 255)) &&
  !s.flag (Reg.Egress.SHAPE_EN p 5) &&
  shaped.all (fun q => slope (s.fld (Reg.Egress.IDLE_SLOPE p q)) && slope (s.fld (Reg.Egress.SEND_SLOPE p q))) &&
  decide ((shaped.map (fun q => s.fld (Reg.Egress.IDLE_SLOPE p q))).sum ≤ 200000) &&
  (List.range 8).all (fun q => decide (64 ≤ s.fld (Reg.Egress.GUARD_FRAME_B p q)) && decide (s.fld (Reg.Egress.GUARD_FRAME_B p q) ≤ 8246))

/-- Shaper fields of a queue. -/
def State.shaper (s : State) (p q : Nat) : List Nat :=
  [s.fld (Reg.Egress.SHAPE_EN p q), s.fld (Reg.Egress.RESET_FULL p q), s.fld (Reg.Egress.IDLE_SLOPE p q), s.fld (Reg.Egress.SEND_SLOPE p q),
   s.fld (Reg.Egress.BURST_B p q)]

/-- After a commit: credits of the queues whose shapers changed, and GUARD_NS. -/
def State.resetCredits (s old : State) (p : Nat) : State :=
  let e := s.egress p
  let s := s.setEgress p { e with credit := (List.range 8).map (fun q => if s.shaper p q = old.shaper p q then e.credit.getD q 0 else s.startCredit p q) }
  (List.range 8).foldl (fun s q => s.setFld (Reg.Egress.GUARD_NS p q) (s.guardNs p q)) s

end Sys2Proof.Machine
end

