-- ==== Sys2Proof/Machine/Faults.lean ====
section
/-! DEFINITION. Fault handling: permanent events, retirements and remaps, suspect blocks, awl slices, wedges, scrubs, margins
and Cobbler's reports (R323, R436, R443-R463). -/

namespace Sys2Proof.Machine

open Sys2Proof

def State.setRas (s : State) (r : RasSt) : State := { s with ras := r }

/-! Restarts of recovery (R461). -/

/-- A fault strikes while a procedure runs: it restarts from its first step. -/
def State.faultStruck (s : State) : State :=
  let copies := (List.range 12).filter (fun k => s.flag (Reg.Stack.COPY_ACTIVE k))
  let one (s : State) (kind idx d : Nat) : State := (s.bump Reg.Ras.RECOVERY_RESTARTS).log 0x0F 1 0 kind idx 0 d
  let s := copies.foldl (fun s k => one s 1 (64 * k + s.fld (Reg.Stack.COPY_PC k)) (if isKstack k then 3 else 1)) s
  if s.link.walk = [] then s else one s 13 0 0

/-! Permanent events (R443). -/

/-- Length of the sliding window in stitches. -/
def State.permWindow (s : State) : Nat := 2 ^ s.fld Reg.Ras.PERM_WINDOW_LOG2

/-- Events of a channel within the window. -/
def State.permCount (s : State) (kind idx : Nat) : Nat :=
  (s.ras.permEvents.filter (fun e => decide (e.1 = kind) && decide (e.2.1 = idx) && decide (s.now < e.2.2 + s.permWindow))).length

/-- Set or clear a bit of a register pair. -/
def State.putBit (s : State) (lo hi : Fld) (i : Nat) (on : Bool) : State :=
  if i < 32 then s.setFld lo (fieldPut (s.fld lo) i 1 (b2n on)) else s.setFld hi (fieldPut (s.fld hi) (i - 32) 1 (b2n on))

/-- Wait for retirement at the next boundary, once. -/
def State.waitRetire (s : State) (kind idx : Nat) : State :=
  if s.ras.retireWait.contains (kind, idx) || s.ras.retireRecord.contains (kind, idx) then s
  else s.setRas { s.ras with retireWait := s.ras.retireWait ++ [(kind, idx)] }

/-- A permanent event of a channel: counted, logged, SUSPECT, and at its limit due for retirement. -/
def State.permEvent (s : State) (kind idx addr dom : Nat) : State :=
  let s := (s.setRas { s.ras with permEvents := s.ras.permEvents ++ [(kind, idx, s.now)] }).bump Reg.Ras.PERM_EVENTS
  let n := s.permCount kind idx
  let s := s.log 0x03 1 dom kind idx addr n
  let s := match kind with
    | 1 =>
      let s := s.putBit (Reg.Stack.PC_SUSPECT_LO (idx / 64)) (Reg.Stack.PC_SUSPECT_HI (idx / 64)) (idx % 64) true
      if s.fld Reg.Ras.PC_PERM_LIMIT ≤ n then s.waitRetire 1 idx else s
    | 2 =>
      let s := if s.fld (Reg.Flash.STATE idx) = 1 then s.setFld (Reg.Flash.STATE idx) 2 else s
      if s.fld Reg.Ras.CH_PERM_LIMIT ≤ n then s.waitRetire 2 idx else s
    | _ => s
  s.faultStruck

/-- Events leave the window: a channel without one is SUSPECT no more. -/
def State.dropEvents (s : State) : State :=
  let old := s.ras.permEvents.filter (fun e => !decide (s.now < e.2.2 + s.permWindow))
  if old = [] then s
  else
    let s := s.setRas { s.ras with permEvents := s.ras.permEvents.filter (fun e => decide (s.now < e.2.2 + s.permWindow)) }
    old.foldl (fun s e =>
      if s.permCount e.1 e.2.1 ≠ 0 then s
      else match e.1 with
        | 1 => s.putBit (Reg.Stack.PC_SUSPECT_LO (e.2.1 / 64)) (Reg.Stack.PC_SUSPECT_HI (e.2.1 / 64)) (e.2.1 % 64) false
        | 2 => if s.fld (Reg.Flash.STATE e.2.1) = 2 then s.setFld (Reg.Flash.STATE e.2.1) 1 else s
        | _ => s) s

/-! Blocks of the awl list (R454, R467). -/

/-- Engine and number of a block of the list; none for a near-bank group. -/
def awlEngine (b : Nat) : Option (Engine × Nat) :=
  if b < 16 then some (.matrix, b) else if b < 32 then some (.vector, b - 16) else if b < 96 then some (.tile, b - 32)
  else if b < 100 then some (.sorter, b - 96) else none

/-- SOURCE_KIND and SOURCE_INDEX of a block. -/
def awlSource (b : Nat) : Nat × Nat :=
  match awlEngine b with
  | some x => (sourceKind x.1, x.2)
  | none => (10, b - 100)

/-- Block of a source, where it is one of the list. -/
def sourceBlock (kind idx : Nat) : Option Nat :=
  match kind with
  | 6 => if idx < 16 then some idx else none
  | 7 => if idx < 16 then some (16 + idx) else none
  | 8 => if idx < 64 then some (32 + idx) else none
  | 9 => if idx < 4 then some (96 + idx) else none
  | 10 => if idx < 256 then some (100 + idx) else none
  | _ => none

def State.awlState (s : State) (b : Nat) : Nat :=
  match awlEngine b with
  | some x => s.blockState x.1 x.2
  | none => SMap.get (fun _ => 0) s.ras.groups (b - 100)

def State.setAwlState (s : State) (b v : Nat) : State :=
  match awlEngine b with
  | some x => s.setBlockState x.1 x.2 v
  | none => s.setRas { s.ras with groups := SMap.set (fun _ => 0) s.ras.groups (b - 100) v }

/-- A block becomes SUSPECT: it takes no new work, and confirmation slices are due (R447, R456). -/
def State.suspect (s : State) (b : Nat) : State :=
  if s.awlState b = 0 then
    let s := s.setAwlState b 1
    s.setRas { s.ras with confirm := s.ras.confirm ++ [(b, s.fld Reg.Awl.AWL_CONFIRM)] }
  else s

/-- An engine's overruns within 65,536 stitches reach OVERRUN_LIMIT (R37). -/
def State.checkOverruns (s : State) (e : Engine) (i : Nat) : State :=
  let k := 64 * sourceKind e + i
  let n := (s.sched.overruns.filter (fun x => decide (x.1 = k) && decide (s.now < x.2 + 65536))).length
  match sourceBlock (sourceKind e) i with
  | some b => if e ≠ .nbIssue && decide (s.fld Reg.G.OVERRUN_LIMIT ≤ n) && decide (i < engineCount e) then s.suspect b else s
  | none => s

/-! Kinds of block that are gone (R448). -/

/-- Engine kinds that a job needs. -/
def State.jobEngines (s : State) (j : Job) : List Engine :=
  let of (l : List (Engine × Nat)) : List Engine := l.map (fun x => x.1)
  match j.work with
  | .query q => of (searchNeeds q.shape q.rerankOff)
  | .update u => if u.insert then [.matrix, .vector] else []
  | .compact x => of (compactNeeds (s.coll x.coll).shape (x.cbPins.length > 1))
  | .routeEdit _ => [.vector]
  | .engine e => of (s.engineNeeds e)
  | .attend a => of (s.attendNeeds a)
  | .attnMerge _ | .lookup _ | .embShare _ => [.vector]
  | .nbRun _ => [.nbIssue]
  | .version _ | .hint _ | .embUpdate _ | .stepClose _ | .hotSet _ | .embVersion _ => []

/-- Every block of a kind is RETIRED; for a K-stack, every near-bank group of it. -/
def State.kindGone (s : State) (e : Engine) : Bool :=
  e ≠ .nbIssue && (List.range (engineCount e)).all (fun i => decide (s.blockState e i = 2))

def State.kstackGone (s : State) (k : Nat) : Bool := (List.range 64).all (fun pc => decide (s.group k pc = 2))

/-- A job needs a kind that is gone. -/
def State.jobLost (s : State) (j : Job) : Bool :=
  (s.jobEngines j).any s.kindGone || (match j.work with | .nbRun n => s.kstackGone n.k | _ => false)

/-- Cobbler's report of an event at severity 3 goes to the board management controller too (R459). -/
def State.mirrorLast (s : State) : State := s.setRas { s.ras with smbus := s.ras.smbus ++ [s.fld Reg.Ras.LOG_HEAD - 1] }

/-- After a block's retirement: jobs that need a kind of which none is left are refused. -/
def State.refuseLost (s : State) : State :=
  s.setJobs (s.sched.jobs.map (fun j => if s.jobLost j then j.doomed .refused else j))

/-! Retirements (R323, R444, R446, R449, R450). -/

/-- Move the pages of a stack that left the frame pool, kept ones first: to other stacks, then to flash. -/
def State.leaveStack (s : State) (k : Nat) : State :=
  let all := s.pageList.filter (fun p => (s.page p).framed && decide ((s.page p).stack = k))
  let kept := all.filter (fun p => (s.page p).pin || s.pageHeld p)
  let rest := all.filter (fun p => !kept.contains p)
  let s := kept.foldl (fun s p =>
    match s.takeFrame p (s.page p) (s.page p).st with
    | some t => t
    | none => (((s.writeOut p false).1).setFld Reg.G.MEM_SHORT 1).log 0x04 2 0 1 (64 * k) (p * 0x10000) 2) s
  rest.foldl (fun s p =>
    match s.takeFrame p (s.page p) (s.page p).st with
    | some t => t
    | none => (s.writeOut p false).1) s

/-- Begin a remap copy, or make it wait for the one that runs. -/
def State.startCopy (s : State) (k pc : Nat) : State :=
  if s.flag (Reg.Stack.COPY_ACTIVE k) then s.setRas { s.ras with copyWait := s.ras.copyWait ++ [(k, pc)] }
  else (s.setFld (Reg.Stack.COPY_PC k) pc).setFld (Reg.Stack.COPY_ACTIVE k) 1

/-- Index of a K-stack. -/
def kstackIndex (k : Nat) : Nat := if k = 2 then 0 else if k = 3 then 1 else if k = 8 then 2 else 3

/-- A pseudo-channel counts as retired: its bit, in a K-stack's two places. -/
def State.markPc (s : State) (k pc : Nat) : State :=
  let s := s.putBit (Reg.Stack.PC_RETIRED_LO k) (Reg.Stack.PC_RETIRED_HI k) pc true
  if isKstack k then s.putBit (Reg.KS.PC_RETIRED_LO (kstackIndex k)) (Reg.KS.PC_RETIRED_HI (kstackIndex k)) pc true else s

/-- A plain stack's second retirement removes the stack. -/
def State.removeStack (s : State) (k pc : Nat) : State := (s.markPc k pc).leaveStack k

/-- Remap a pseudo-channel (R323): a K-stack's units are excluded at once (R316). -/
def State.retirePc (s : State) (k pc : Nat) : State :=
  if isKstack k then
    let s := (s.log 0x04 2 0 1 (64 * k + pc) 0 3).setAwlState (100 + 64 * kstackIndex k + pc) 2
    s.startCopy k pc
  else if s.pcRetired k = 0 && !s.flag (Reg.Stack.COPY_ACTIVE k) then (s.log 0x04 2 0 1 (64 * k + pc) 0 1).startCopy k pc
  else
    let s := s.log 0x04 2 0 1 (64 * k + pc) 0 2
    if s.flag (Reg.Stack.COPY_ACTIVE k) then s.startCopy k pc else s.removeStack k pc

/-- The copy of a retired pseudo-channel's units ends. -/
def State.copyDone (s : State) (k : Nat) : State :=
  if decide (k < 12) && s.flag (Reg.Stack.COPY_ACTIVE k) then
    let s := (s.markPc k (s.fld (Reg.Stack.COPY_PC k))).setFld (Reg.Stack.COPY_ACTIVE k) 0
    match s.ras.copyWait.find? (fun x => x.1 = k) with
    | some x =>
      let s := s.setRas { s.ras with copyWait := s.ras.copyWait.erase x }
      if isKstack k then s.startCopy k x.2 else s.removeStack k x.2
    | none => s
  else s

/-- Sectors of a superblock that lie on a channel (log entry 29). -/
def State.sectorsOn (s : State) (n ch : Nat) : List Nat :=
  (s.sb n).sectors.filter (fun x => decide (Config.channelOf n x % 16 = ch % 16))

/-- Sectors whose only copy is gone: poison in the durable copy, and in what software reads where no frame holds it. -/
def State.loseSectors (s : State) (l : List Nat) : State :=
  let f := s.flash
  let lines := l.flatMap (fun x => (List.range 64).map (fun i => 64 * x + i))
  let s := s.setFlash { f with durPoison := lines.foldl (fun m x => SMap.set poisonDefault m x true) f.durPoison }
  let bare := l.filter (fun x => if x * 4096 < tieredEnd then decide ((s.page (x / 16)).st = .flash) else !f.wbuf.any (fun w => decide (w.sector = x)))
  s.takePoison bare

/-- A flash channel is retired (R444). -/
def State.retireChannel (s : State) (ch : Nat) : State :=
  let live := ((List.range 32).filter (fun c => decide (s.fld (Reg.Flash.STATE c) = 1) || decide (s.fld (Reg.Flash.STATE c) = 2))).length
  let s := (s.setFld (Reg.Flash.STATE ch) 3).log 0x04 2 0 2 ch 0 4
  let s := s.setFlash { s.flash with userGb := s.flash.userGb - s.flash.userGb / max 1 live }
  let sbs := (s.sbsOf (ch / 16)).map (fun x => x.1)
  let s := sbs.foldl (fun s n =>
    let l := s.sectorsOn n ch
    if (s.sb n).st = 1 || (s.sb n).st = 2 then ((s.relocate n l).getD s).bumpBy Reg.G.PARITY_REBUILDS l.length else s) s
  let lost := sbs.flatMap (fun n => if (s.sb n).st = 3 then s.sectorsOn n ch else [])
  ((s.loseSectors lost).bumpBy Reg.Ras.LOST_SECTORS lost.length).log 0x10 2 0 2 ch 0 lost.length

/-- A block is retired. -/
def State.retireBlock (s : State) (kind idx b : Nat) : State :=
  let s := s.setAwlState b 2
  let s := s.setRas { s.ras with confirm := s.ras.confirm.filter (fun x => x.1 ≠ b) }
  let s := s.log 0x04 2 0 kind idx 0 8
  let gone := match awlEngine b with | some x => s.kindGone x.1 | none => s.kstackGone ((b - 100) / 64)
  if gone then s.mirrorLast.refuseLost else s

/-- One retirement: recorded in the NOR first, then logged and remapped (R449, R450). -/
def State.retire (s : State) (x : Nat × Nat) : State :=
  let s := s.setRas { s.ras with retireWait := s.ras.retireWait.erase x, retireRecord := s.ras.retireRecord ++ [x] }
  let s := { s with boot := { s.boot with recordValid := true } }
  let s := match x.1 with
    | 1 => if x.2 / 64 < 12 then s.retirePc (x.2 / 64) (x.2 % 64) else s
    | 2 => if x.2 < 32 then s.retireChannel x.2 else s
    | 11 => s.log 0x04 2 0 11 x.2 0 8
    | _ => match sourceBlock x.1 x.2 with
      | some b => s.retireBlock x.1 x.2 b
      | none => s
  s.faultStruck

/-- Retirements take effect at a boundary. -/
def State.retireAll (s : State) : State := s.ras.retireWait.foldl State.retire s

/-- One retirement by its own row. -/
def State.retirement (s : State) (kind idx : Nat) : State :=
  if s.inWindow && s.ras.retireWait.contains (kind, idx) then s.retire (kind, idx) else s

/-! Die-to-die lanes (R445). -/

def State.spares (shank : Nat) : Fld := if shank = 0 then Reg.Ras.D2D_SPARES_A else Reg.Ras.D2D_SPARES_B

/-- A function is found wedged: it acts at the next boundary (R463). -/
def State.foundWedged (s : State) (kind idx : Nat) : State :=
  if s.ras.wedged.contains (kind, idx) || s.ras.wedgeDue.contains (kind, idx) then s
  else s.setRas { s.ras with wedgeDue := s.ras.wedgeDue ++ [(kind, idx)] }

def State.d2dLaneFault (s : State) (shank lane : Nat) : State :=
  if shank < 2 && lane < 64 then
    let i := 64 * shank + lane
    let s := s.permEvent 5 i 0 0
    let f := State.spares shank
    if s.fld f = 0 then s.foundWedged 5 shank
    else
      let s := (s.setFld f (s.fld f - 1)).log 0x04 2 0 5 i 0 7
      s.setRas { s.ras with retireRecord := s.ras.retireRecord ++ [(5, i)] }
  else s

/-! Scrubs (R433, R436, R443, R462). -/

def State.scrub (s : State) (line stack pc outcome bytes : Nat) : State :=
  if 12 ≤ stack || 64 ≤ pc || s.mem.linePoison line || s.nbWindow (64 * line) 64 then s
  else
    let i := 64 * stack + pc
    let dom := SMap.get metaDefault s.mem.meta_ line % 64
    let fixed (s : State) : State :=
      let s := s.bump (Reg.Stack.OUTER_CORRECTED stack)
      if s.flag Reg.Ras.LOG_CORRECTED then s.log 0x01 1 dom 1 i (64 * line) bytes else s
    match outcome with
    | 1 => (fixed s).bump Reg.Ras.TRANSIENT_COUNT
    | 2 =>
      let s := fixed s
      if s.ras.hardLines.contains line then s
      else ((s.setRas { s.ras with hardLines := insNat s.ras.hardLines line }).bump (Reg.Stack.HARD_LINES stack)).permEvent 1 i (64 * line) dom
    | 3 =>
      let s := ((s.bump (Reg.Stack.UNCORRECTABLE stack)).markPoison line dom).log 0x05 2 dom 1 i (64 * line) 1
      s.permEvent 1 i (64 * line) dom
    | _ => s

/-- Steps of a flash read as the channel sorts them (R443). -/
def State.readFault (s : State) (ch step : Nat) : State :=
  if ch < 32 && (step = 2 || step = 3) then s.bump Reg.Ras.TRANSIENT_COUNT
  else if ch < 32 && (step = 4 || step = 5) then s.permEvent 2 ch 0 0
  else s

/-! Margins and supplies (R451, R453). -/

def State.eye (s : State) (wymer : Bool) (lane mv mui : Nat) : State :=
  let kind := if wymer then 4 else 3
  let s := if mv < s.fld Reg.Ras.EYE_MIN_MV then s.log 0x0A 1 0 kind lane 0 mv else s
  if mui < s.fld Reg.Ras.EYE_MIN_MUI then s.log 0x0A 1 0 kind lane 0 mui else s

def State.optical (s : State) (m power : Nat) (low : Bool) : State := if low then s.log 0x0A 1 0 0 m 0 power else s

/-! Awl slices (R454-R457). -/

def awlDefault (_ : Nat) : AwlBlock := {}
def State.awlBlock (s : State) (b : Nat) : AwlBlock := SMap.get awlDefault s.ras.awl b
def State.setAwl (s : State) (b : Nat) (v : AwlBlock) : State := s.setRas { s.ras with awl := SMap.set awlDefault s.ras.awl b v }

/-- The block whose awl slice is due: confirmation slices first, else the next AVAILABLE block of the list. -/
def State.awlDue (s : State) : Option Nat :=
  if !s.flag Reg.Awl.AWL_EN || decide (s.now < s.ras.awlLast + s.fld Reg.Awl.AWL_PERIOD) ||
     s.sched.slices.any (fun x => match x.kind with | .awl _ => true | _ => false) then none
  else match s.ras.confirm with
    | x :: _ => some x.1
    | [] => ((List.range 356).map (fun i => (s.ras.awlNext + i) % 356)).find? (fun b => s.awlState b = 0)

/-- The level at which a block is tested next. -/
def State.awlLevel (s : State) (b : Nat) : Nat :=
  if 100 ≤ b || s.ras.confirm.any (fun x => x.1 = b) then 0 else (s.awlBlock b).level.getD (s.fld Reg.Awl.AWL_MAX_LEVEL)

def marginOf (h : List (Option Nat)) : Nat := (h.filterMap id).foldl max 0

/-- Note the outcome in the block's last 16 slices; MARGIN_LOW when its margin falls below the least. -/
def State.noteMargin (s : State) (b : Nat) (r : Option Nat) : State :=
  let v := s.awlBlock b
  let new := (r :: v.hist).take 16
  let min_ := s.fld Reg.Awl.AWL_MIN_LEVEL
  let first := v.hist = []
  let s := s.setAwl b { v with hist := new }
  let s := (s.setFld (Reg.Awl.MARGIN_LEVEL b) (marginOf new)).setFld (Reg.Awl.TESTED b) 1
  if b < 100 && decide (marginOf new < min_) && (first || decide (min_ ≤ marginOf v.hist)) then
    s.log 0x0A 1 0 (awlSource b).1 (awlSource b).2 0 (marginOf new)
  else s

/-- A confirmation slice passed: the last one returns the block to service. -/
def State.confirmPass (s : State) (b : Nat) : State :=
  match s.ras.confirm.find? (fun x => x.1 = b) with
  | none => s
  | some x =>
    if x.2 ≤ 1 then
      ((s.setRas { s.ras with confirm := s.ras.confirm.erase x }).setAwlState b 0).bump Reg.Ras.TRANSIENT_COUNT
    else s.setRas { s.ras with confirm := s.ras.confirm.map (fun y => if y.1 = b then (b, y.2 - 1) else y) }

/-- An awl slice passes. -/
def State.awlPass (s : State) (b lv : Nat) : State :=
  let s := (s.setFld (Reg.Awl.LAST_PASS_EPOCH b) s.now).noteMargin b (some lv)
  let v := s.awlBlock b
  let top := s.fld Reg.Awl.AWL_MAX_LEVEL
  let s :=
    if 100 ≤ b || s.ras.confirm.any (fun x => x.1 = b) || decide (top ≤ lv) then s.setAwl b { v with streak := 0 }
    else if v.streak = 15 then s.setAwl b { v with level := some (lv + 1), streak := 0 }
    else s.setAwl b { v with streak := v.streak + 1 }
  s.confirmPass b

/-- An awl slice fails. -/
def State.awlFail (s : State) (b lv : Nat) : State :=
  let src := awlSource b
  let s := (s.bump Reg.Awl.AWL_FAILS).noteMargin b none
  let v := s.awlBlock b
  let s := s.log 0x09 (if lv = 0 then 2 else 0) 0 src.1 src.2 0 (lv + s.fld (Reg.Awl.LAST_PASS_EPOCH b) * 2 ^ 16)
  if lv ≠ 0 then s.setAwl b { v with level := some (lv - 1), streak := 0 }
  else if s.ras.confirm.any (fun x => x.1 = b) then
    (s.setRas { s.ras with confirm := s.ras.confirm.filter (fun x => x.1 ≠ b) }).waitRetire src.1 src.2
  else s.suspect b

/-- The awl slice `sid` ends. -/
def State.awlEnd (s : State) (sid : Nat) (pass : Bool) : State :=
  match s.sched.slices.find? (fun x => x.id = sid) with
  | some x => match x.kind with
    | .awl b =>
      let lv := s.awlLevel b
      let s := { s with sched := { s.sched with slices := s.sched.slices.filter (fun y => y.id ≠ sid) } }
      let s := s.bump Reg.Awl.AWL_RUN
      if pass then s.awlPass b lv else s.awlFail b lv
    | _ => s
  | none => s

/-! Wedged functions (R463). -/

/-- Functions whose wedge holds admission until reset: a stack controller, a die-to-die link, the directory, the ring reader. -/
def holdKind (kind : Nat) : Bool := kind = 0 || kind = 1 || kind = 5 || kind = 13

/-- Jobs whose work waits on a wedged function. -/
def State.waitsOn (s : State) (kind idx : Nat) (j : Job) : Bool :=
  let runs := s.sched.slices.any (fun x => (sliceJobs s x.kind).contains j.id && decide (sourceKind x.engine = kind) && decide (x.idx = idx))
  let reads := match j.work with | .query q => decide (q.readsLanded.length < q.readsIssued) | .hint h => h.hint ≠ 5 | _ => false
  let onStacks (f : Nat → Bool) : Bool :=
    s.sched.slices.any (fun x => (sliceJobs s x.kind).contains j.id && x.pages.any (fun p => f (s.page p).stack))
  match kind with
  | 6 | 7 | 8 => runs
  | 9 => runs || (match j.work with | .query q => q.bound && decide (q.sorter = idx) | _ => false)
  | 10 => runs || (match j.work with | .nbRun n => decide (n.k = idx) | _ => false)
  | 2 => reads
  | 5 => reads || onStacks (fun k => k / 6 = idx)
  | 1 => onStacks (fun k => k = idx)
  | 3 => false
  | _ => false

/-- One wedged function is excluded at the boundary. -/
def State.wedge (s : State) (x : Nat × Nat) : State :=
  let s := s.setJobs (s.sched.jobs.map (fun j => if s.waitsOn x.1 x.2 j then j.doomed .aborted else j))
  let s := if x.1 = 3 && x.2 < 8 then (s.setPort x.2 3).requeue x.2 else s
  let s := (s.setRas { s.ras with wedged := s.ras.wedged ++ [x], wedgeDue := s.ras.wedgeDue.erase x }).setFld Reg.Ras.WEDGED 1
  let s := s.log 0x0C 3 0 x.1 x.2 0 x.1
  let s := if holdKind x.1 then s.setFld Reg.Ras.ADMIT_HOLD 1 else s
  if s.flag Reg.Ras.RESET_AUTO then s.setRas { s.ras with resetAsked := true } else s

def State.wedgeAll (s : State) : State := s.ras.wedgeDue.foldl State.wedge s

/-- A wedge found since the boundary; within the window it acts at once. -/
def State.wedged (s : State) (kind idx : Nat) : State := s.foundWedged kind idx

/-! Temperatures and power (R309, R451, R452). -/

/-- Die and stack temperatures and the input power as read at a boundary. -/
def State.thermal (s : State) (x : BoundaryIn) : State :=
  let hot := x.stackC.foldl max 0
  let s := (s.setFld Reg.Ras.TJ_C (min 255 x.dieC)).setFld Reg.Ras.TSTACK_MAX_C (min 255 hot)
  let held := s.flag Reg.Ras.ADMIT_HOLD
  let beyond := decide (100 ≤ x.dieC) || decide (92 ≤ hot) || decide (1500 < x.powerW)
  let cool := decide (x.dieC ≤ 97) && decide (hot ≤ 89) && decide (x.powerW < 1450)
  let stuck := s.ras.wedged.any (fun w => holdKind w.1)
  let now := stuck || beyond || (held && !cool)
  let s := s.setFld Reg.Ras.ADMIT_HOLD (b2n now)
  let s := if now && !held then (s.log 0x0B 2 0 0 0 0 (x.dieC + x.powerW * 2 ^ 16)).faultStruck else s
  let s := (List.range 4).foldl (fun s k =>
    let t := x.stackC.getD (kstackOf k) 0
    let s := s.setFld (Reg.KS.TEMP_C k) (min 255 t)
    let s := if 85 ≤ t then s.setFld (Reg.KS.CAPPED k) 1 else if t ≤ 82 then s.setFld (Reg.KS.CAPPED k) 0 else s
    s.setFld (Reg.KS.HOT_STOP k) (b2n (decide (95 ≤ t)))) s
  if decide (105 ≤ x.dieC) && !s.flag Reg.Ras.THERM_TRIP then
    let s := (s.setFld Reg.Ras.THERM_TRIP 1).log 0x0B 3 0 0 0 0 (x.dieC + x.powerW * 2 ^ 16)
    { s with ras := { s.ras with powerOffAsked := true }, power := { s.power with thermTripLow := true } }
  else s

/-! Cobbler's reports (R459, R460). -/

def State.eventAck (s : State) (seq : Nat) : State :=
  s.setRas { s.ras with unacked := s.ras.unacked.filter (· ≠ seq), pldm := s.ras.pldm.filter (· ≠ seq) }

/-- Each second the events not acknowledged go again. -/
def State.resendEvents (s : State) : State := if s.ras.mgmtDown then s else s.setRas { s.ras with pldm := s.ras.unacked }

/-- The management port goes down or returns: all events go over SMBus while it is down. -/
def State.mgmtPort (s : State) (down : Bool) : State :=
  let r := s.ras
  if down then s.setRas { r with mgmtDown := true, smbus := r.smbus ++ r.pldm.filter (fun x => !r.smbus.contains x), pldm := [] }
  else s.setRas { r with mgmtDown := false, pldm := r.unacked }

/-- MCTP control and PLDM types 0 and 2 are answered; what the answer holds is free. MCTP message types: 0 control, 1 PLDM,
whose type is bits [5:0] of its second byte. -/
def State.mctp (s : State) (viaSmbus : Bool) (mtype : Nat) (body : List Byte) : State :=
  let kind := (body.getD 1 0#8).toNat % 64
  if (viaSmbus || !s.ras.mgmtDown) && (mtype = 0 || (mtype = 1 && (kind = 0 || kind = 2))) then
    (s.setRas { s.ras with answers := s.ras.answers ++ [(viaSmbus, mtype, s.freshCount)] }).fresh
  else s

end Sys2Proof.Machine
end

