-- ==== Sys2Proof/Machine/Start.lean ====
section
/-! DEFINITION. Power, reset and start-up: the NOR, the Last image, training, self-test and half-sole service (R464, R468-R491,
R506, R512, R537-R542). -/

namespace Sys2Proof.Machine

open Sys2Proof

def State.setBoot (s : State) (b : BootSt) : State := { s with boot := b }

/-! The NOR (R472, R473). -/

def norDefault (_ : Nat) : Byte := 0xFF#8
def State.norRead (s : State) (a n : Nat) : List Byte := (List.range n).map (fun i => SMap.get norDefault s.boot.nor (a + i))
def putNor (m : SMap Byte) (a : Nat) : List Byte → SMap Byte
  | [] => m
  | b :: t => putNor (SMap.set norDefault m a b) (a + 1) t
def State.norWrite (s : State) (a : Nat) (l : List Byte) : State := s.setBoot { s.boot with nor := putNor s.boot.nor a l }

/-- First byte of an image slot. -/
def slotBase (slot : Nat) : Nat := if slot = 0 then 0x100000 else 0x1F00000

/-- A boot control copy's fields: REC_SEQ, ACTIVE, TRY, TRIED. -/
structure BootRec where
  seq : Nat
  active : Nat
  try_ : Bool
  tried : Bool
  deriving DecidableEq, Repr

/-- A copy, where its CRC matches. -/
def State.bootCopy (s : State) (i : Nat) : Option BootRec :=
  let b := s.norRead (0x10000 * i) 16
  let w := leNat ((b.drop 4).take 4)
  if crc32c (b.take 12) = leNat (b.drop 12) then
    some { seq := leNat (b.take 4), active := fieldOf w 0 1, try_ := bitOf w 1, tried := bitOf w 2 }
  else none

/-- The copy in use and its place: the valid one with the higher REC_SEQ. -/
def State.bootUse (s : State) : Option (Nat × BootRec) :=
  match s.bootCopy 0, s.bootCopy 1 with
  | some a, some b => if a.seq < b.seq then some (1, b) else some (0, a)
  | some a, none => some (0, a)
  | none, some b => some (1, b)
  | none, none => none

/-- The record that start-up goes by: without a valid copy ACTIVE is 0 and TRY is 0 (R474). -/
def State.bootRec (s : State) : BootRec := (s.bootUse.map (fun x => x.2)).getD { seq := 0, active := 0, try_ := false, tried := false }

/-- Write the copy not in use, with REC_SEQ one higher. -/
def State.writeBoot (s : State) (active : Nat) (try_ tried : Bool) : State :=
  let place := match s.bootUse with | some x => 1 - x.1 | none => 0
  let b := leBytes 4 (s.bootRec.seq + 1) ++ leBytes 4 (active + 2 * b2n try_ + 4 * b2n tried) ++ leBytes 4 0
  s.norWrite (0x10000 * place) (b ++ leBytes 4 (crc32c b))

/-! The Last image (R475-R478, R507). -/

def State.slotBytes (s : State) (slot a n : Nat) : List Byte := s.norRead (slotBase slot + a) n
def State.slotNat (s : State) (slot a n : Nat) : Nat := leNat (s.slotBytes slot a n)
def State.imageBytes (s : State) (slot : Nat) : Nat := s.slotNat slot 0x14 4

/-- Section table: type, offset, length. -/
def State.sections (s : State) (slot : Nat) : List (Nat × Nat × Nat) :=
  (List.range (s.slotNat slot 0x18 1)).map (fun i =>
    (s.slotNat slot (0x20 + 16 * i) 1, s.slotNat slot (0x24 + 16 * i) 4, s.slotNat slot (0x28 + 16 * i) 4))

def State.section? (s : State) (slot ty : Nat) : Option (Nat × Nat) := ((s.sections slot).find? (fun x => x.1 = ty)).map (fun x => x.2)

/-- Check 1: the header, and one section of each type. -/
def State.headerOk (s : State) (slot : Nat) : Bool :=
  decide (s.slotNat slot 0 4 = 0x5453414C) && decide (s.slotNat slot 4 2 = 1) && decide (s.slotNat slot 6 2 = 0xB0) &&
  decide (s.imageBytes slot ≤ 0x1E00000) && decide (2568 ≤ s.imageBytes slot) && decide (s.slotNat slot 0x18 1 = 5) &&
  [1, 2, 3, 4, 5].all (fun t => (s.section? slot t).isSome)

/-- The image public key. -/
def State.imageKey (s : State) (slot : Nat) : List Byte := s.slotBytes slot (s.imageBytes slot - 2568) 68

/-- Digest burnt in an image key slot: slot 0 is the vendor's. -/
def State.slotDigest (s : State) (i : Nat) : Nat := if i = 0 then Config.vendorSlotDigest.toNat else SMap.get (fun _ => 0) s.boot.digests i

/-- Check 3: the burnt, unrevoked image key slot that accepts the key (R507); its OID is big-endian, as RFC 8391 gives. -/
def State.keySlot (s : State) (slot : Nat) : Option Nat :=
  let k := s.imageKey slot
  if k.take 4 = [0#8, 0#8, 0#8, 7#8] then
    (List.range 4).find? (fun i => bitOf (s.fld Reg.Sec.IMG_KEY_VALID) i && !bitOf (s.fld Reg.Sec.IMG_KEY_REVOKED) i &&
      decide ((Config.shake256 k).toNat = s.slotDigest i))
  else none

/-- Check 4: the image signature. -/
def State.signatureOk (s : State) (slot : Nat) : Bool :=
  let n := s.imageBytes slot
  Config.xmssVerify (s.slotBytes slot 0 (n - 2568)) (s.imageKey slot) (s.slotBytes slot (n - 2500) 2500)

def State.sectionBytes (s : State) (slot ty : Nat) : List Byte :=
  match s.section? slot ty with | some x => s.slotBytes slot x.1 x.2 | none => []

/-- A REGWRITE entry. -/
structure RegWrite where
  addr : Nat
  value : Nat
  mask : Nat
  deriving DecidableEq, Repr

def State.regWrites (s : State) (slot : Nat) : List RegWrite :=
  match s.section? slot 2 with
  | some x => (List.range (x.2 / 16)).map (fun i =>
      { addr := s.slotNat slot (x.1 + 16 * i) 4, value := s.slotNat slot (x.1 + 16 * i + 4) 4, mask := s.slotNat slot (x.1 + 16 * i + 8) 4 })
  | none => []

/-- Fields that an entry may touch: LK and RW at an active address, SH at a shadow address. -/
def imageRows (a : Nat) : List Row := (rowsAt a).filter (fun r => r.acc = .lk || r.acc = .rw) ++ shadowRows a

/-- The field touches the mask. -/
def rowTouched (r : Row) (mask : Nat) : Bool := decide (fieldOf mask r.lo r.width ≠ 0)

/-- Apply one entry. -/
def applyEntry (regs : SMap Word) (e : RegWrite) : SMap Word :=
  let old := (SMap.get resetWord regs e.addr).toNat
  SMap.set resetWord regs e.addr (BitVec.ofNat 32 ((old &&& (0xFFFFFFFF - e.mask % 2 ^ 32)) ||| (e.value &&& e.mask)))

/-- Entries of the region tables, whose GRANULES and GROUPS have a range while EN is 1 only. -/
def conditionalEntry (a : Nat) : Bool :=
  (decide (0x984000 ≤ a) && decide (a < 0x985000)) || (decide (0x98000 ≤ a) && decide (a < 0x98400))

/-- Fields whose range is a condition of its own: distinct places, stacks that are no K-stacks, aligned bases, sets. -/
def specialRange (a w : Nat) (last : Nat → Nat) : Bool :=
  if a = 0x1C then decide (((List.range 8).map (fun i => fieldOf w (3 * i + 8) 3)).foldl insNat [] = List.range 8)
  else if a = 0x18 ∨ a = 0x440 then decide (w % 4096 &&& 0x30C = 0)
  else if a = 0x10 ∨ a = 0x3A0 ∨ a = 0x400 ∨ a = 0x4F0 ∨ a = 0x4F8 then decide (w % 0x10000 = 0)
  else if a = 0x444 then decide (w % 256 ≤ w / 256 % 256)
  else if a = 0x470 then decide (((List.range 8).map (fun i => fieldOf w (4 * i) 4)).foldl insNat [] = List.range 8)
  else if a = 0xB00024 then !bitOf w 7
  else if conditionalEntry a then
    (if a % 16 = 0 then !bitOf w 0 || decide (last (a + 8) ≠ 0) else if a % 16 = 8 then !bitOf (last (a - 8)) 0 || decide (w ≠ 0) else true)
  else true

/-- An entry meets R478 given the registers after it and after the last one. -/
def entryOk (e : RegWrite) (here last : SMap Word) : Bool :=
  let rows := imageRows e.addr
  let w := (SMap.get resetWord here e.addr).toNat
  let conditional := conditionalEntry e.addr
  decide (e.addr % 4 = 0) &&
  (List.range 32).all (fun i => !bitOf e.mask i || rows.any (fun r => decide (r.lo ≤ i) && decide (i < r.lo + r.width))) &&
  rows.all (fun r => !rowTouched r e.mask || conditional || (decide (r.rlo ≤ fieldOf w r.lo r.width) && decide (fieldOf w r.lo r.width ≤ r.rhi))) &&
  (!rows.any (fun r => rowTouched r e.mask) || specialRange e.addr (if conditional then (SMap.get resetWord last e.addr).toNat else w)
    (fun a => (SMap.get resetWord last a).toNat))

/-- Check 6: every entry. -/
def entriesOk (last : SMap Word) : List RegWrite → SMap Word → Bool
  | [], _ => true
  | e :: t, regs => let here := applyEntry regs e; entryOk e here last && entriesOk last t here

def State.regwriteOk (s : State) (slot : Nat) : Bool :=
  let es := s.regWrites slot
  decide (((s.section? slot 2).map (fun x => x.2 % 16)).getD 1 = 0) && entriesOk (es.foldl applyEntry []) es []

/-- Every check of R475. -/
def State.slotOk (s : State) (slot : Nat) : Bool :=
  s.headerOk slot && decide (s.fld Reg.Sec.SEC_FLOOR ≤ s.slotNat slot 0x10 4) && (s.keySlot slot).isSome && s.signatureOk slot &&
  Config.firmwareOk (s.sectionBytes slot 1) && s.regwriteOk slot

/-- COMMIT register of the block that holds a shadow address. -/
def commitAddr (a : Nat) : Nat :=
  match a / 0x100000 with
  | 2 => a - a % 0x40000
  | 4 => a - a % 0x10000
  | 8 => 0x800000
  | 9 => 0x900000
  | _ => 0x130

/-- Apply an image: its entries, COMMIT in every block that took a shadow write and in COMMIT_CTRL, its identity. -/
def State.applyImage (s : State) (slot : Nat) : State :=
  let es := s.regWrites slot
  let s := { s with regs := es.foldl applyEntry s.regs }
  let blocks := (0x130 :: ((es.filter (fun e => shadowRows e.addr ≠ [])).map (fun e => commitAddr e.addr))).foldl insNat []
  let s := blocks.foldl (fun s a => s.setFld ⟨a, 0, 1⟩ 1) s
  let s := (s.setFld Reg.Start.SLOT_USED slot).setWide Reg.Start.IMAGE_ID_LO Reg.Start.IMAGE_ID_HI (s.slotNat slot 8 8)
  let s := (s.setFld Reg.Start.SECURITY_VERSION (s.slotNat slot 0x10 4)).setFld Reg.Sec.IMG_KEY_USED ((s.keySlot slot).getD 0)
  s.setFld Reg.G.FW_VERSION (Config.firmwareVersion (s.sectionBytes slot 1)).toNat

/-! Attestation leaves at start-up (R510, R512). -/

/-- The i-th record of the reservation log, where its CRC holds: GEN and FIRST_K. -/
def State.leafRecord (s : State) (i : Nat) : Option (Nat × Nat) :=
  let b := s.norRead (0x3E20000 + 16 * i) 16
  if crc32c (b.take 12) = leNat (b.drop 12) then let w := leNat (b.take 8); some (fieldOf w 0 11, fieldOf w 16 10) else none

/-- Places of the log that hold something. -/
def State.leafPlaces (s : State) : List Nat :=
  ((s.boot.nor.filter (fun x => decide (0x3E20000 ≤ x.1) && decide (x.1 < 0x3F20000))).map (fun x => (x.1 - 0x3E20000) / 16)).foldl insNat []

def State.firstLeaf (s : State) : Nat :=
  let n := s.fld Reg.Sec.FUSE_GEN
  if n = 0 then 0
  else
    let g := n - 1
    if s.flag Reg.Sec.ATTEST_STRICT then 1024 * (g + 1)
    else
      let ks := (s.leafPlaces.filterMap s.leafRecord).filter (fun x => x.1 = g)
      if ks = [] then 1024 * g else 1024 * g + ((ks.map (fun x => x.2)).foldl max 0) + 64

/-! Start-up states (R468, R469). -/

/-- Change START_STATE: reported, and sent to the fabric manager by a member. -/
def State.setStart (s : State) (v : Nat) : State :=
  let s := (s.setFld Reg.Start.START_STATE v).setBoot { s.boot with reports := s.boot.reports ++ [v] }
  if s.fld Reg.G.MEMBER_STATE = 2 then s.send manager 5 (.startReport v) else s

def State.halt (s : State) (cause : Nat) : State :=
  let s := (s.setFld Reg.Start.HALT_CAUSE cause).setStart 7
  { s with time := { s.time with admitOpen := false } }

/-- What a full reset leaves (R464, R491): fuses, the NOR, the retirement record and the durable flash copy; power, pins and
the commands that wait. -/
def State.coldReset (s : State) : State :=
  let m := s.loseMemory
  let z := State.reset
  let r := { z with
    pending := s.pending, freshCount := s.freshCount, power := s.power
    mem := m.mem, pages := m.pages
    flash := { z.flash with dur := s.flash.dur, durPoison := s.flash.durPoison, seqOf := s.flash.seqOf, sbs := s.flash.sbs
                            sbTotal := s.flash.sbTotal, journal := m.flash.journal, jErased := s.flash.jErased }
    ras := { z.ras with retireRecord := s.ras.retireRecord }
    boot := { z.boot with nor := s.boot.nor, recordValid := s.boot.recordValid, digests := s.boot.digests, draws := s.boot.draws } }
  ((((r.setFld Reg.Sec.FUSE_GEN (s.fld Reg.Sec.FUSE_GEN)).setFld Reg.Sec.SEC_FLOOR (s.fld Reg.Sec.SEC_FLOOR)).setFld
    Reg.Sec.IMG_KEY_VALID (s.fld Reg.Sec.IMG_KEY_VALID)).setFld Reg.Sec.IMG_KEY_REVOKED (s.fld Reg.Sec.IMG_KEY_REVOKED))

/-- Which slots the ROM reads, in order, and what it writes to the boot control record first (R474). -/
def State.bootOrder (s : State) : State × List Nat :=
  let r := s.bootRec
  let other := 1 - r.active
  if s.bootUse.isSome && r.try_ && !r.tried then (s.writeBoot r.active true true, [other, r.active])
  else if s.bootUse.isSome && r.try_ then ((s.writeBoot r.active false false).setFld Reg.Start.TRY_FAILED 1, [r.active, other])
  else (s, [r.active, other])

/-- The ROM runs: it uses the first slot that passes, or halts (R474, R479, R485). -/
def State.runRom (s : State) : State :=
  let x := s.bootOrder
  let s := x.1
  match x.2.find? s.slotOk with
  | none => s.halt 1
  | some slot =>
    let s := s.applyImage slot
    let s := (s.setFld Reg.Sec.LEAF_NEXT s.firstLeaf).setFld Reg.Sec.ATTEST_READY (b2n (Config.cacheOk (s.norRead 0x3E10000 0x10000)))
    { s with time := { s.time with epoch := 0#48, phase := 0, timer := true, stitchLen := s.fld Reg.G.PERIOD_US * 1300 } }

/-- NODE_RST_N is released. -/
def State.resetRelease (s : State) : State :=
  if s.power.nodeRstLow then
    let s := { s with power := { s.power with nodeRstLow := false, xspiRstLow := false, xspiCeHigh := false } }
    if s.power.modPg then s.runRom else s
  else s

/-- A low pulse on NODE_RST_N (R464, R541). -/
def State.nodeReset (s : State) (ns : Nat) : State :=
  if s.power.modPg && !s.power.nodeRstLow && decide (10000 ≤ ns) then
    let s := s.coldReset
    { s with power := { s.power with nodeRstLow := true, thermTripLow := false, xspiRstLow := true, xspiCeHigh := true } }
  else s

/-! Power (R537, R539, R541, R542). -/

/-- MOD_PG deasserts and the rails go; nothing but what was durable survives. -/
def State.powerDown (s : State) : State :=
  let s := s.coldReset
  { s with power := { s.power with railsUp := false, modPg := false, thermTripLow := false, xspiRstLow := true, xspiCeHigh := true } }

def State.setPower (s : State) (p : PowerSt) : State := { s with power := p }

def State.modEnAssert (s : State) : State := if s.power.modEn then s else s.setPower { s.power with modEn := true }

/-- Every rail is in band: MOD_PG asserts. -/
def State.rampDone (s : State) : State :=
  if s.power.modEn && s.power.vinOk && !s.power.offUntilCycle && !s.power.modPg then
    let s := s.setPower { s.power with railsUp := true, modPg := true }
    if s.power.nodeRstLow then s else (s.setPower { s.power with xspiRstLow := false, xspiCeHigh := false }).runRom
  else s

def State.modEnDeassert (s : State) : State :=
  if s.power.modEn then
    let s := if s.power.modPg then s.powerDown else s
    s.setPower { s.power with modEn := false, offUntilCycle := false }
  else s

/-- The rails went while MOD_EN stays asserted: no ramp follows before MOD_EN is cycled. -/
def State.shutOff (s : State) : State := let s := s.powerDown; s.setPower { s.power with offUntilCycle := s.power.modEn }

def State.railOut (s : State) : State := if s.power.modPg then s.shutOff else s

def State.undervoltage (s : State) (ns : Nat) : State :=
  if 20000 < ns then
    (if s.power.modPg then s.shutOff else s.setPower { s.power with offUntilCycle := s.power.modEn })
  else s

def State.thermalShutdown (s : State) (dieC stackC : Nat) : State :=
  if decide (110 ≤ dieC) || decide (100 ≤ stackC) then (if s.power.modPg then s.shutOff else s) else s

/-! Training (R480, R481). -/

/-- One entry of the retirement record is applied before training: its block or channel stays RETIRED and is not tested. -/
def State.applyRecord (s : State) (x : Nat × Nat) : State :=
  let k := x.2 / 64
  match x.1 with
  | 1 =>
    if 12 ≤ k then s
    else
      let s := s.markPc k (x.2 % 64)
      if isKstack k then s.setAwlState (100 + 64 * kstackIndex k + x.2 % 64) 2 else s
  | 2 => if x.2 < 32 then s.setFld (Reg.Flash.STATE x.2) 3 else s
  | 3 => if x.2 < 16 then s.setPort (x.2 / 2) 3 else s
  | 4 =>
    if s.flag Reg.Link.HALF_RETIRED then s.setFld Reg.Link.LINK_STATE 4
    else ((s.setFld Reg.Link.HALF_RETIRED 1).setFld Reg.Link.LOW_HALF (b2n (decide (16 ≤ x.2)))).setLink { s.link with narrow := true }
  | 5 => let f := State.spares (x.2 / 64); s.setFld f (s.fld f - 1)
  | _ => match sourceBlock x.1 x.2 with
    | some b => (s.setAwlState b 2).setFld (Reg.Start.RECORDED b) 1
    | none => s

/-- The node enters TRAIN at the first boundary. -/
def State.enterTrain (s : State) : State :=
  let s := s.setStart 1
  if s.boot.recordValid then s.ras.retireRecord.foldl State.applyRecord s
  else (s.setRas { s.ras with retireRecord := [] }).log 0x0F 1 0 0 0 0 0

/-- Targets of a channel as training finds them. -/
def foundTargets (c : Nat) : Nat := (Config.channelShape c).toNat % 8 + 1

/-- A channel's population (R353). -/
def State.noteChannel (s : State) (c : Nat) : State :=
  let w := (Config.channelShape c).toNat
  ((s.setFld (Reg.Flash.TARGETS c) (foundTargets c)).setFld (Reg.Flash.LUNS c) (w / 8 % 2 + 1)).setFld (Reg.Flash.PLANES c) (w / 16 % 2)

/-- Targets beyond the least that all of a Shank's channels have stay unused: each is logged once (R552). -/
def State.logUnused (s : State) (cs : List Nat) : State :=
  cs.foldl (fun s c =>
    let least := ((cs.filter (fun i => decide (i / 16 = c / 16))).map foundTargets).foldl min 8
    (List.range (foundTargets c - least)).foldl (fun s _ => s.log Config.targetClass.toNat 1 0 2 c 0 0) s) s

/-- Stacks, die-to-die links and flash channels have trained; a channel outside the list is ABSENT (R335). -/
def State.trainingDone (s : State) (d2dOk : Bool) (channels : List Nat) : State :=
  if s.startState ≠ 1 then s
  else if !d2dOk then s.halt 4
  else
    let s := (List.range 32).foldl (fun s c =>
      if channels.contains c && decide (s.fld (Reg.Flash.STATE c) = 0) then s.setFld (Reg.Flash.STATE c) 1 else s) s
    let on := (List.range 32).filter (fun c => decide (s.fld (Reg.Flash.STATE c) = 1))
    ((on.foldl State.noteChannel s).logUnused on).setStart 2

/-! Self-test (R482-R485). -/

def State.marchResult (s : State) (t : StackTest) : State :=
  if 12 ≤ t.stack then s
  else
    let k := t.stack
    let s := ((s.setFld (Reg.Start.STACK_COVERAGE k) t.coverage).setFld (Reg.Start.STACK_MS k) t.ms).setFld (Reg.Start.ROWS_REPAIRED k) t.rows
    let s := s.setFld (Reg.Start.PC_FAILED k) t.pcs.length
    t.pcs.foldl (fun s pc => if pc < 64 then s.waitRetire 1 (64 * k + pc) else s) s

def State.sramResult (s : State) (t : SramTest) : State :=
  let s := ((s.setFld Reg.Start.SRAM_COVERAGE t.coverage).setFld Reg.Start.SRAM_MS t.ms).setFld Reg.Start.SRAM_ROWS_REPAIRED t.rows
  let s := s.setFld Reg.Start.CACHE_WAYS_OFF t.ways
  if !t.ok then s.halt 2 else if !t.dirOk then s.halt 3 else s

/-- A wave ends. -/
def State.bistWave (s : State) (w : WaveIn) : State :=
  if s.startState ≠ 2 then s
  else
    let s := (s.bump Reg.Start.WAVES_RUN).bumpBy Reg.Start.SELFTEST_MS w.ms
    let s := w.blocks.foldl (fun s b =>
      if 356 ≤ b || s.flag (Reg.Start.RECORDED b) then s
      else if w.failed.contains b then
        (s.setFld (Reg.Start.BIST_RESULT b) 3).setBoot { s.boot with retest := insNat s.boot.retest b }
      else s.setFld (Reg.Start.BIST_RESULT b) 1) s
    let s := w.marches.foldl State.marchResult s
    let s := w.channels.foldl (fun s c =>
      if 32 ≤ c.1 || s.fld (Reg.Flash.STATE c.1) = 3 then s
      else
        let s := s.setFld (Reg.Start.FLASH_RESULT c.1) c.2
        if c.2 = 3 then s.waitRetire 2 c.1 else s) s
    if !w.unitOk then s.halt 5
    else match w.sram with
      | some t => s.sramResult t
      | none => s

/-- A wave exceeds its power limit and is rerun in halves. -/
def State.waveSplit (s : State) (powerW : Nat) : State :=
  if s.startState = 2 && s.fld Reg.Start.BIST_POWER_W + 50 < powerW then s.bump Reg.Start.WAVE_SPLITS else s

/-- A failed block is retested alone. -/
def State.retestWave (s : State) (b : Nat) (pass : Bool) : State :=
  if s.startState = 2 && s.boot.retest.contains b then
    let s := if s.boot.retested then s else s.bump Reg.Start.WAVES_RUN
    let s := s.setBoot { s.boot with retest := s.boot.retest.filter (· ≠ b), retested := true }
    let src := awlSource b
    if pass then ((s.setFld (Reg.Start.BIST_RESULT b) 2).bump Reg.Ras.TRANSIENT_COUNT).log 0x02 1 0 src.1 src.2 0 1
    else (s.setFld (Reg.Start.BIST_RESULT b) 3).waitRetire src.1 src.2
  else s

/-! The rebuild and half-sole service (R350, R468, R487). -/

/-- The rebuild starts once self-test has ended. -/
def State.startScan (s : State) (sbTotal userGb : Nat) : State :=
  if s.startState = 2 && decide (1 ≤ s.fld Reg.Start.WAVES_RUN) && s.boot.retest = [] && !s.boot.rebuildBegun then
    (s.mapRebuild sbTotal userGb).setBoot { s.boot with rebuildBegun := true }
  else s

def State.enterRebuild (s : State) : State := if s.startState = 2 && s.boot.rebuildBegun then s.setStart 3 else s

/-- HALF_SOLE_1 begins at the boundary after the sets of HS1_SETS are ready. -/
def State.halfSole1 (s : State) : State :=
  if s.startState = 3 && s.inWindow && decide (s.fld Reg.Start.HS1_SETS &&& s.fld Reg.G.SET_READY = s.fld Reg.Start.HS1_SETS) then
    (s.setStart 4).setFld Reg.Start.HS1_EPOCH s.now
  else s

/-- The repair has covered set 7 and the first set that holds flash-direct data. -/
def State.firstCovered (s : State) : Bool :=
  bitOf s.flash.covered 7 &&
  (bitOf s.flash.covered 8 || s.flash.sbs.any (fun x => bitOf s.flash.covered x.2.set && x.2.sectors.any (fun y => decide (tieredEnd ≤ 4096 * y))))

def State.halfSole2 (s : State) : State :=
  if s.startState = 4 && s.inWindow && s.firstCovered then (s.setStart 5).setFld Reg.Start.HS2_EPOCH s.now else s

/-- FULL: Cobbler makes the slot in use the active one (R474). -/
def State.full (s : State) : State :=
  if s.startState = 5 && s.inWindow && s.flag Reg.G.REBUILD_DONE && decide (s.flash.covered = 511) then
    let s := (s.setStart 6).setFld Reg.Start.FULL_EPOCH s.now
    let r := s.bootRec
    if r.active ≠ s.fld Reg.Start.SLOT_USED || r.try_ then s.writeBoot (s.fld Reg.Start.SLOT_USED) false false else s
  else s

/-- START_STATE moves by at most one state at a boundary. -/
def State.advanceStart (s : State) : State :=
  match s.startState with
  | 2 => s.enterRebuild
  | 3 => s.halfSole1
  | 4 => s.halfSole2
  | 5 => s.full
  | _ => s

end Sys2Proof.Machine
end

