-- ==== Sys2Proof/Machine/Mailbox.lean ====
section
/-! DEFINITION. The Cobbler mailbox, its commands, keys, fuses and attestation (R501, R506-R515, R531, R532). -/

namespace Sys2Proof.Machine

open Sys2Proof

/-! The window (R531, R532). -/

/-- Bytes of MB_DATA. -/
def State.mbBytes (s : State) (n : Nat) : List Byte :=
  ((List.range (cdiv n 4)).flatMap (fun i => leBytes 4 (s.fld (Reg.Mb.MB_DATA i)))).take n

/-- Bytes as little-endian words. -/
def wordsOf : Nat → List Byte → List Nat
  | 0, _ => []
  | n + 1, b => leNat (b.take 4) :: wordsOf n (b.drop 4)

/-- A command completes: its output stands in MB_DATA, then MB_BUSY clears. -/
def State.mbFinish (s : State) (st : Status) (out : List Byte) : State :=
  let s := s.setRegs (Reg.Mb.MB_DATA 0).addr (wordsOf (cdiv out.length 4) out)
  let s := ((s.setFld Reg.Mb.MB_RESULT st.code).setFld Reg.Mb.MB_OUT_LEN out.length).bump Reg.Mb.MB_SEQ
  s.setFld Reg.Mb.MB_BUSY 0

/-- Cobbler runs the command that MB_CMD started: `none` refuses it, without effect. -/
def State.mbRun (s : State) (code : Nat) (f : State → Option (State × List Byte)) : State :=
  if s.flag Reg.Mb.MB_BUSY && decide (s.fld Reg.Mb.MB_CMD = code) then
    match f s with
    | some x => x.1.mbFinish .ok x.2
    | none => s.mbFinish .refused []
  else s

/-- Codes with a command. -/
def mbCodes : List Nat := [0x01, 0x10, 0x11, 0x12, 0x13, 0x20, 0x21, 0x22, 0x23, 0x24, 0x25, 0x26, 0x27, 0x28]

/-- A write to MB_CMD starts a command; one whose code names none completes REFUSED (R532). -/
def State.mbStart (s : State) (code : Nat) : State :=
  let s := (s.setFld Reg.Mb.MB_CMD code).setFld Reg.Mb.MB_BUSY 1
  if mbCodes.contains code then s else s.mbFinish .refused []

/-! Information, image slots and the retirement record (R450, R472, R473, R532). -/

def State.getInfo (s : State) : Option (State × List Byte) :=
  let r := s.bootRec
  some (s, (List.range 16).map (Config.infoByte (s.fld Reg.G.FW_VERSION) (s.fld Reg.Start.SLOT_USED) r.seq r.active r.try_))

def State.slotWrite (s : State) : Option (State × List Byte) :=
  let slot := s.fld Reg.Mb.MB_ARG0 % 2
  let sector := s.fld Reg.Mb.MB_ARG1
  if decide (slot = s.fld Reg.Start.SLOT_USED) || decide (480 ≤ sector) then none
  else
    let a := slotBase slot + 0x10000 * sector
    let n := min 0x10000 (s.fld Reg.Mb.MB_IN_LEN)
    let erased := s.setBoot { s.boot with nor := s.boot.nor.filter (fun x => decide (x.1 < a) || decide (a + 0x10000 ≤ x.1)) }
    some (erased.norWrite a (s.mbBytes n), [])

def State.slotTry (s : State) : Option (State × List Byte) :=
  let slot := s.fld Reg.Mb.MB_ARG0 % 2
  let active := s.bootRec.active
  if decide (slot = active) || !s.slotOk slot then none else some (s.writeBoot active true false, [])

def State.retireRead (s : State) : Option (State × List Byte) :=
  if s.boot.recordValid then some (s, s.ras.retireRecord.flatMap (fun x => leBytes 4 (x.1 % 256 + x.2 % 2 ^ 16 * 2 ^ 16))) else none

/-- The entry leaves both copies; the channel or block stays RETIRED until the next reset (R450). -/
def State.retireClear (s : State) : Option (State × List Byte) :=
  let w := s.fld Reg.Mb.MB_ARG0
  let x := (w % 256, w / 2 ^ 16)
  if s.ras.retireRecord.contains x then some (s.setRas { s.ras with retireRecord := s.ras.retireRecord.filter (· ≠ x) }, []) else none

/-! Domain keys (R501, R514, R515). -/

def State.mbDomain (s : State) : Nat := s.fld Reg.Mb.MB_ARG0 % 64
def State.domainKey (s : State) (d : Nat) : Option Nat := SMap.get (fun _ => none) s.boot.keys d

/-- Load or erase a key; KEY_LOADED says which. -/
def State.setKey (s : State) (d : Nat) (k : Option Nat) : State :=
  (s.setBoot { s.boot with keys := SMap.set (fun _ => none) s.boot.keys d k }).setFld (Reg.Dom.KEY_LOADED d) (b2n k.isSome)

/-- The blob of a key (R501). -/
def keyBlob (k d : Nat) : List Byte := leBytes 80 (Config.keyWrap (BitVec.ofNat 512 k) d).toNat

def State.keyGen (s : State) : Option (State × List Byte) :=
  let d := s.mbDomain
  if s.flag (Reg.Dom.KEY_LOADED d) then none
  else
    let k := (Config.randomKey s.boot.draws).toNat
    some ((s.setKey d (some k)).setBoot { (s.setKey d (some k)).boot with draws := s.boot.draws + 1 }, keyBlob k d)

def State.keyImport (s : State) : Option (State × List Byte) :=
  let d := s.mbDomain
  if s.flag (Reg.Dom.KEY_LOADED d) || !s.flag Reg.Sec.IMPORT_EN then none
  else let k := leNat (s.mbBytes 64); some (s.setKey d (some k), keyBlob k d)

/-- A blob that does not unwrap, or that names another domain, loads nothing. -/
def State.keyLoad (s : State) : Option (State × List Byte) :=
  let d := s.mbDomain
  if s.flag (Reg.Dom.KEY_LOADED d) then none
  else match Config.keyUnwrap (BitVec.ofNat 640 (leNat (s.mbBytes 80))) with
    | some x => if x.2 = d then some (s.setKey d (some x.1.toNat), []) else none
    | none => none

def State.keyErase (s : State) : Option (State × List Byte) :=
  let d := s.mbDomain
  if (s.regionList.map s.region).any (fun r => r.en && r.enc && decide (r.dom = d)) then none else some (s.setKey d none, [])

/-! Image keys and the security floor (R506-R509, R515). -/

def State.imageKeyProvision (s : State) : Option (State × List Byte) :=
  let valid := s.fld Reg.Sec.IMG_KEY_VALID
  match (List.range 4).find? (fun i => !bitOf valid i) with
  | some i =>
    if s.startState = 6 then
      let s := s.setBoot { s.boot with digests := SMap.set (fun _ => 0) s.boot.digests i (leNat (s.mbBytes 32)) }
      some (s.setFld Reg.Sec.IMG_KEY_VALID (valid ||| 2 ^ i), [])
    else none
  | none => none

def State.imageKeyRevoke (s : State) : Option (State × List Byte) :=
  let revoked := s.fld Reg.Sec.IMG_KEY_REVOKED ||| 2 ^ (s.fld Reg.Mb.MB_ARG0 % 4)
  if (List.range 4).any (fun i => bitOf (s.fld Reg.Sec.IMG_KEY_VALID) i && !bitOf revoked i) then
    some (s.setFld Reg.Sec.IMG_KEY_REVOKED revoked, [])
  else none

def State.secFloorRaise (s : State) : Option (State × List Byte) :=
  if s.startState = 6 then
    some (s.setFld Reg.Sec.SEC_FLOOR (max (s.fld Reg.Sec.SEC_FLOOR) (min 64 (s.fld Reg.Start.SECURITY_VERSION))), [])
  else none

/-! Attestation (R510-R513). -/

/-- A reservation record covers the leaf. -/
def State.leafReserved (s : State) (leaf : Nat) : Bool :=
  (s.leafPlaces.filterMap s.leafRecord).any (fun x =>
    decide (x.1 = leaf / 1024) && decide (x.2 ≤ leaf % 1024) && decide (leaf % 1024 < x.2 + 64))

/-- Make a leaf usable: the first of a generation not yet open burns the generation's fuse, and a record reserves the leaf's
block of 64 past the last place that holds anything (R511). -/
def State.reserveLeaf (s : State) (leaf : Nat) : State :=
  if s.leafReserved leaf then s
  else
    let g := leaf / 1024
    let s := if leaf % 1024 = 0 ∧ s.fld Reg.Sec.FUSE_GEN ≤ g then s.setFld Reg.Sec.FUSE_GEN (g + 1) else s
    let place := (s.leafPlaces.map (· + 1)).foldl max 0
    let b := leBytes 4 (g + leaf % 1024 / 64 * 64 * 2 ^ 16) ++ leBytes 8 0
    s.norWrite (0x3E20000 + 16 * place) (b ++ leBytes 4 (crc32c b))

/-- Register words as bytes, `n` from `a` on. -/
def State.regBytes (s : State) (a n : Nat) : List Byte := (List.range n).flatMap (fun i => leBytes 4 (s.reg (a + 4 * i)).toNat)

/-- The active domain and region entries, in address order. -/
def State.configBytes (s : State) : List Byte := s.regBytes 0x901000 512 ++ s.regBytes 0x904000 1024

/-- The quote of R513. -/
def State.quote (s : State) (leaf : Nat) : List Byte :=
  let slot := s.fld Reg.Start.SLOT_USED
  let security := s.fld Reg.Start.SECURITY_VERSION + s.fld Reg.Sec.SEC_FLOOR * 2 ^ 32 + s.startState * 2 ^ 40 +
    s.fld Reg.Sec.ADMIT_MODE * 2 ^ 43 + s.fld Reg.Sec.IMG_KEY_USED * 2 ^ 44
  leBytes 8 (0x5141534B + 2 ^ 32 + 0xB0 * 2 ^ 48) ++ leBytes 8 Config.serial.toNat ++
  leBytes 8 (s.wide Reg.Start.IMAGE_ID_LO Reg.Start.IMAGE_ID_HI) ++ leBytes 8 security ++
  leBytes 8 (leaf + s.fld Reg.Sec.FUSE_GEN * 2 ^ 32) ++ leBytes 8 s.now ++ leBytes 16 0 ++ s.mbBytes 32 ++
  leBytes 32 (Config.shake256 (s.slotBytes slot 0 (s.imageBytes slot - 2568))).toNat ++ leBytes 32 (Config.shake256 s.configBytes).toNat

/-- Seconds since the last quote are too few. -/
def State.tooSoon (s : State) (sinceS : Nat) : Bool :=
  decide (s.fld Reg.Sec.ATTEST_COUNT ≠ 0) && decide (sinceS < s.fld Reg.Sec.ATTEST_MIN_S)

def State.attestQuote (s : State) (sinceS : Nat) : Option (State × List Byte) :=
  let leaf := s.fld Reg.Sec.LEAF_NEXT
  if s.tooSoon sinceS || !s.flag Reg.Sec.ATTEST_READY || decide (2 ^ 20 ≤ leaf) then none
  else
    let s := s.reserveLeaf leaf
    let q := s.quote leaf
    let sig := Config.xmssSign leaf q
    some ((s.setFld Reg.Sec.LEAF_NEXT (leaf + 1)).bump Reg.Sec.ATTEST_COUNT, q ++ (List.range 2820).map (fun i => sig.getD i 0#8))

def State.attestCert (s : State) : Option (State × List Byte) := some (s, s.norRead 0x3E00000 (min 0x10000 Config.certLen))

/-- The rebuild of the traversal cache ends. -/
def State.cacheRebuilt (s : State) : State := s.setFld Reg.Sec.ATTEST_READY 1

end Sys2Proof.Machine
end

