-- ==== Sys2Proof/Machine/Regs.lean ====
section
/-! DEFINITION. Register space: reads with their computed fields and latches, writes, shadows and commits (R38-R43, R47-R49,
R370, R425, R495, R496, R519-R533). -/

namespace Sys2Proof.Machine

open Sys2Proof

/-! Fields that a read computes. -/

/-- The job names a collection, sequence slot or embedding table that is DRAINING (R53, R528). -/
def State.draining (s : State) (j : Job) : Bool :=
  let coll (c : Nat) : Bool := decide ((s.coll c).st = 3)
  let seq (c : Nat) : Bool := decide (SMap.get (fun _ => 0) s.attn.slots c = 3)
  let tab (t : Nat) : Bool := decide ((s.tab t).st = 3)
  match j.work with
  | .query q => coll q.coll
  | .update u => coll u.coll
  | .compact c => coll c.coll
  | .version v => coll v.coll
  | .routeEdit r => coll r.coll
  | .attend a => seq a.slot
  | .attnMerge m => seq m.slot
  | .lookup l => tab l.table
  | .embShare x => tab x.table
  | .embUpdate u => tab u.table
  | .stepClose c => tab c.table
  | .hotSet h => tab h.table
  | .embVersion v => tab v.table
  | .hint _ | .engine _ | .nbRun _ => false

/-- Version registers of collection `c` (R163, R164): word `i` of its entry. -/
def State.verWord (s : State) (c i : Nat) : Nat :=
  let v := s.coll c
  match i with
  | 0 => v.routeA.state + 4 * v.routeB.state + 16 * v.cbA.state + 64 * v.cbB.state
  | 1 => s.slotPins c 0 0 % 2 ^ 16 + s.slotPins c 0 1 % 2 ^ 16 * 2 ^ 16
  | 2 => s.slotPins c 1 0 % 2 ^ 16 + s.slotPins c 1 1 % 2 ^ 16 * 2 ^ 16
  | 3 => s.cbRefs c 0
  | 4 => s.cbRefs c 1
  | 5 => v.routeSwap
  | 6 => v.cbSwap
  | _ => 0

/-- Version registers of embedding table `t` (R283). -/
def State.embVerWord (s : State) (t i : Nat) : Nat :=
  let v := s.tab t
  match i with
  | 0 => v.a.state + 4 * v.b.state
  | 1 => s.tabPins t 0 % 2 ^ 16 + s.tabPins t 1 % 2 ^ 16 * 2 ^ 16
  | 2 => v.swap
  | _ => v.stepOpen

/-- Distance between a block's active and shadow addresses, and first address, for each block (R39, R525). -/
def blkBase : Blk → Nat
  | .global => 0
  | .kstack k => 0x200000 + 0x40000 * k
  | .port p => 0x400000 + 0x10000 * p
  | .link => 0x800000
  | .security => 0x900000

def blkDist (b : Blk) : Nat := shadowDist (blkBase b)

/-- The block exists. -/
def blkOk : Blk → Bool
  | .kstack k => decide (k < 4)
  | .port p => decide (p < 8)
  | .global | .link | .security => true

/-- Address of the register with COMMIT (R39). -/
def blkCommitReg (b : Blk) : Nat := match b with | .global => 0x130 | _ => (blkBase b)

def blkCommit (b : Blk) : Fld := ⟨(blkCommitReg b), 0, 1⟩
def blkReject (b : Blk) : Fld := match b with | .global => Reg.G.SHADOW_REJECT | _ => ⟨(blkBase b), 2, 1⟩
def blkEpochReg (b : Blk) : Fld := match b with | .global => Reg.G.COMMIT_EPOCH | _ => ⟨(blkBase b) + 4, 0, 32⟩

/-- Blocks that hold SH fields, in the order in which a boundary commits them. -/
def allBlks : List Blk := .global :: .security :: .link :: ((List.range 4).map Blk.kstack ++ (List.range 8).map Blk.port)

/-- Active addresses of a block whose active or pending word is not at its reset value. -/
def State.shadowed (s : State) (b : Blk) : List Nat :=
  ((s.regs.filter (fun x => decide ((blkBase b) ≤ x.1) && decide (x.1 < (blkBase b) + 2 * (blkDist b)))).map
    (fun x => if (blkBase b) + (blkDist b) ≤ x.1 then x.1 - (blkDist b) else x.1)).foldl insNat []

/-- SH fields of an active address, with their pending values. -/
def State.pendingAt (s : State) (a dist : Nat) : List (Fld × Nat) :=
  ((rowsAt a).filter (fun r => r.acc = .sh)).map (fun r => (⟨a, r.lo, r.width⟩, s.fld ⟨a + dist, r.lo, r.width⟩))

/-- Some pending value differs from its active value (R48). -/
def State.pendingDiff (s : State) (b : Blk) : Bool :=
  (s.shadowed b).any (fun a => (s.pendingAt a (blkDist b)).any (fun x => decide (s.fld x.1 ≠ x.2)))

/-- Phase of the stitch in 10 ps. -/
def State.phaseTime (s : State) : Nat := s.time.phase * 1000 / 13

/-- Computed words: those whose every field a read derives from the state. -/
def State.viewWord (s : State) (a : Nat) : Option Nat :=
  let durable := s.journalDurable
  if a = 0x110 then some s.now
  else if a = 0x114 then some (s.now / 2 ^ 32)
  else if a = 0x118 then some s.time.phase
  else if a = 0x310 then some (512 - s.ctxUsed.length)
  else if a = 0x358 then some s.compactions.length
  else if a = 0x3A8 then some (s.attn.slots.filter (fun x => x.2 = 2)).length
  else if a = 0x45C then some durable
  else if a = 0x460 then some (durable / 2 ^ 32)
  else if a = 0x478 then some s.freeFrames
  else if a = 0x47C then some (s.flash.userGb % 2 ^ 16 + min 255 (s.freeSb 0) * 2 ^ 16 + min 255 (s.freeSb 1) * 2 ^ 24)
  else if a = 0x4EC then some s.parityPending
  else if decide (0x600 ≤ a) && decide (a < 0xA00) && decide (a % 16 = 0) then
    some (s.sched.jobs.filter (fun j => j.dom = (a - 0x600) / 16)).length
  else if decide (0x600 ≤ a) && decide (a < 0xA00) && decide (a % 16 = 4) then
    some (s.sched.jobs.filter (fun j => decide (j.dom = (a - 0x600) / 16) && s.draining j)).length
  else if decide (0x10000 ≤ a) && decide (a < 0x18000) then some (s.verWord ((a - 0x10000) / 32) (a % 32 / 4))
  else if (rowsAt a).any (fun r => r.base = 0x19000 || r.base = 0x19004 || r.base = 0x19008 || r.base = 0x1900C) then
    some (s.embVerWord ((a - 0x19000) / 16) (a % 16 / 4))
  else if decide (0x700000 ≤ a) && decide (a < 0x704000) && decide (a % 0x1000 = 0x10) then
    some (SMap.get (fun _ => 0) s.sched.sorterSeen ((a - 0x700000) / 0x1000))
  else if decide (0x700000 ≤ a) && decide (a < 0x704000) && decide (a % 0x1000 = 0x14) then
    some (SMap.get (fun _ => 0) s.sched.sorterSeen ((a - 0x700000) / 0x1000) / 2 ^ 32)
  else if decide (0x700000 ≤ a) && decide (a < 0x704000) && decide (a % 0x1000 = 0x28) then
    some (s.queries.filter (fun x => x.2.bound && decide (x.2.sorter = (a - 0x700000) / 0x1000))).length
  else if decide (0x800400 ≤ a) && decide (a < 0x800800) && decide (a % 8 = 4) then
    some (s.link.dir.filter (fun x => x.2.holders.contains ((a - 0x800400) / 8))).length
  else if decide (0x400000 ≤ a) && decide (a < 0x480000) && decide (0x200 ≤ a % 0x10000) && decide (a % 0x10000 < 0x300) &&
      decide (a % 32 = 16) then
    let p := (a - 0x400000) / 0x10000
    some ((s.creditTo p s.phaseTime).creditRead p (a % 0x10000 / 32 % 8))
  else none

/-- Computed fields within a stored word. -/
def State.viewFields (s : State) (a : Nat) : List (Fld × Nat) :=
  if a = 0x474 then [(Reg.G.MEM_SHORT, b2n (s.flag Reg.G.MEM_SHORT || s.memShort))]
  else match allBlks.find? (fun b => decide (b ≠ .global) && decide ((blkBase b) = a)) with
    | some b => [(⟨a, 1, 1⟩, b2n (s.pendingDiff b))]
    | none => []

/-- The word that a read of an offset finds: 0 where no field map assigns it (R523). -/
def State.wordAt (s : State) (a : Nat) : Word :=
  match s.viewWord a with
  | some v => BitVec.ofNat 32 v
  | none => BitVec.ofNat 32 ((s.viewFields a).foldl (fun w x => fieldPut w x.1.lo x.1.width x.2) (s.reg a).toNat)

/-! Latched high registers (R524). -/

/-- The offset of the high register that a read of a low one latches. -/
def latchOf (a : Nat) : Option Nat :=
  if a = 0x110 || a = 0x45C || (decide (0x700000 ≤ a) && decide (a < 0x704000) && decide (a % 0x1000 = 0x10)) then some (a + 4) else none

def latchDefault (_ : Nat) : Word := 0#32
def latchKey (reader a : Nat) : Nat := reader * 2 ^ 32 + a

/-- A read by a reader: a low register stores the high bits, a high register gives what was stored. -/
def State.regRead (s : State) (reader a : Nat) : State × Word :=
  match latchOf a with
  | some h => ({ s with latches := SMap.set latchDefault s.latches (latchKey reader h) (s.wordAt h) }, s.wordAt a)
  | none =>
    if decide (4 ≤ a) && (latchOf (a - 4)).isSome then (s, SMap.get latchDefault s.latches (latchKey reader a)) else (s, s.wordAt a)

/-! Writes (R523, R41, R532). -/

/-- Take a written word into the fields of a register by their access codes. -/
def State.putRows (s : State) (a w : Nat) : List Row → State
  | [] => s
  | r :: t =>
    let f : Fld := ⟨a, r.lo, r.width⟩
    let v := fieldOf w r.lo r.width
    let s := match r.acc with
      | .rw => s.setFld f v
      | .w1c => s.setFld f (s.fld f - (s.fld f &&& v))
      | .ro | .sh | .lk => s
    State.putRows s a w t

/-- The block that holds a shadow address. -/
def blkOf (a : Nat) : Blk :=
  match a / 0x100000 with
  | 2 => .kstack ((a - 0x200000) / 0x40000)
  | 4 => .port ((a - 0x400000) / 0x10000)
  | 8 => .link
  | 9 => .security
  | _ => .global

/-- A write to a shadow address (R41): refused while COMMIT is 1. EN of D0 stays 1 (R517). -/
def State.shadowPut (s : State) (a w : Nat) : State :=
  let b := blkOf a
  if s.flag (blkCommit b) then s.setFld (blkReject b) 1
  else
    let w := if a = 0x981000 then w ||| 1 else w
    (shadowRows a).foldl (fun s r => s.setFld ⟨a, r.lo, r.width⟩ (fieldOf w r.lo r.width)) s

/-- Mailbox registers that take no write while a command runs. -/
def mbInput (a : Nat) : Bool :=
  a = 0xC00000 || a = 0xC00008 || a = 0xC00014 || a = 0xC00018 || (decide (0xC10000 ≤ a) && decide (a < 0xC20000))

/-- A register write takes effect. -/
def State.regWrite (s : State) (a w : Nat) : State :=
  let rows := rowsAt a
  if rows = [] then (if shadowRows a = [] then s.accessErr else s.shadowPut a w)
  else if mbInput a && s.flag Reg.Mb.MB_BUSY then s.accessErr
  else
    let s := s.putRows a w rows
    let s := if rows.any (fun r => r.acc = .lk) then s.accessErr else s
    if a = 0xC00000 then s.mbStart (fieldOf w 0 8)
    else if a = Reg.Link.AGENT_KILL.addr then s.kill (fieldOf w 0 7)
    else if a = Reg.Link.AGENT_REVIVE.addr then s.revive (fieldOf w 0 7)
    else s

/-! Register messages (R520-R522). -/

/-- The access is allowed: D0, aligned, from a CACHING or PRIVILEGED agent. -/
def State.regAllowed (s : State) (m : RegMsg) : Bool :=
  decide (m.dom = 0) && decide (m.off % 4 = 0) && decide (m.off < 2 ^ 32) &&
  (decide (s.classOf m.agent = 2) || decide (s.classOf m.agent = 3))

/-- Answer an agent; one that died meanwhile gets no answer. -/
def State.regAnswer (s : State) (agent : Nat) (x : LinkMsg) : State := if s.live agent then s.toLink x else s

/-- Serve one message. -/
def State.serveReg (s : State) (m : RegMsg) : State :=
  if !s.regAllowed m then s.regAnswer m.agent (.regErr m.agent)
  else if m.write then (s.regWrite m.off m.data).regAnswer m.agent (.regCmp m.agent)
  else let x := s.regRead m.agent m.off; x.1.regAnswer m.agent (.regData m.agent x.2)

/-- A message arrives over the link: within a boundary window, or behind one that is held, it is held. -/
def State.regMessage (s : State) (m : RegMsg) : State :=
  if !s.linkUp || !s.live m.agent || decide (128 ≤ m.agent) then s
  else if s.inWindow || s.heldMsgs ≠ [] then { s with heldMsgs := s.heldMsgs ++ [m] }
  else s.serveReg m

/-- The window is over: the first of the messages held is served. -/
def State.serveHeld (s : State) : State :=
  match s.heldMsgs with
  | [] => s
  | m :: t => ({ s with heldMsgs := t, time := { s.time with phase := max s.time.phase (s.fld Reg.G.BOUNDARY_CYCLES) } }).serveReg m

/-- COMMIT_CTRL or a BLOCK_COMMIT as a write that changes one bit gives it; the W1C bits are written 0. -/
def State.ctrlData (s : State) (b : Blk) (bit : Nat) (on : Bool) : Nat :=
  let w := match b with | .global => (s.reg 0x130).toNat &&& 7 | _ => 0
  if on then w ||| 2 ^ bit else w - (w &&& 2 ^ bit)

/-- A D0 write of COMMIT, HOLD or AT_EN. -/
def State.ctrlWrite (s : State) (agent dom : Nat) (b : Blk) (bit : Nat) (on : Bool) : State :=
  if blkOk b then s.regMessage { agent := agent, dom := dom, off := (blkCommitReg b), write := true, data := s.ctrlData b bit on } else s

/-! Commits (R40, R42, R43). -/

/-- Pending values become active. -/
def State.copyPending (s : State) (b : Blk) : State :=
  (s.shadowed b).foldl (fun s a => (s.pendingAt a (blkDist b)).foldl (fun s x => s.setFld x.1 x.2) s) s

/-- A commit that succeeded records the epoch (R40). -/
def State.committed (s : State) (b : Blk) : State := (s.setFld (blkCommit b) 0).setFld (blkEpochReg b) s.now

/-! The security window (R495, R496). -/

def RegionView.overlap (x y : RegionView) : Bool := decide (x.base < y.base + y.size) && decide (y.base < x.base + x.size)

/-- No two of the list overlap. -/
def disjointRegions : List RegionView → Bool
  | [] => true
  | x :: t => t.all (fun y => !x.overlap y) && disjointRegions t

/-- The region touches no reserved address (R319). -/
def RegionView.reachable (x : RegionView) : Bool :=
  let last := x.base + x.size - 1
  decide (last < flashEnd) ||
  (match kwindow last with
   | some k => decide (last < 2 ^ 52) && (if x.base < flashEnd then decide (k.1 = 0) else (match kwindow x.base with | some j => decide (j.1 = k.1) | none => false))
   | none => false)

/-- Entries whose DOMAIN, ENC or EN a commit changes, before and after. -/
def State.changedRegions (s t : State) : List (RegionView × RegionView) :=
  (((s.regionList ++ t.regionList).foldl insNat []).map (fun i => (s.region i, t.region i))).filter (fun x =>
    (x.1.en || x.2.en) && (decide (x.1.en ≠ x.2.en) || decide (x.1.dom ≠ x.2.dom) || decide (x.1.enc ≠ x.2.enc)))

/-- The byte lies in tiered or flash-direct space of a changed region, as it was or as it is. -/
def inChanged (cs : List (RegionView × RegionView)) (a : Nat) : Bool :=
  decide (a < flashEnd) && cs.any (fun x => [x.1, x.2].any (fun r => r.en && decide (r.base ≤ a) && decide (a < r.base + r.size)))

/-- Masks of which no two share a bit. -/
def disjointMasks : List Nat → Bool
  | [] => true
  | x :: t => t.all (fun y => x &&& y = 0) && disjointMasks t

/-- The table "Security commit checks": `t` is the window as the commit would make it. -/
def State.securityOk (s t : State) : Bool :=
  let rs := (t.regionList.map t.region).filter (fun r => r.en)
  let map : RegionView := { en := true, dom := 0, enc := false, base := s.wide Reg.G.MAP_BASE_LO Reg.G.MAP_BASE_HI, size := s.fld Reg.G.MAP_MB * 0x100000 }
  let cs := s.changedRegions t
  rs.all (fun r => decide (1 ≤ r.size)) && disjointRegions rs && rs.all (fun r => !r.overlap map && r.reachable) &&
  rs.all (fun r => !r.enc || (decide (r.base + r.size ≤ flashEnd) && s.flag (Reg.Dom.KEY_LOADED r.dom))) &&
  s.pageList.all (fun p => !inChanged cs (0x10000 * p) || !s.pageHeld p) &&
  (!t.reserved ||
    (disjointMasks (t.tenants.map t.tileMask) && disjointMasks (t.tenants.map t.matrixMask) &&
     decide ((t.tenants.map (fun d => t.fld (Reg.Dom.CTX_SHARE d))).sum ≤ 512) &&
     decide ((t.tenants.map (fun d => t.fld (Reg.Dom.SORT_SIXTEENTHS d))).sum ≤ 16)))

/-- Every copy of a line goes without write-back: nothing that comes back fills a byte. -/
def State.dropLine (s : State) (l : Nat) : State :=
  let e := s.dir l
  let all := 2 ^ 64 - 1
  if e.req.isSome then s.setDir l { e with nodeMask := all }
  else
    let hs := e.holders.filter (· ≠ 2)
    if hs = [] then s.setDir l {}
    else s.sendSnoops l { e with nodeMask := all } { op := 9, agent := 2, txn := 0, line := l, dom := 0, data := [], mask := all, target := 0 }
      (hs.map (fun a => { agent := a, kind := 2, attempt := 0 }))

/-- Regions change hands: cached copies and contents go (R496). -/
def State.clearRegions (s : State) (cs : List (RegionView × RegionView)) : State :=
  if cs = [] then s
  else
    let line (l : Nat) : Bool := cs.any (fun x => [x.1, x.2].any (fun r => r.en && decide (r.base ≤ 64 * l) && decide (64 * l < r.base + r.size)))
    let s := ((s.link.dir.map (fun x => x.1)).filter line).foldl State.dropLine s
    s.wipe (inChanged cs) (s.pageList.filter (fun p => inChanged cs (0x10000 * p))) false

def State.commitSecurity (s : State) : State :=
  let t := s.copyPending .security
  if s.securityOk t then (t.clearRegions (s.changedRegions t)).committed .security
  else (s.setFld (blkCommit .security) 0).setFld Reg.Sec.SEC_CFG_ERR 1

/-! Ports (R425). -/

def State.commitPort (s : State) (p : Nat) : State :=
  let t := s.copyPending (.port p)
  if t.portCommitOk p then (t.resetCredits s p).committed (.port p)
  else (s.setFld (blkCommit (.port p)) 0).setFld (Reg.Port.GATE_CFG_ERR p) 1

/-! K-stack libraries (R296). -/

def State.checkEntry (s : State) (k e : Nat) : State :=
  if s.flag (Reg.Lib.VALID k e) && !libOk (s.libCode k e) (s.fld (Reg.Lib.LEN_M1 k e) + 1) then
    (s.setFld (Reg.Lib.VALID k e) 0).setFld (Reg.KS.LIB_FAULT k) 1
  else s

def State.commitLibrary (s : State) (k : Nat) : State :=
  ((List.range 12).foldl (fun s e => s.checkEntry k (e + 4)) (s.copyPending (.kstack k))).committed (.kstack k)

/-! Rings (R370). -/

/-- The range lies in the memory of the domain (R494). -/
def State.ownsRange (s : State) (d a n : Nat) : Bool :=
  decide (a + n ≤ 2 ^ 52) && (granulesOf a n).all (fun g => !reservedAddr g && !s.mapRegion g &&
    (match s.regionOf g with | some r => decide (d = 0) || decide (r.dom = d) | none => decide (d = 0)))

/-- Ranges of a pair: both rings and the two control lines. -/
def State.ringRanges (s : State) (d r : Nat) : List (Nat × Nat) :=
  [(s.workBase d r, 64 * s.workSlots d r), (s.compBase d r, 64 * s.compSlots d r), (s.ctrlBase d r, 128)]

/-- No two ranges overlap. -/
def disjointRanges : List (Nat × Nat) → Bool
  | [] => true
  | x :: t => t.all (fun y => decide (x.1 + x.2 ≤ y.1) || decide (y.1 + y.2 ≤ x.1)) && disjointRanges t

def State.ringOk (s : State) (d r : Nat) : Bool :=
  let log (f : Fld) : Bool := decide (6 ≤ s.fld f) && decide (s.fld f ≤ 16)
  let rs := s.ringRanges d r
  log (Reg.Ring.WORK_LOG2 d r) && log (Reg.Ring.COMP_LOG2 d r) && rs.all (fun x => s.ownsRange d x.1 x.2) && disjointRanges rs

def State.checkRing (s : State) (d r : Nat) : State :=
  if s.flag (Reg.Ring.EN d r) && !s.ringOk d r then (s.setFld (Reg.Ring.EN d r) 0).setFld (Reg.Ring.RING_CFG_ERR d r) 1 else s

def State.commitRings (s : State) : State :=
  let t := s.copyPending .link
  let ps := ((t.shadowed .link).filter (fun a => decide (0x810000 ≤ a) && decide (a < 0x818000))).map (fun a => (a - 0x810000) / 64)
  ((ps.foldl insNat []).foldl (fun s k => s.checkRing (k / 8) (k % 8)) t).committed .link

/-- One block commits at a boundary. -/
def State.commitBlk (s : State) (b : Blk) : State :=
  if !s.flag (blkCommit b) then s
  else match b with
    | .global => (s.copyPending .global).committed .global
    | .kstack k => s.commitLibrary k
    | .port p => s.commitPort p
    | .link => s.commitRings
    | .security => s.commitSecurity

/-- Every block whose COMMIT is set, unless HOLD is (R30 step 3, R42). -/
def State.commits (s : State) : State := if s.flag Reg.G.HOLD then s else allBlks.foldl State.commitBlk s

/-- COMMIT_AT at the boundary that begins an epoch (R43). -/
def State.releaseAt (s : State) : State :=
  let c := s.wide Reg.G.COMMIT_AT_LO Reg.G.COMMIT_AT_HI
  if s.flag Reg.G.AT_EN && decide (c ≤ s.now) then
    let s := (s.setFld Reg.G.HOLD 0).setFld Reg.G.AT_EN 0
    if c < s.now then s.setFld Reg.G.LATE_COMMIT 1 else s
  else s

end Sys2Proof.Machine
end

