-- ==== Sys2Proof/Machine/Slices.lean ====
section
/-! DEFINITION. Slices: admission, the end of each kind, and overrun (R31-R37, R85, R103, R155, R202, R237, R281, R307, R331-R333,
R486, R504). -/

namespace Sys2Proof.Machine

open Sys2Proof

/-! What a slice is. -/

/-- Number of a slice's kind; DETAIL of an OVERRUN holds it where the slice serves no single job. -/
def kindCode : SliceKind → Nat
  | .routeWalk .. => 0 | .tableBuild .. => 1 | .rebuild .. => 2 | .sketchPass .. => 3 | .codePass .. => 4 | .sideSlice .. => 5
  | .localSelect .. => 6 | .rerank .. => 7 | .fanIn .. => 8 | .insertEncode .. => 9 | .mainFold .. => 10 | .sideFold .. => 11
  | .routeCopy .. => 12 | .gemm .. => 13 | .vectorOp .. => 14 | .kvProject .. => 15 | .rotateWrite .. => 16 | .fused .. => 17
  | .combine .. => 18 | .merge .. => 19 | .sortOwners .. => 20 | .pooling .. => 21 | .lookupCombine .. => 22 | .stepApply .. => 23
  | .nbPool .. => 24 | .nbApply .. => 25 | .nbRun .. => 26 | .awl .. => 27

/-- Engine kind of a slice. -/
def kindEngine : SliceKind → Engine
  | .tableBuild .. | .rebuild .. | .rerank .. | .insertEncode .. | .gemm .. | .kvProject .. | .fused .. => .matrix
  | .routeWalk .. | .routeCopy .. | .vectorOp .. | .rotateWrite .. | .combine .. | .merge .. | .sortOwners .. | .pooling ..
  | .lookupCombine .. | .stepApply .. => .vector
  | .sketchPass .. | .codePass .. | .sideSlice .. | .mainFold .. | .sideFold .. => .tile
  | .localSelect .. | .fanIn .. => .sorter
  | .nbPool .. | .nbApply .. | .nbRun .. => .nbIssue
  | .awl b => ((awlEngine b).map (fun x => x.1)).getD .nbIssue

/-- The one block that may run the slice, where it is fixed: a query's sorter (R118), a K-stack's issue, the block under test. -/
def State.fixedBlock (s : State) : SliceKind → Option Nat
  | .localSelect j _ | .fanIn j _ => (s.query? j).map (fun x => x.2.sorter)
  | .nbPool k _ | .nbApply k .. => some k
  | .nbRun j .. => (s.nbJob? j).map (fun x => x.2.k)
  | .awl b => some (((awlEngine b).map (fun x => x.2)).getD ((b - 100) / 64))
  | _ => none

/-- Blocks that a slice occupies: a fused slice takes the vector core of the same number too (R237). -/
def sliceBlocks (k : SliceKind) (i : Nat) : List (Engine × Nat) :=
  match k with
  | .fused .. => [(.matrix, i), (.vector, i)]
  | _ => [(kindEngine k, i)]

/-- Domain that a slice works for. -/
def State.sliceDom (s : State) (k : SliceKind) : Nat :=
  match k with
  | .stepApply t _ | .nbApply _ t _ => (s.readEmb t).dom
  | .sketchPass p .. | .codePass p .. | .sideSlice p .. => ((s.pass? p).map (fun x => (s.coll x.coll).dom)).getD 0
  | .nbPool k n => ((s.poolSlice k n).map (fun x => x.2.1)).getD 0
  | _ => ((sliceJobs s k).head?.bind (fun j => (s.job? j).map (fun x => x.dom))).getD 0

/-- Cost of a slice that the scheduler may run now. -/
def State.sliceCost (s : State) (k : SliceKind) : Option Nat :=
  match k with
  | .awl b => if s.awlDue = some b then some 2600 else none
  | _ => [s.searchCost k, s.compactCost k, s.maintCost k, s.engineCost k, s.attnCost k, s.embCost k, s.nbCost k].findSome? id

/-- The smallest slice of the same work, by which R32 judges. -/
def State.smallest (s : State) : SliceKind → SliceKind
  | .routeWalk j _ => .routeWalk j 1
  | .tableBuild j _ => .tableBuild j 1
  | .rebuild j _ => .rebuild j 1
  | .sketchPass p lo _ => .sketchPass p lo 1
  | .codePass p lo _ => .codePass p lo 1
  | .sideSlice p t lo _ => .sideSlice p t lo 1
  | .localSelect j n => .localSelect j (min 1 n)
  | .rerank j _ => .rerank j 1
  | .fanIn j n => .fanIn j (min 1 n)
  | .insertEncode j => .insertEncode j
  | .mainFold j lo _ => .mainFold j lo 1
  | .sideFold j lo _ => .sideFold j lo 1
  | .routeCopy j _ => .routeCopy j 1
  | .gemm j g r n k0 kn => .gemm j g r n k0 (if s.spillOn then 1 else kn)
  | .vectorOp j lo n => .vectorOp j lo n
  | .kvProject j g k0 kn => .kvProject j g k0 (if s.spillOn then 1 else kn)
  | .rotateWrite j lo _ => .rotateWrite j lo 1
  | .fused j h r p _ => .fused j h r p 1
  | .combine j lo _ => .combine j lo 1
  | .merge j lo _ => .merge j lo 1
  | .sortOwners j lo _ => .sortOwners j lo 1
  | .pooling j _ => .pooling j 1
  | .lookupCombine j lo _ => .lookupCombine j lo 1
  | .stepApply t _ => .stepApply t 1
  | .nbPool k _ => .nbPool k 1
  | .nbApply k t _ => .nbApply k t 1
  | .nbRun j lo _ => .nbRun j lo 1
  | .awl b => .awl b

/-- Units of a job's slices of one kind that are running, for kinds whose slices of one job may run side by side. -/
def State.sideBySide (s : State) (k : SliceKind) : Nat :=
  (s.sched.slices.map (fun x => match k, x.kind with
    | .tableBuild j _, .tableBuild i n => if i = j then n else 0
    | .rebuild j _, .rebuild i n => if i = j then n else 0
    | .rerank j _, .rerank i n => if i = j then n else 0
    | _, _ => 0)).sum

/-- Whether the slices already running leave room for this one of the same job. -/
def State.roomBeside (s : State) (k : SliceKind) : Bool :=
  match k with
  | .tableBuild j n => (s.sliceCost (.tableBuild j (n + s.sideBySide k))).isSome
  | .rebuild j n => (s.sliceCost (.rebuild j (n + s.sideBySide k))).isSome
  | .rerank j n => (s.sliceCost (.rerank j (n + s.sideBySide k))).isSome
  | .routeWalk j _ | .localSelect j _ | .fanIn j _ | .insertEncode j | .routeCopy j _ =>
    !s.sched.slices.any (fun x => decide (kindCode x.kind = kindCode k) && decide (sliceJobs s x.kind = [j]))
  | _ => true

/-! The data of a slice (R85, R331-R333, R486). -/

/-- Byte ranges of memory that a slice reads. Flash-direct reads are plane reads of their own (R105). -/
def State.sliceReads (s : State) : SliceKind → List (Nat × Nat)
  | .routeWalk j _ => match s.query? j with
    | some (_, q) => [(q.routeBase, 64 + s.partCount q.coll * routeRecBytes q.shape.dim)]
    | none => []
  | .tableBuild j _ => match s.query? j with
    | some (_, q) => (q.routeBase, 64 + s.partCount q.coll * routeRecBytes q.shape.dim) :: q.cbBases.map (fun b => (b, codebookBytes q.shape))
    | none => []
  | .sketchPass p lo n => match (s.pass? p).bind s.passLayout with
    | some l => [(l.sketchAddr lo, 32 * n)]
    | none => []
  | .codePass p lo n => match (s.pass? p).bind s.passLayout with
    | some l => [(l.codeAddr lo, 64 * n), (l.idAddr lo, 8 * n), (l.filterAddr lo, n / 8 + 1)]
    | none => []
  | .sideSlice p _ lo n => match (s.pass? p).bind s.passLayout with
    | some l => [(l.sideAddr lo, 128 * n)]
    | none => []
  | .insertEncode j => match s.update? j with
    | some (_, u) =>
      let v := s.coll u.coll
      [(u.vecAddr, 2 * v.shape.dim), ((v.cb (v.cbCur.getD u.cbSlot)).base, codebookBytes v.shape)]
    | none => []
  | .mainFold j lo n => match s.compact? j with
    | some (_, x) => [(x.pinned.codeAddr lo, 64 * n), (x.pinned.sketchAddr lo, 32 * n), (x.pinned.idAddr lo, 8 * n)]
    | none => []
  | .sideFold j lo n => match s.compact? j with
    | some (_, x) => [(x.pinned.sideAddr lo, 128 * n)]
    | none => []
  | .routeCopy j _ => match s.routeEdit? j with
    | some (_, x) => [(x.src, 64 + s.partCount x.coll * routeRecBytes (s.coll x.coll).shape.dim)]
    | none => []
  | .gemm j g row0 rows k0 kn => match s.engine? j with
    | some (_, e) =>
      (tileAddr e.aFmt e.a e.chunks g k0, kn * tileBytes e.aFmt) ::
      ((List.range (cdiv rows 64)).map (fun i => (tileAddr e.bFmt e.b e.bChunks (row0 / 64 + i) k0, kn * tileBytes e.bFmt)) ++
       (if e.bias then [(e.biasAddr, 2 * e.m)] else []) ++ (if e.accum then [(e.out, 4 * e.n * e.m)] else []))
    | none => []
  | .vectorOp j lo n => match s.engine? j with
    | some (_, e) =>
      let w (f : Nat) := elemBits f / 8
      (e.a + 64 * lo * w e.aFmt, 64 * n * w e.aFmt) :: (if vopTwo e.vop then [(e.b + 64 * lo * w e.bFmt, 64 * n * w e.bFmt)] else [])
    | none => []
  | .kvProject j .. => match s.attend? j with
    | some (_, a) => a.gemm.reads
    | none => []
  | .rotateWrite j .. | .fused j .. => match s.attend? j with
    | some (_, a) => a.pages.map (fun p => (0x10000 * p, 0x10000))
    | none => []
  | .sortOwners j .. => match s.lookup? j with
    | some (_, l) => l.io
    | none => []
  | .pooling j n => match s.embShare? j with
    | some (_, x) => ((s.poolItems x).take n).map (PoolItem.range x.desc)
    | none => []
  | .stepApply t n => match s.readyStep t with
    | some x =>
      let d := s.readEmb t
      let sl := (s.tab t).curSlot
      ((s.vecEntries t x).take n).flatMap (fun e => [(s.rowAddr sl d e.row, 2 * d.dim), (s.stateAddr sl d e.row, if 2 ≤ d.opt then 2 * d.dim else 0)])
    | none => []
  | .nbPool k n => match s.poolSlice k n with
    | some x => x.2.2.flatMap (fun t => t.rows.map (fun r => (nbAddr k r.1 r.2, x.1.rowBytes)))
    | none => []
  | .nbApply k t n => match s.readyStep t with
    | some x =>
      let d := s.readEmb t
      let sl := (s.tab t).curSlot
      ((s.nbEntries t k x).take n).flatMap (fun e => [(s.rowAddr sl d e.row, 2 * d.dim), (s.stateAddr sl d e.row, if 2 ≤ d.opt then 2 * d.dim else 0)])
    | none => []
  | .nbRun j .. => match s.nbJob? j with
    | some (_, n) => n.arrays.map (fun a => (a, 64 * n.lines))
    | none => []
  | .rebuild .. | .localSelect .. | .rerank .. | .fanIn .. | .combine .. | .merge .. | .lookupCombine .. | .awl _ => []

/-- The byte block `[a, a + n)` touches one of the ranges. -/
def touches (rs : List (Nat × Nat)) (a n : Nat) : Bool := rs.any (fun r => decide (r.1 < a + n) && decide (a < r.1 + r.2))

/-- Pages of the tier map that a slice reads. -/
def State.slicePages (s : State) (rs : List (Nat × Nat)) : List Nat := s.pageList.filter (fun p => touches rs (0x10000 * p) 0x10000)

/-- Lines of the directory that a slice reads. -/
def State.sliceLines (s : State) (rs : List (Nat × Nat)) : List Nat := (s.link.dir.map (fun x => x.1)).filter (fun l => touches rs (64 * l) 64)

/-- Some page of the ranges may lie in a set that is not yet scanned (R486). -/
def State.needsScan (s : State) (rs : List (Nat × Nat)) : Bool :=
  !s.flag Reg.G.REBUILD_DONE && rs.any (fun r => (tierPages r.1 r.2).any s.unscanned)

/-- The page's data is there, since before this stitch (R85). -/
def State.pageReady (s : State) (p : Nat) : Bool :=
  !s.flash.landed.contains p &&
  (match (s.page p).st with
   | .unbacked | .resident | .writing => true
   | .fetching => false
   | .flash => s.flash.staged.contains p)

/-- Ask for a page in flash: a frame, or a staging read while memory is short (R332, R333). -/
def State.askPage (s : State) (p : Nat) : State :=
  if (s.page p).st = .flash then
    (if s.memShort then s.setFlash { s.flash with stageReq := insNat s.flash.stageReq p } else s.fetchPage p)
  else s

/-- A job served through a fetch or a staging read carries SLOW_PATH (R333). -/
def State.markSlow (s : State) (id : Nat) : State :=
  match s.job? id with
  | some j => match j.work with
    | .query q => s.putJob { j with work := .query { q with flags := { q.flags with slowPath := true } } }
    | .engine e => s.putJob { j with work := .engine { e with slow := true } }
    | .attend a => s.putJob { j with work := .attend { a with slow := true } }
    | .lookup l => s.putJob { j with work := .lookup { l with slow := true } }
    | .embShare x => s.putJob { j with work := .embShare { x with slow := true } }
    | .update _ | .compact _ | .version _ | .routeEdit _ | .hint _ | .attnMerge _ | .embUpdate _ | .stepClose _ | .hotSet _
    | .embVersion _ | .nbRun _ => s
  | none => s

/-- Bring a slice's data into place: true when the slice may start. -/
def State.dataReady (s : State) (rs : List (Nat × Nat)) (jobs : List Nat) : State × Bool :=
  let late := (s.slicePages rs).filter (fun p => !s.pageReady p)
  if late ≠ [] then
    let away := late.filter (fun p => decide ((s.page p).st = .flash) || decide ((s.page p).st = .fetching))
    let s := late.foldl State.askPage s
    (if away = [] then s else jobs.foldl State.markSlow s, false)
  else s.nodeReads (s.sliceLines rs)

/-! The end of a job (R15, R35, R438). -/

/-- Give back the second completion slot of a maintenance job that ends before its swap (R162, R373). -/
def State.endMaint (s : State) (j : Job) (st : Status) : State :=
  (s.failMaint j.dom j.ring j.tag st (match j.work with | .compact x => x.fold | _ => 0)).dropJob j.id

/-- End a job with a status that is not the end of its work. An update ends at its batch's commit (R560). -/
def State.endJob (s : State) (j : Job) (st : Status) : State :=
  match j.work with
  | .query q => s.finishQuery j q st
  | .update _ => s.doomJob j.id st
  | .compact _ => s.endMaint j st
  | .version v => (s.setSlot v.coll v.table v.slot (fun _ => {})).endMaint j st
  | .routeEdit r => (s.setSlot r.coll 0 r.slot (fun _ => {})).endMaint j st
  | .hint h => s.finishHint j st (s.hintDone h)
  | .engine e => if e.ended = none then s.endEngine j e st else s
  | .attend a => s.endAttend j a st
  | .attnMerge m => s.endMerge j m st
  | .lookup l => s.endLookup j l st
  | .embShare x => s.endEmbShare j x st
  | .embUpdate u => s.endEmbUpdate j u st
  | .stepClose c =>
    match (s.tab c.table).closed.find? (fun x => x.job = j.id) with
    | some x => s.endStep c.table x st
    | none => ((s.fresh.countEnd j.dom j.tag st).postRecord j.dom j.ring st
        (openStepWords s.freshCount j.tag st c.late (s.tab c.table).stepOpen)).dropJob j.id
  | .hotSet _ => ((s.countEnd j.dom j.tag st).postRecord j.dom j.ring st [j.tag, statusWord st 0]).dropJob j.id
  | .embVersion v =>
    let t := s.tab v.table
    let s := s.setTab v.table (t.setSlot v.slot {})
    ((s.countEnd j.dom j.tag st).postRecord j.dom j.ring st [j.tag, statusWord st 0]).dropJob j.id
  | .nbRun n => if n.ended = none then s.endNb j n st else s

/-- End the jobs of a list at once. -/
def State.endJobs (s : State) (l : List Nat) (st : Status) : State :=
  l.foldl (fun s id => match s.job? id with | some j => s.endJob j st | none => s) s

/-- Every doomed job ends (R35, R79, R438). -/
def State.endDoomed (s : State) : State :=
  s.sched.jobs.foldl (fun s x => match s.job? x.id with
    | some j => match j.doom with
      | some st => s.endJob j st
      | none => s
    | none => s) s

/-! Admission (R31-R34, R504). -/

/-- The block may take the slice: AVAILABLE, or a SUSPECT sorter that a selection is bound to (R118, R447), or the block under
test; and in the domain's share. -/
def State.blockTakes (s : State) (k : SliceKind) (d : Nat) (b : Engine × Nat) : Bool :=
  decide (b.2 < engineCount b.1) &&
  (match k with
   | .awl _ => true
   | _ => (decide (s.blockState b.1 b.2 = 0) || (decide (b.1 = .sorter) && decide (s.blockState b.1 b.2 = 1))) && s.inShare d b.1 b.2)

/-- The block is free from `t` for `c` cycles. -/
def State.blockFree (s : State) (b : Engine × Nat) (t c : Nat) : Bool :=
  s.sched.slices.all (fun x => !(sliceBlocks x.kind x.idx).contains b || decide (x.start + x.cost ≤ t) || decide (t + c ≤ x.start))

/-- First cycle past the slice budget. -/
def State.budgetEnd (s : State) : Nat := s.time.stitchLen - s.fld Reg.G.SLICE_MARGIN

def sorterKey (i d : Nat) : Nat := 64 * i + d
def zeroDefault (_ : Nat) : Nat := 0

/-- The slice fits its domain's sixteenths of the sorter in this stitch (R504). -/
def State.sorterRoom (s : State) (k : SliceKind) (i d c : Nat) : Bool :=
  !s.reserved || decide (kindEngine k ≠ .sorter) || decide (SMap.get zeroDefault s.sched.sorterUsed (sorterKey i d) + c ≤ s.budget d .sorter)

def State.chargeSorter (s : State) (i d c : Nat) : State :=
  let m := s.sched.sorterUsed
  { s with sched := { s.sched with sorterUsed := SMap.set zeroDefault m (sorterKey i d) (SMap.get zeroDefault m (sorterKey i d) + c) } }

/-- The slice fits on block `i` from cycle `t` at cost `c`. -/
def State.sliceFits (s : State) (k : SliceKind) (i t c d : Nat) : Bool :=
  (match s.fixedBlock k with | some b => decide (b = i) | none => true) &&
  (sliceBlocks k i).all (fun b => s.blockTakes k d b && s.blockFree b t c) &&
  decide (max (s.fld Reg.G.BOUNDARY_CYCLES) s.time.phase ≤ t) && decide (t + c ≤ s.budgetEnd) && s.sorterRoom k i d c && s.roomBeside k

/-- What the start of a slice changes besides the slice list: a pass or a fold has given out the range. -/
def State.noteStart (s : State) : SliceKind → State
  | .sketchPass p lo n | .codePass p lo n => match s.pass? p with
    | some x => s.putPass { x with next := lo + n, running := x.running + 1 }
    | none => s
  | .sideSlice p t lo n => match s.pass? p with
    | some x => s.putPass { x with side := x.side.map (fun y => if y = (t, lo) then (t, lo + n) else y), running := x.running + 1 }
    | none => s
  | .mainFold j lo n => match s.compact? j with
    | some (j, x) => s.putCompact j { x with mainAdmitted := lo + n }
    | none => s
  | .sideFold j lo n => match s.compact? j with
    | some (j, x) => s.putCompact j { x with sideAdmitted := lo + n }
    | none => s
  | .awl b => s.setRas { s.ras with awlNext := if s.ras.confirm.any (fun x => x.1 = b) then s.ras.awlNext else (b + 1) % 356, awlLast := s.now }
  | k => s.nbStart k

/-- The slice starts. -/
def State.startSlice (s : State) (k : SliceKind) (i t c d : Nat) (pages : List Nat) : State :=
  let s := s.noteStart k
  let x : Slice := { id := s.sched.nextSlice, kind := k, engine := kindEngine k, idx := i, start := t, cost := c, epoch := s.now, pages := pages }
  let s := { s with sched := { s.sched with nextSlice := s.sched.nextSlice + 1, slices := s.sched.slices ++ [x] } }
  let s := pages.foldl State.countAccess s
  let jobs := sliceJobs s k
  let s := s.setJobs (s.sched.jobs.map (fun j => if jobs.contains j.id then { j with started := true } else j))
  let s := if kindEngine k = .sorter then s.chargeSorter i d c else s
  { s with time := { s.time with phase := max s.time.phase t } }

/-- Slices are admitted: none before admission opens, after a thermal trip or in a halt (R30, R49, R452, R468). -/
def State.slicesOpen (s : State) : Bool :=
  s.time.timer && s.time.admitOpen && s.time.firstCommit && !s.flag Reg.Ras.THERM_TRIP

/-- The scheduler is offered block `i` from cycle `t` for a slice (R31, R32). A job whose smallest slice fits no block of its
share is refused at once; a slice whose data is away asks for it. -/
def State.sliceAdmit (s : State) (k : SliceKind) (i t : Nat) : State :=
  if !s.slicesOpen then s
  else match s.sliceCost k with
    | none => s
    | some cost =>
      let e := kindEngine k
      let d := s.sliceDom k
      let c := match k with | .awl _ => cost | _ => scaled cost (s.costScale e i)
      let small := (s.sliceCost (s.smallest k)).getD cost
      let jobs := sliceJobs s k
      let engines := (sliceBlocks k 0).map (fun b => (b.1, small))
      if jobs ≠ [] && s.anyUnfit d engines then (s.countShareRefused d engines).endJobs jobs .refused
      else if !s.sliceFits k i t c d then s
      else
        let rs := s.sliceReads k
        if s.needsScan rs then (s.bumpBy Reg.Start.HS_REFUSED jobs.length).endJobs jobs .refused
        else
          let r := s.dataReady rs jobs
          if r.2 then r.1.startSlice k i t c d (r.1.slicePages rs) else r.1

/-! The end of a slice. -/

/-- Staged pages of a slice are dropped unless another slice reads them too (R332). -/
def State.dropStaged (s : State) (pages : List Nat) : State :=
  let keep (p : Nat) : Bool := !pages.contains p || s.sched.slices.any (fun x => x.pages.contains p)
  s.setFlash { s.flash with staged := s.flash.staged.filter keep }

/-- A write of the slice that found no frame refuses the jobs that the slice served (R331). -/
def State.settleFrames (s : State) (jobs : List Nat) : State :=
  if s.flash.noFrame then (jobs.foldl (fun s j => s.doomJob j .refused) s).setFlash { s.flash with noFrame := false } else s

/-- Slice `sid` ends, if it is running and of the kind numbered `code`. -/
def State.sliceEnds (s : State) (sid code : Nat) (f : State → Slice → State) : State :=
  match s.sched.slices.find? (fun x => x.id = sid) with
  | none => s
  | some x =>
    if kindCode x.kind ≠ code then s
    else
      let jobs := sliceJobs s x.kind
      match s.endSlice sid with
      | none => s
      | some (x, t) => ((f t x).settleFrames jobs).dropStaged x.pages

/-! Search (R86, R95, R97, R98, R104, R106, R113, R180, R183). -/

def State.endRouteWalk (s : State) (x : Slice) : State :=
  match x.kind with
  | .routeWalk id n => match s.query? id with
    | some (j, q) =>
      let q := { q with walked := q.walked + n }
      if (s.walkOf q).scored.length ≤ q.walked then s.finishWalk j q else s.putQuery j q
    | none => s
  | _ => s

/-- The next `n` tables are built; after the last the common scale follows. A poisoned codebook or centroid fails the job. -/
def State.endTableBuild (s : State) (x : Slice) : State :=
  match x.kind with
  | .tableBuild id n => match s.query? id with
    | some (j, q) =>
      let need := s.tablesNeeded j q
      let l := (need.drop q.tables.length).take n
      let q' := { q with tables := q.tables ++ l.map (fun y => s.makeTable q y.1 y.2) }
      let g := s.routeOf q
      let bad := l.any (fun y => s.poisoned (q.cbBases.getD y.2 0) (codebookBytes q.shape) ||
        s.poisoned (g.recAddr (q.probes.getD y.1 ⟨0, 0, 0, 0, false, []⟩).part) g.recSize)
      let s := s.fresh
      if bad then (s.putQuery j q').doomJob id .poisoned
      else if need.length ≤ q'.tables.length then s.quantizeStep j q'
      else s.putQuery j q'
    | none => s
  | _ => s

def State.endRebuild (s : State) (x : Slice) : State :=
  match x.kind with
  | .rebuild id n => match s.query? id with
    | some (j, q) =>
      let q := { q with rebuiltTables := q.rebuiltTables + n }
      if q.tables.length ≤ q.rebuiltTables then s.rebuildStep j q else s.putQuery j q
    | none => s
  | _ => s

def State.endSketchPass (s : State) (x : Slice) : State :=
  match x.kind with
  | .sketchPass id lo n => match s.pass? id with
    | some p => match s.passLayout p with
      | some l => ((s.tileRead x.idx (cdiv n 2)).runSketch p l lo n).passSliceEnd id
      | none => s.passSliceEnd id
    | none => s
  | _ => s

def State.endCodePass (s : State) (x : Slice) : State :=
  match x.kind with
  | .codePass id lo n => match s.pass? id with
    | some p => match s.passLayout p with
      | some l => ((s.tileRead x.idx (if p.gathered then s.keptLines p lo n else n)).runCode p l lo n).passSliceEnd id
      | none => s.passSliceEnd id
    | none => s
  | _ => s

def State.endSideSlice (s : State) (x : Slice) : State :=
  match x.kind with
  | .sideSlice id slot lo n => match s.pass? id with
    | some p => match s.passLayout p with
      | some l => ((s.tileRead x.idx n).runSide p l slot lo n).passSliceEnd id
      | none => s.passSliceEnd id
    | none => s
  | _ => s

def State.endLocalSelect (s : State) (x : Slice) : State :=
  match x.kind with
  | .localSelect id n => match s.query? id with
    | some (j, q) => s.runSelect j q n
    | none => s
  | _ => s

def State.endRerank (s : State) (x : Slice) : State :=
  match x.kind with
  | .rerank id n => match s.query? id with
    | some (j, q) => s.runRerank j q n
    | none => s
  | _ => s

def State.endFanIn (s : State) (x : Slice) : State :=
  match x.kind with
  | .fanIn id n => match s.query? id with
    | some (j, q) => s.runFanIn j q n
    | none => s
  | _ => s

/-! Updates and maintenance (R139, R155, R160). -/

def State.endInsertEncode (s : State) (x : Slice) : State :=
  match x.kind with
  | .insertEncode id => match s.update? id with
    | some (j, u) => s.runEncode j u
    | none => s
  | _ => s

def State.endMainFold (s : State) (x : Slice) : State :=
  match x.kind with
  | .mainFold id lo n => match s.compact? id with
    | some (j, c) => (s.bump (Reg.Tile.COMPACT_SLICES x.idx)).runMainFold j c lo n
    | none => s
  | _ => s

def State.endSideFold (s : State) (x : Slice) : State :=
  match x.kind with
  | .sideFold id lo n => match s.compact? id with
    | some (j, c) => (s.bump (Reg.Tile.COMPACT_SLICES x.idx)).runSideFold j c lo n
    | none => s
  | _ => s

def State.endRouteCopy (s : State) (x : Slice) : State :=
  match x.kind with
  | .routeCopy id n => match s.routeEdit? id with
    | some (j, r) =>
      let r := { r with copied := r.copied + n }
      if s.partCount r.coll ≤ r.copied then s.finishRouteEdit j r else s.putJob { j with work := .routeEdit r }
    | none => s
  | _ => s

/-! Engines and attention (R202, R203, R220, R222, R226, R227, R233). -/

def State.endGemm (s : State) (x : Slice) : State :=
  match x.kind with
  | .gemm id g row0 rows k0 kn => match s.engine? id with
    | some (j, e) => s.runGemm x.idx j e g row0 rows k0 kn
    | none => s
  | _ => s

def State.endVectorOp (s : State) (x : Slice) : State :=
  match x.kind with
  | .vectorOp id lo n => match s.engine? id with
    | some (j, e) => s.runVector j e lo n
    | none => s
  | _ => s

def State.endKvProject (s : State) (x : Slice) : State :=
  match x.kind with
  | .kvProject id g k0 kn => match s.attend? id with
    | some (j, a) => s.runProject x.idx j a g k0 kn
    | none => s
  | _ => s

def State.endRotateWrite (s : State) (x : Slice) : State :=
  match x.kind with
  | .rotateWrite id lo n => match s.attend? id with
    | some (j, a) => s.runRotate j a lo n
    | none => s
  | _ => s

def State.endFused (s : State) (x : Slice) : State :=
  match x.kind with
  | .fused id h r p n => match s.attend? id with
    | some (j, a) => (s.bump (Reg.Core.SLICES_RUN 1 x.idx)).runFused j a h r p n
    | none => s
  | _ => s

def State.endCombine (s : State) (x : Slice) : State :=
  match x.kind with
  | .combine id lo n => match s.attend? id with
    | some (j, a) => s.runCombine j a lo n
    | none => s
  | _ => s

def State.endMergeSlice (s : State) (x : Slice) : State :=
  match x.kind with
  | .merge id lo n => match s.merge? id with
    | some (j, m) => s.runMerge j m lo n
    | none => s
  | _ => s

/-! Embeddings and near-bank issues (R264-R266, R274, R301, R302, R305). -/

def State.endSort (s : State) (x : Slice) : State :=
  match x.kind with
  | .sortOwners id lo n => match s.lookup? id with
    | some (j, l) => s.runSort j l lo n
    | none => s
  | _ => s

def State.endPooling (s : State) (x : Slice) : State :=
  match x.kind with
  | .pooling id n => match s.embShare? id with
    | some (j, e) => s.runPooling j e n
    | none => s
  | _ => s

def State.endCombineBags (s : State) (x : Slice) : State :=
  match x.kind with
  | .lookupCombine id lo n => match s.lookup? id with
    | some (j, l) => s.runLookupCombine j l lo n
    | none => s
  | _ => s

def State.endStepApply (s : State) (x : Slice) : State :=
  match x.kind with
  | .stepApply t n => match s.readyStep t with
    | some c => s.runApply t 0 ((s.vecEntries t c).take n)
    | none => s
  | _ => s

def State.endNbApply (s : State) (x : Slice) : State :=
  match x.kind with
  | .nbApply k t n => match s.readyStep t with
    | some c => s.runApply t 1 ((s.nbEntries t k c).take n)
    | none => s
  | _ => s

def State.endNbPool (s : State) (x : Slice) : State :=
  match x.kind with
  | .nbPool k _ => match s.issue? k with
    | some i => s.endPool k i
    | none => s
  | _ => s

def State.endNbRun (s : State) (x : Slice) : State :=
  match x.kind with
  | .nbRun id lo m => match s.nbJob? id with
    | some (_, n) => match s.issue? n.k with
      | some i => s.endNbSlice n.k i lo m
      | none => s
    | none => match s.fixedBlock x.kind with
      | some k => s.nbClear k
      | none => s.nbClear x.idx
  | _ => s

/-- Units of a slice run on until each has stopped; the slice ends when all have (R298, R301, R305). -/
def State.nbFinish (s : State) (sid code : Nat) (f : State → Slice → State) : State :=
  match s.sched.slices.find? (fun x => x.id = sid) with
  | none => s
  | some x =>
    if kindCode x.kind ≠ code then s
    else
      let s := s.nbRunAll x.idx
      if s.nbStopped x.idx then s.sliceEnds sid code f else s

/-! Overrun (R35-R37). -/

/-- What a near-bank slice that is stopped leaves: committed lines stand, its other write windows are undefined. -/
def State.stopNb (s : State) : SliceKind → State
  | .nbPool k _ => s.nbClear k
  | .nbRun id .. => match s.nbJob? id with
    | some (j, n) => match s.issue? n.k with
      | some i => (s.putJob { j with work := .nbRun { n with committed := i.committed.foldl insNat n.committed } }).nbClear n.k
      | none => s
    | none => s
  | .nbApply k t n =>
    let d := (s.readEmb t).dom
    (s.sliceReads (.nbApply k t n)).foldl (fun s r => s.undefine r.1 r.2 d) s
  | _ => s

/-- Jobs that complete OVERRUN with a slice: an apply serves its step's STEP_CLOSE. -/
def State.overrunJobs (s : State) (k : SliceKind) : List Nat :=
  match k with
  | .stepApply t _ | .nbApply _ t _ => (((s.tab t).closed.head?).map (fun x => x.job)).toList
  | _ => sliceJobs s k

/-- OPCODE of the job that a slice serves, else the slice's kind. -/
def State.sliceOpcode (s : State) (k : SliceKind) : Nat :=
  match (sliceJobs s k).head?.bind s.job? with
  | some j => j.opcode
  | none => kindCode k

/-- A slice still running at the end of its stitch: stopped, its output discarded, logged, its jobs doomed (R35, R37). -/
def State.overrunSlice (s : State) (x : Slice) : State :=
  let jobs := s.overrunJobs x.kind
  let dom := s.sliceDom x.kind
  let detail := s.sliceOpcode x.kind % 2 ^ 16 + x.cost % 2 ^ 24 * 2 ^ 16 + (s.time.stitchLen - x.start) % 2 ^ 24 * 2 ^ 40
  let s := s.stopNb x.kind
  let s := { s with sched := { s.sched with slices := s.sched.slices.filter (fun y => y.id ≠ x.id) } }
  let s := (s.countOverrun x.engine x.idx).log 0x07 2 dom (sourceKind x.engine) x.idx 0 detail
  let s := { s with sched := { s.sched with overruns := s.sched.overruns ++ [(64 * sourceKind x.engine + x.idx, s.now)] } }
  let s := jobs.foldl (fun s j => s.doomJob j .overrun) s
  (s.dropStaged x.pages).checkOverruns x.engine x.idx

/-- The end of the stitch finds the slice running. -/
def State.overrun (s : State) (sid : Nat) : State :=
  match s.sched.slices.find? (fun x => x.id = sid) with
  | some x => let s := s.overrunSlice x; { s with time := { s.time with phase := max s.time.phase s.time.stitchLen } }
  | none => s

end Sys2Proof.Machine
end

