-- ==== Sys2Proof/Machine/Stitch.lean ====
section
/-! DEFINITION. The stitch boundary and network time (R19-R30, R33, R390, R546). -/

namespace Sys2Proof.Machine

open Sys2Proof

/-! The boundary (R30). -/

/-- Length of the coming stitch: a LOCKED node's servo lengthens or shortens it by at most 13 CCLK cycles (R21, R25). -/
def State.nextLen (s : State) (corr : Int) : Nat :=
  let base := s.fld Reg.G.PERIOD_US * 1300
  if s.fld Reg.G.SYNC_STATE = 2 then ((base : Int) + max (-13) (min 13 corr)).toNat else base

/-- Slices still running are overruns (R35). -/
def State.overruns (s : State) : State := s.sched.slices.foldl State.overrunSlice s

/-- The epoch advances (R27), and what the node keeps of one stitch starts anew. -/
def State.newEpoch (s : State) (corr : Int) : State :=
  let len := s.nextLen corr
  let s := { s with time := { s.time with epoch := s.time.epoch + 1, phase := 0, stitchLen := len } }
  let s := { s with sched := { s.sched with versionSeen := [], routeSkipLogged := false, misplacedLogged := [], sorterUsed := [] } }
  let s := s.setFlash { s.flash with landed := [] }
  if s.freeLow ≤ s.freeFrames then s.setFld Reg.G.MEM_SHORT 0 else s

/-- The job still needs a slice before its work is complete (R33). -/
def needsSlice (j : Job) : Bool :=
  match j.work with
  | .query _ | .compact _ | .routeEdit _ | .attend _ | .lookup _ | .embShare _ => true
  | .update u => u.insert && !u.encoded && !u.prepared
  | .engine e => e.ended.isNone
  | .nbRun n => n.ended.isNone
  | .attnMerge m => decide (m.parts.length = m.shards)
  | .version _ | .hint _ | .embUpdate _ | .stepClose _ | .hotSet _ | .embVersion _ => false

/-- One more stitch without a slice (R33): the stitch of admission itself does not count. -/
def State.countWaits (s : State) : State :=
  s.setJobs (s.sched.jobs.map (fun (j : Job) =>
    if !j.started && j.doom.isNone && needsSlice j && decide (j.epoch + 1 < s.now) then { j with wait := j.wait + 1 } else j))

/-- The job has waited ADMIT_WAIT_MAX stitches for its first slice. -/
def State.expire (s : State) (id : Nat) : State :=
  match s.job? id with
  | some j => if !j.started && j.doom.isNone && decide (s.fld Reg.G.ADMIT_WAIT_MAX ≤ j.wait) then s.endJob j .refused else s
  | none => s

def State.expireAll (s : State) : State := (s.sched.jobs.map (fun j => j.id)).foldl State.expire s

/-- Before the order of R30: faults found, blocks retired, dooms and waits that have run out (R33, R35, R79, R438, R443, R463). -/
def State.settle (s : State) (x : BoundaryIn) : State :=
  (((s.thermal x).dropEvents.retireAll.wedgeAll.endFence.countWaits).expireAll).endDoomed

/-- The first boundary commits what the image wrote (R49) and ends the RESET state (R468). -/
def State.firstBoundary (s : State) : State :=
  let s := { s with time := { s.time with firstCommit := true } }
  if s.startState = 0 then s.enterTrain else s

/-- Steps 2 to 6 of R30. Visibility follows the epoch by itself: an update shows from its effective epoch on (R146). -/
def State.actions (s : State) : State :=
  let s := (s.activateMap.releaseAt.commits).firstBoundary
  let s := ((s.versionSwaps (fun _ => true)).layoutSwaps (fun _ => true)).embSwaps (fun _ => true)
  (s.closeSteps (fun _ => true)).gateRestart

/-- The CUT of a query (R102): the score of the last entry of a full candidate store. -/
def State.setCut (s : State) (j : Job) (q : Query) : State :=
  if decide (q.len ≤ 1024) && !q.localFinal && decide (q.len ≤ q.store.length) then
    s.putQuery j { q with cut := ((q.store[q.len - 1]?).map (fun (c : Cand) => c.score)).getD q.cut }
  else s

def State.setCuts (s : State) : State :=
  (s.queries.map (fun y => y.1.id)).foldl (fun s id => match s.query? id with | some (j, q) => s.setCut j q | none => s) s

/-- Old layouts and slots that are due for release (R153, R156). -/
def State.releases (s : State) : State :=
  let s := (s.parts.map (fun x => x.1)).foldl (fun s k => s.releaseLayouts (k / 2 ^ 20) (k % 2 ^ 20)) s
  (s.colls.map (fun x => x.1)).foldl State.releaseSlots s

/-- The memory tiers and the flash layer in the window (R324, R326, R330, R334, R347). -/
def State.tierWindow (s : State) : State :=
  let s := s.evictWaiting
  let s := (s.pageList.filter (fun p => decide ((s.page p).st = .writing))).foldl State.leaveWriting s
  let s := s.applyDiscards
  let s := if s.migrationDue then s.migrate else s
  let s := (s.flash.wbuf.map (fun (x : WbEntry) => x.sector)).foldl State.wbFlush s
  (s.journalFlush.driveHints).handVectors

/-- Passes form and flash reads are issued (R93, R98, R105). -/
def State.searchWindow (s : State) : State :=
  let s := (s.formPasses true (fun _ => true)).formPasses false (fun _ => true)
  (s.queries.map (fun y => y.1.id)).foldl (fun s id => match s.query? id with | some (j, q) => s.issueReads j q | none => s) s

/-- What else a boundary does: descriptors in memory are read, jobs go on, rings are visited (R53, R211, R259, R372, R399). -/
def State.window (s : State) : State :=
  let s := ((s.readCollections.readSlots).readTabs.setCuts).advanceStart
  let s := ((s.embBoundary.releases).tierWindow).searchWindow
  ((s.tryShares.tryLookups).visitRings).drive

/-- Step 7 of R30: admission opens for the new stitch, but not in a halt (R468). -/
def State.openStitch (s : State) : State := { s with time := { s.time with admitOpen := decide (s.startState ≠ 7) } }

/-- The stitch boundary. -/
def State.boundary (s : State) (x : BoundaryIn) : State :=
  if s.time.timer then
    let s := (s.egressClose.overruns).newEpoch x.corr
    (((s.settle x).actions).openStitch).window
  else s

/-- A cycle goes by with no command waiting. -/
def State.tick (s : State) : State :=
  if s.running && s.time.timer then { s with time := { s.time with phase := s.time.phase + 1 } } else s

/-- An AT_EN release by itself, within the boundary window. -/
def State.commitAtRelease (s : State) : State :=
  let c := s.wide Reg.G.COMMIT_AT_LO Reg.G.COMMIT_AT_HI
  if s.time.timer && s.inWindow && s.flag Reg.G.AT_EN && decide (c ≤ s.now) then s.releaseAt.commits else s

/-- What a boundary does, by a command of its own: within the boundary window alone. -/
def State.atWindow (s : State) (f : State → State) : State := if s.time.timer && s.inWindow then f s else s

/-- The passes of one partition that may start (R93). -/
def State.passesOf (s : State) (c p : Nat) : State :=
  let f (w : Waiting) : Bool := decide (w.coll = c) && decide (w.part = p)
  (s.formPasses true f).formPasses false f

/-- The plane reads of one query (R105). -/
def State.issueOf (s : State) (job : Nat) : State :=
  s.atWindow (fun s => match s.query? job with | some (j, q) => s.issueReads j q | none => s)

/-- A waiting share's time is up (R399). -/
def State.shareTimeout (s : State) (lookup : Bool) (n : Nat) : State :=
  if lookup then
    match s.emb.wait[n]? with
    | some w => if s.embAnswer w.2.1 w.2.2 = .lag then s.tryLookup w else s
    | none => s
  else
    match s.fabric.shareWait[n]? with
    | some w => if s.shareAnswer w.2.1 w.2.2 = .moved true then s.tryShare w else s
    | none => s

/-! Network time (R23-R26, R546). -/

/-- Offset in nanoseconds within which the node is LOCKED (R24, R26). -/
def lockedNs : Nat := 50

/-- SYNC_STATE after an accepted Sync message that leaves this offset. -/
def syncNext (st : Nat) (near : Bool) : Nat :=
  match st with
  | 0 => 1
  | 1 => if near then 2 else 1
  | 3 => if near then 2 else 3
  | 4 => 1
  | n => n

/-- A Sync message is accepted: it comes in through a port that is UP. -/
def State.syncMessage (s : State) (offset : Int) (seconds : Nat) : State :=
  if s.upPorts = [] then s
  else
    let st := s.fld Reg.G.SYNC_STATE
    let s := (s.setFld Reg.G.OFFSET_NS (signedBits 32 offset)).setFld Reg.G.SYNC_STATE (syncNext st (decide (offset.natAbs ≤ lockedNs)))
    { s with time := { s.time with netSeconds := seconds, estErrorNs := 0 } }

/-- The delay of a port's link as measured (R23). -/
def State.peerDelay (s : State) (p ns : Nat) : State :=
  if s.upPorts.contains p then
    { s with time := { s.time with portDelay := (List.range 8).map (fun i => if i = p then ns else s.time.portDelay.getD i 0) } }
  else s

/-- Four Sync intervals without a message (R26). -/
def State.syncLoss (s : State) : State :=
  if s.fld Reg.G.SYNC_STATE = 2 then (s.setFld Reg.G.SYNC_STATE 3).setFld Reg.G.HOLDOVER_SEEN 1 else s

/-- The estimated error passes its limit (R26): Cobbler reports the entry to DETACHED. -/
def State.holdoverOut (s : State) (ns : Nat) : State :=
  if s.fld Reg.G.SYNC_STATE = 3 && decide (s.fld Reg.G.HOLDOVER_LIMIT_NS < ns) then
    let s := (s.setFld Reg.G.SYNC_STATE 4).setFld Reg.G.DETACHED_SEEN 1
    { s with time := { s.time with estErrorNs := ns, detachReports := s.time.detachReports + 1 } }
  else s

/-- The second of network time (R546). -/
def State.pps (s : State) (second : Nat) : State :=
  if s.fld Reg.G.SYNC_STATE = 2 || s.fld Reg.G.SYNC_STATE = 3 then
    { s with time := { s.time with netSeconds := second }, power := { s.power with timePpsOut := s.power.timePpsOut + 1 } }
  else s

/-- The boundary of the join epoch (R28, R390): every job ends first, then the composition's epoch is adopted. -/
def State.joinEpoch (s : State) : State :=
  match s.fabric.joinAt with
  | none => s
  | some e =>
    if s.fld Reg.G.MEMBER_STATE ≠ 1 || !s.inWindow then s
    else
      let s := s.setFabric { s.fabric with joinAt := none }
      if s.fld Reg.G.SYNC_STATE = 2 then
        let s := s.endJobs (s.sched.jobs.map (fun j => j.id)) .aborted
        let s := { s with time := { s.time with epoch := BitVec.ofNat 48 e } }
        (s.setFld Reg.G.MEMBER_STATE 2).logMember
      else ((s.setFld Reg.G.JOIN_FAULT 5).setFld Reg.G.MEMBER_STATE 0).logMember

end Sys2Proof.Machine
end

