-- ==== Sys2Proof/Machine/CoherenceRows.lean ====
section
/-! DEFINITION. Coherence, rings and the link: what each command does (13_coherence.md). -/

namespace Sys2Proof.Machine

open Sys2Proof

/-- R363: RD_SHARED. -/
def execRdShared (agent txn line dom : Nat) (dirErr : Bool) (s : State) : Host.Outcome State Fault Refusal :=
  node s (fun s => s.request (.mk 0 agent txn line dom [] 0 0) dirErr)

/-- R363: RD_OWN. -/
def execRdOwn (agent txn line dom : Nat) (dirErr : Bool) (s : State) : Host.Outcome State Fault Refusal :=
  node s (fun s => s.request (.mk 1 agent txn line dom [] 0 0) dirErr)

/-- R363: RD_ONCE. -/
def execRdOnce (agent txn line dom : Nat) (s : State) : Host.Outcome State Fault Refusal :=
  node s (fun s => s.request (.mk 2 agent txn line dom [] 0 0) false)

/-- R366: WR_INV. -/
def execWrInv (agent txn line dom : Nat) (data : List Byte) (s : State) : Host.Outcome State Fault Refusal :=
  node s (fun s => s.request (.mk 3 agent txn line dom data 0 0) false)

/-- R366: WR_PTL. -/
def execWrPtl (agent txn line dom : Nat) (mask : Nat) (data : List Byte) (s : State) : Host.Outcome State Fault Refusal :=
  node s (fun s => s.request (.mk 4 agent txn line dom data mask 0) false)

/-- R369: WR_BACK. -/
def execWrBack (agent txn line dom : Nat) (data : List Byte) (poison : Bool) (s : State) : Host.Outcome State Fault Refusal :=
  node s (fun s => s.request (.mk 10 agent txn line dom data (b2n poison) 0) false)

/-- R369: EVICT. -/
def execEvict (agent txn line dom : Nat) (s : State) : Host.Outcome State Fault Refusal :=
  node s (fun s => s.request (.mk 11 agent txn line dom [] 0 0) false)

/-- R367: WR_HINT. -/
def execWrHint (agent txn line dom target : Nat) (data : List Byte) (s : State) : Host.Outcome State Fault Refusal :=
  node s (fun s => s.request (.mk 5 agent txn line dom data 0 target) false)

/-- R363: RSP_I. -/
def execRspI (agent line attempt : Nat) (s : State) : Host.Outcome State Fault Refusal := node s (fun s => s.rspI agent line attempt)

/-- R363: RSP_S. -/
def execRspS (agent line attempt : Nat) (s : State) : Host.Outcome State Fault Refusal := node s (fun s => s.rspS agent line attempt)

/-- R363: RSP_FWD. -/
def execRspFwd (agent line attempt : Nat) (data : List Byte) (poison : Bool) (s : State) : Host.Outcome State Fault Refusal :=
  node s (fun s => s.rspFwd agent line attempt data poison)

/-- R363: RSP_DIRTY. -/
def execRspDirty (agent line attempt : Nat) (data : List Byte) (poison : Bool) (s : State) : Host.Outcome State Fault Refusal :=
  node s (fun s => s.rspDirty agent line attempt data poison)

/-- R367: RSP_DECLINE. -/
def execRspDecline (agent line attempt : Nat) (s : State) : Host.Outcome State Fault Refusal := node s (fun s => s.rspDecline agent line attempt)

/-- R365: a response misses its slot. -/
def execSnoopLate (agent line : Nat) (s : State) : Host.Outcome State Fault Refusal := node s (fun s => s.snoopLate agent line)

/-- R375: a write to AGENT_KILL. -/
def execAgentKill (agent dom target : Nat) (s : State) : Host.Outcome State Fault Refusal :=
  node s (fun s => s.regMessage ⟨agent, dom, Reg.Link.AGENT_KILL.addr, true, target⟩)

/-- R377: a write to AGENT_REVIVE. -/
def execAgentRevive (agent dom target : Nat) (s : State) : Host.Outcome State Fault Refusal :=
  node s (fun s => s.regMessage ⟨agent, dom, Reg.Link.AGENT_REVIVE.addr, true, target⟩)

/-- R376: the directory walk ends. -/
def execReclaimWalkEnd (s : State) : Host.Outcome State Fault Refusal := node s (fun s => s.walkEnd)

/-- R372: a pair's software line is read again. -/
def execRingWatchRead (dom ring : Nat) (s : State) : Host.Outcome State Fault Refusal := node s (fun s => s.ringWatch dom ring)

/-- R356: the link enters TRAINING. -/
def execLinkTraining (s : State) : Host.Outcome State Fault Refusal := node s (fun s => s.linkTraining)

/-- R356: the link is up. -/
def execLinkTrained (wide : Bool) (s : State) : Host.Outcome State Fault Refusal := node s (fun s => s.linkTrained wide)

/-- R356: training took too long. -/
def execRetrainTimeout (s : State) : Host.Outcome State Fault Refusal := node s (fun s => s.retrainTimeout)

/-- R356: the partner is gone. -/
def execPartnerLoss (s : State) : Host.Outcome State Fault Refusal := node s (fun s => s.partnerLoss)

/-- R357: a flit is replayed. -/
def execFlitReplay (s : State) : Host.Outcome State Fault Refusal := node s (fun s => s.flitReplay)

/-- R357: a lane is retired. -/
def execLaneFault (lane : Nat) (s : State) : Host.Outcome State Fault Refusal := node s (fun s => s.laneFault lane)

end Sys2Proof.Machine
end

