-- ==== Sys2Proof/Machine/EmbedRows.lean ====
section
/-! DEFINITION. Embeddings: what each command does (10_embeddings.md). -/

namespace Sys2Proof.Machine

open Sys2Proof

/-- R262, R263: a LOOKUP is taken. -/
def execLookup (dom ring : Nat) (s : State) : Host.Outcome State Fault Refusal := node s (fun s => s.takeOp 0x10 dom ring)

/-- R264: a sort slice ends. -/
def execSortByOwner (sid : Nat) (s : State) : Host.Outcome State Fault Refusal := node s (fun s => s.sliceEnds sid 20 State.endSort)

/-- R265: a lookup share arrives. -/
def execLookupShare (src : Nat) (req : LookupReq) (s : State) : Host.Outcome State Fault Refusal :=
  node s (fun s => s.fromPeer src (fun s => s.arriveLookup src req))

/-- R265: a pooling slice ends. -/
def execPooling (sid : Nat) (s : State) : Host.Outcome State Fault Refusal := node s (fun s => s.sliceEnds sid 21 State.endPooling)

/-- R267: a lookup partial arrives. -/
def execLookupPartial (msg : LookupPart) (s : State) : Host.Outcome State Fault Refusal :=
  node s (fun s => s.fromPeer msg.owner (fun s => s.receiveLookup msg))

/-- R266: a combine slice ends. -/
def execLookupCombine (sid : Nat) (s : State) : Host.Outcome State Fault Refusal := node s (fun s => s.sliceEnds sid 22 State.endCombineBags)

/-- R270: an EMB_UPDATE is taken. -/
def execEmbUpdate (dom ring : Nat) (s : State) : Host.Outcome State Fault Refusal := node s (fun s => s.takeOp 0x11 dom ring)

/-- R270, R271: a gradient row arrives. -/
def execGradientRow (src table step row : Nat) (g : List F32) (s : State) : Host.Outcome State Fault Refusal :=
  node s (fun s => s.fromPeer src (fun s => s.gradientRow src table step row g))

/-- R272: a STEP_CLOSE is taken. -/
def execStepClose (dom ring : Nat) (s : State) : Host.Outcome State Fault Refusal := node s (fun s => s.takeOp 0x12 dom ring)

/-- R272: the step closes at the boundary that begins C. -/
def execStepCloseAt (table : Nat) (s : State) : Host.Outcome State Fault Refusal :=
  node s (fun s => s.atWindow (fun s => s.closeSteps (fun t => decide (t = table))))

/-- R273: an owner sends its seal. -/
def execSealSend (table : Nat) (s : State) : Host.Outcome State Fault Refusal := node s (fun s => s.sealStep table)

/-- R273: a seal arrives. -/
def execSealMsg (src table step : Nat) (s : State) : Host.Outcome State Fault Refusal :=
  node s (fun s => s.fromPeer src (fun s => s.recvSeal src table step))

/-- R274: an apply slice ends. -/
def execStepApply (sid : Nat) (s : State) : Host.Outcome State Fault Refusal := node s (fun s => s.sliceEnds sid 23 State.endStepApply)

/-- R277: a HOT_SET is taken. -/
def execHotSet (dom ring : Nat) (s : State) : Host.Outcome State Fault Refusal := node s (fun s => s.takeOp 0x13 dom ring)

/-- R278: a hot set is reloaded. -/
def execHotRefresh (table : Nat) (s : State) : Host.Outcome State Fault Refusal := node s (fun s => s.atWindow (fun s => s.refreshHot table))

/-- R279: an EMB_VERSION is taken. -/
def execEmbVersion (dom ring : Nat) (s : State) : Host.Outcome State Fault Refusal := node s (fun s => s.takeOp 0x14 dom ring)

/-- R279: the loaded slot becomes CURRENT. -/
def execEmbSwap (table : Nat) (s : State) : Host.Outcome State Fault Refusal :=
  node s (fun s => s.atWindow (fun s => s.embSwaps (fun t => decide (t = table))))

/-- R271: an owner reports a dropped row. -/
def execDropReport (table step _row : Nat) (s : State) : Host.Outcome State Fault Refusal := node s (fun s => s.dropReport table step)

/-- R278: a remote row arrives for a hot set. -/
def execHotRowFetch (table slot row : Nat) (data : List Byte) (s : State) : Host.Outcome State Fault Refusal :=
  node s (fun s => s.hotRowArrives table slot row data)

end Sys2Proof.Machine
end

