-- ==== Sys2Proof/Machine/EngineRows.lean ====
section
/-! DEFINITION. Engines and attention: what each command does (07_engines.md, 08_attention.md, 09_skive.md). -/

namespace Sys2Proof.Machine

open Sys2Proof

/-- R196-R198: an ENGINE descriptor of KIND GEMM is taken, or one of a KIND that names no command. -/
def execGemm (dom ring : Nat) (s : State) : Host.Outcome State Fault Refusal := node s (fun s => s.takeKind 0x30 (fun k => k ≠ 8 && k ≠ 9) dom ring)

/-- R194, R196: an element-wise map is taken. -/
def execElementWiseMap (dom ring : Nat) (s : State) : Host.Outcome State Fault Refusal := node s (fun s => s.takeKind 0x30 (fun k => k = 8) dom ring)

/-- R194, R196: a row reduction is taken. -/
def execRowReduction (dom ring : Nat) (s : State) : Host.Outcome State Fault Refusal := node s (fun s => s.takeKind 0x30 (fun k => k = 9) dom ring)

/-- R197, R203: a GEMM slice ends. -/
def execGemmSlice (sid : Nat) (s : State) : Host.Outcome State Fault Refusal := node s (fun s => s.sliceEnds sid 13 State.endGemm)

/-- R194, R202: a vector slice ends. -/
def execVectorSlice (sid : Nat) (s : State) : Host.Outcome State Fault Refusal := node s (fun s => s.sliceEnds sid 14 State.endVectorOp)

/-- R216-R219: an ATTEND is taken. -/
def execAttend (dom ring : Nat) (s : State) : Host.Outcome State Fault Refusal := node s (fun s => s.takeOp 0x20 dom ring)

/-- R220: a projection slice ends. -/
def execKvProjection (sid : Nat) (s : State) : Host.Outcome State Fault Refusal := node s (fun s => s.sliceEnds sid 15 State.endKvProject)

/-- R221-R223: a rotate-and-write slice ends. -/
def execRotateAndWrite (sid : Nat) (s : State) : Host.Outcome State Fault Refusal := node s (fun s => s.sliceEnds sid 16 State.endRotateWrite)

/-- R226: a fused slice ends. -/
def execFusedAttention (sid : Nat) (s : State) : Host.Outcome State Fault Refusal := node s (fun s => s.sliceEnds sid 17 State.endFused)

/-- R227: a combine slice ends. -/
def execCombine (sid : Nat) (s : State) : Host.Outcome State Fault Refusal := node s (fun s => s.sliceEnds sid 18 State.endCombine)

/-- R232: an ATTN_MERGE is taken. -/
def execAttnMerge (dom ring : Nat) (s : State) : Host.Outcome State Fault Refusal := node s (fun s => s.takeOp 0x21 dom ring)

/-- R231, R234: an attention partial arrives. -/
def execAttnPartial (mergeSlot : Nat) (msg : AttnMsg) (s : State) : Host.Outcome State Fault Refusal :=
  node s (fun s => s.fromPeer msg.src (fun s => s.mergePartial mergeSlot msg))

/-- R233: a merge slice ends. -/
def execMerge (sid : Nat) (s : State) : Host.Outcome State Fault Refusal := node s (fun s => s.sliceEnds sid 19 State.endMergeSlice)

/-- R253: a failed block is decoded again. -/
def execSkiveReread (page block : Nat) (ok : Bool) (s : State) : Host.Outcome State Fault Refusal := node s (fun s => s.reread page block ok)

end Sys2Proof.Machine
end

