-- ==== Sys2Proof/Machine/FabricRows.lean ====
section
/-! DEFINITION. Fabric and egress: what each command does (14_fabric.md, 15_egress.md). -/

namespace Sys2Proof.Machine

open Sys2Proof

/-- R383: a port begins to train. -/
def execPortTraining (port : Nat) (s : State) : Host.Outcome State Fault Refusal := node s (fun s => s.portTraining port)

/-- R420: a port is UP. -/
def execPortUp (port : Nat) (s : State) : Host.Outcome State Fault Refusal := node s (fun s => s.portUp port)

/-- R385: a port leaves UP. -/
def execPortDown (port : Nat) (s : State) : Host.Outcome State Fault Refusal := node s (fun s => s.portDown port)

/-- R443: a lane fault retires the port. -/
def execFabricLaneFault (port lane : Nat) (s : State) : Host.Outcome State Fault Refusal := node s (fun s => s.portFault port lane)

/-- R386: a data frame arrives. -/
def execDataFrame (port : Nat) (f : Frame) (s : State) : Host.Outcome State Fault Refusal := node s (fun s => s.dataFrame port f)

/-- R387: an acknowledgement arrives. -/
def execAcknowledgement (dst queue msgNo idx : Nat) (s : State) : Host.Outcome State Fault Refusal := node s (fun s => s.acked dst queue msgNo idx)

/-- R387: a frame is sent again. -/
def execRetx (dst queue msgNo idx : Nat) (s : State) : Host.Outcome State Fault Refusal := node s (fun s => s.resend dst queue msgNo idx)

/-- R415: the port picks a frame. -/
def execEgressSelect (port t : Nat) (s : State) : Host.Outcome State Fault Refusal := node s (fun s => s.egressSelect port t)

/-- R421: a gate entry begins. -/
def execGateEntry (port t : Nat) (s : State) : Host.Outcome State Fault Refusal := node s (fun s => s.gateEntry port t)

/-- R423: a guard band begins. -/
def execGuardBand (port queue t : Nat) (s : State) : Host.Outcome State Fault Refusal := node s (fun s => s.guardBand port queue t)

/-- R413: a time message is sent. -/
def execTimeMessage (port t bytes : Nat) (s : State) : Host.Outcome State Fault Refusal := node s (fun s => s.timeMessage port t bytes)

/-- R389: JOIN_REQ is sent. -/
def execJoinReq (s : State) : Host.Outcome State Fault Refusal := node s (fun s => s.joinReq)

/-- R389: ASSIGN arrives. -/
def execAssign (addr comp join : Nat) (s : State) : Host.Outcome State Fault Refusal := node s (fun s => s.assign addr comp join)

/-- R389: REFUSE_JOIN arrives. -/
def execRefuseJoin (code : Nat) (s : State) : Host.Outcome State Fault Refusal := node s (fun s => s.refuseJoin code)

/-- R28, R390: the boundary of the join epoch. -/
def execJoinEpoch (s : State) : Host.Outcome State Fault Refusal := node s (fun s => s.joinEpoch)

/-- R393, R394: DECLARE_FAILED arrives. -/
def execDeclareFailed (failed _epoch : Nat) (s : State) : Host.Outcome State Fault Refusal := node s (fun s => s.declareFailed failed)

/-- R395: MAP_WRITE arrives. -/
def execMapWrite (offset : Nat) (data : List Byte) (s : State) : Host.Outcome State Fault Refusal := node s (fun s => s.mapWrite offset data)

/-- R395: MAP_ACTIVATE arrives. -/
def execMapActivate (epoch : Nat) (s : State) : Host.Outcome State Fault Refusal := node s (fun s => s.mapActivate epoch)

/-- R395: the pending map becomes current. -/
def execMapActivation (s : State) : Host.Outcome State Fault Refusal := node s (fun s => s.atWindow State.activateMap)

/-- R409: REBUILD arrives. -/
def execRebuild (group member : Nat) (s : State) : Host.Outcome State Fault Refusal := node s (fun s => s.startRebuild group member)

/-- R409: the rebuild is done. -/
def execRebuilt (s : State) : Host.Outcome State Fault Refusal := node s (fun s => s.rebuildDone)

/-- R409, R441: copied units arrive. -/
def execReconstructionCopy (src addr : Nat) (units : List (List Byte × Nat)) (s : State) : Host.Outcome State Fault Refusal :=
  node s (fun s => s.fromPeer src (fun s => s.copyArrives src addr units))

/-- R409: source vectors arrive. -/
def execJournalTransfer (src : Nat) (vectors : List (Nat × List Byte)) (s : State) : Host.Outcome State Fault Refusal :=
  node s (fun s => s.fromPeer src (fun s => s.journalVectors vectors))

end Sys2Proof.Machine
end

