-- ==== Sys2Proof/Machine/FaultRows.lean ====
section
/-! DEFINITION. Faults: what each command does (16_faults.md). -/

namespace Sys2Proof.Machine

open Sys2Proof

/-- R443, R449: a channel or block is retired. -/
def execRetirement (kind idx : Nat) (s : State) : Host.Outcome State Fault Refusal := node s (fun s => s.retirement kind idx)

/-- R323: a remap copy ends. -/
def execRemapCopyDone (stack : Nat) (s : State) : Host.Outcome State Fault Refusal := node s (fun s => s.copyDone stack)

/-- R445: a die-to-die lane fails. -/
def execD2dLaneFault (shank lane : Nat) (s : State) : Host.Outcome State Fault Refusal := node s (fun s => s.d2dLaneFault shank lane)

/-- R436: a line is scrubbed. -/
def execScrub (line stack pc outcome bytes : Nat) (s : State) : Host.Outcome State Fault Refusal :=
  node s (fun s => s.scrub line stack pc outcome bytes)

/-- R454-R456: an awl slice ends. -/
def execAwlSlice (sid : Nat) (pass : Bool) (s : State) : Host.Outcome State Fault Refusal := node s (fun s => s.awlEnd sid pass)

/-- R453: an eye is measured. -/
def execEyeMeasurement (wymer : Bool) (lane mv mui : Nat) (s : State) : Host.Outcome State Fault Refusal := node s (fun s => s.eye wymer lane mv mui)

/-- R453: an optical module is polled. -/
def execOpticalPoll (module power : Nat) (low : Bool) (s : State) : Host.Outcome State Fault Refusal := node s (fun s => s.optical module power low)

/-- R451: a droop is counted. -/
def execDroop (s : State) : Host.Outcome State Fault Refusal := node s (fun s => s.bump Reg.Ras.DROOP_EVENTS)

/-- R463: a function is found wedged. -/
def execWedged (kind idx : Nat) (s : State) : Host.Outcome State Fault Refusal := node s (fun s => s.wedged kind idx)

/-- R459: events not acknowledged go again. -/
def execPldmResend (s : State) : Host.Outcome State Fault Refusal := node s (fun s => s.resendEvents)

/-- R459: an event is acknowledged. -/
def execEventAcknowledgement (seq : Nat) (s : State) : Host.Outcome State Fault Refusal := node s (fun s => s.eventAck seq)

/-- R460: an MCTP request is answered. -/
def execMctpMessage (viaSmbus : Bool) (mtype : Nat) (body : List Byte) (s : State) : Host.Outcome State Fault Refusal :=
  node s (fun s => s.mctp viaSmbus mtype body)

/-- R459: the management port goes down or returns. -/
def execManagementPortDown (down : Bool) (s : State) : Host.Outcome State Fault Refusal := node s (fun s => s.mgmtPort down)

end Sys2Proof.Machine
end

