-- ==== Sys2Proof/Machine/FlashRows.lean ====
section
/-! DEFINITION. Tiers and flash: what each command does (12_tiers_and_flash.md). -/

namespace Sys2Proof.Machine

open Sys2Proof

/-- R326: the migration of a boundary. -/
def execMigration (s : State) : Host.Outcome State Fault Refusal := node s (fun s => if s.migrationDue then s.migrate else s)

/-- R324: a fetched page lands. -/
def execPageLanded (page : Nat) (badSectors : List Nat) (s : State) : Host.Outcome State Fault Refusal := node s (fun s => s.landPage page badSectors)

/-- R324: a page written back becomes FLASH. -/
def execWritebackDurable (page : Nat) (s : State) : Host.Outcome State Fault Refusal := node s (fun s => s.leaveWriting page)

/-- R334: a buffered sector is programmed. -/
def execWbFlush (sector : Nat) (s : State) : Host.Outcome State Fault Refusal := node s (fun s => s.wbFlush sector)

/-- R329: a WILLNEED is taken. -/
def execWillneed (dom ring : Nat) (s : State) : Host.Outcome State Fault Refusal := node s (fun s => s.takeKind 0x50 (fun k => k = 0) dom ring)

/-- R329: a COLD is taken. -/
def execCold (dom ring : Nat) (s : State) : Host.Outcome State Fault Refusal := node s (fun s => s.takeKind 0x50 (fun k => k = 1) dom ring)

/-- R330: a PIN is taken. -/
def execPin (dom ring : Nat) (s : State) : Host.Outcome State Fault Refusal := node s (fun s => s.takeKind 0x50 (fun k => k = 2) dom ring)

/-- R329: an UNPIN is taken. -/
def execUnpin (dom ring : Nat) (s : State) : Host.Outcome State Fault Refusal := node s (fun s => s.takeKind 0x50 (fun k => k = 3) dom ring)

/-- R329: a SYNC is taken. -/
def execSync (dom ring : Nat) (s : State) : Host.Outcome State Fault Refusal := node s (fun s => s.takeKind 0x50 (fun k => k = 4) dom ring)

/-- R330: a DISCARD is taken. -/
def execDiscard (dom ring : Nat) (s : State) : Host.Outcome State Fault Refusal := node s (fun s => s.takeKind 0x50 (fun k => k = 5) dom ring)

/-- R330: a SET is taken, or a hint of a reserved number. -/
def execSetHint (dom ring : Nat) (s : State) : Host.Outcome State Fault Refusal :=
  node s (fun s => s.takeKind 0x50 (fun k => decide (6 ≤ k)) dom ring)

/-- R349: a JOURNAL_READ is taken. -/
def execJournalRead (dom ring : Nat) (s : State) : Host.Outcome State Fault Refusal := node s (fun s => s.takeOp 0x51 dom ring)

/-- R347: the journal buffer is programmed. -/
def execJournalFlush (s : State) : Host.Outcome State Fault Refusal := node s (fun s => s.journalFlush)

/-- R341, R407: a run is durable. -/
def execRunDurable (run sb : Nat) (s : State) : Host.Outcome State Fault Refusal := node s (fun s => (s.runDone run sb).parityDeltas s)

/-- R407, R441: a parity delta arrives. -/
def execParityDelta (src : Nat) (msg : ParityMsg) (s : State) : Host.Outcome State Fault Refusal :=
  node s (fun s => s.fromPeer src (fun s => s.parityDelta msg))

/-- R342: a full superblock is verified. -/
def execSuperblockVerify (sb : Nat) (weak rebuilt : List Nat) (s : State) : Host.Outcome State Fault Refusal :=
  node s (fun s => (s.verifySb sb weak rebuilt).parityDeltas s)

/-- R345: garbage collection. -/
def execGarbageCollection (shank : Nat) (s : State) : Host.Outcome State Fault Refusal := node s (fun s => (s.garbage shank).parityDeltas s)

/-- R346: wear levelling. -/
def execWearLevelling (shank : Nat) (s : State) : Host.Outcome State Fault Refusal := node s (fun s => (s.wear shank).parityDeltas s)

/-- R346: a block has been read too often. -/
def execReadDisturb (sb : Nat) (s : State) : Host.Outcome State Fault Refusal := node s (fun s => (s.readDisturb sb).parityDeltas s)

/-- R346: a patrol read. -/
def execPatrolRead (sb : Nat) (soft : Bool) (s : State) : Host.Outcome State Fault Refusal := node s (fun s => (s.patrol sb soft).parityDeltas s)

/-- R346: a program or an erase fails. -/
def execProgramFail (sb channel : Nat) (erase : Bool) (s : State) : Host.Outcome State Fault Refusal :=
  node s (fun s => (s.programFail sb channel erase).parityDeltas s)

/-- R350: the map rebuild starts. -/
def execMapRebuild (sbTotal userGb : Nat) (s : State) : Host.Outcome State Fault Refusal := node s (fun s => s.startScan sbTotal userGb)

/-- R350, R351: the scan of a set ends. -/
def execSetReady (set torn : Nat) (bad : List Nat) (s : State) : Host.Outcome State Fault Refusal := node s (fun s => s.setReady set torn bad)

end Sys2Proof.Machine
end

