-- ==== Sys2Proof/Machine/ModuleRows.lean ====
section
/-! DEFINITION. Start-up, power and the mailbox: what each command does (17_startup.md, 18_isolation.md, 19_registers.md, 20_module_hardware.md). -/

namespace Sys2Proof.Machine

open Sys2Proof

/-- R464, R541: a low pulse on NODE_RST_N. -/
def execNodeReset (pulseNs : Nat) (s : State) : Host.Outcome State Fault Refusal := .next (s.nodeReset pulseNs)

/-- R474: NODE_RST_N is released. -/
def execResetRelease (s : State) : Host.Outcome State Fault Refusal := .next (s.resetRelease)

/-- R480: training ends. -/
def execTrainingDone (d2dOk : Bool) (channels : List Nat) (s : State) : Host.Outcome State Fault Refusal :=
  node s (fun s => s.trainingDone d2dOk channels)

/-- R482-R485: a self-test wave ends. -/
def execBistWave (w : WaveIn) (s : State) : Host.Outcome State Fault Refusal := node s (fun s => s.bistWave w)

/-- R482: a wave is split. -/
def execWaveSplit (powerW : Nat) (s : State) : Host.Outcome State Fault Refusal := node s (fun s => s.waveSplit powerW)

/-- R484: a failed block is tested again. -/
def execRetestWave (block : Nat) (pass : Bool) (s : State) : Host.Outcome State Fault Refusal := node s (fun s => s.retestWave block pass)

/-- R487: HALF_SOLE_1 begins. -/
def execHalfSole1 (s : State) : Host.Outcome State Fault Refusal := node s (fun s => s.halfSole1)

/-- R487: HALF_SOLE_2 begins. -/
def execHalfSole2 (s : State) : Host.Outcome State Fault Refusal := node s (fun s => s.halfSole2)

/-- R474: FULL begins. -/
def execFull (s : State) : Host.Outcome State Fault Refusal := node s (fun s => s.full)

/-- R539: MOD_EN is asserted. -/
def execModEnAssert (s : State) : Host.Outcome State Fault Refusal := .next (s.modEnAssert)

/-- R539: the rails are up. -/
def execRampDone (s : State) : Host.Outcome State Fault Refusal := .next (s.rampDone)

/-- R539: MOD_EN is deasserted. -/
def execModEnDeassert (s : State) : Host.Outcome State Fault Refusal := .next (s.modEnDeassert)

/-- R539: a rail leaves its band. -/
def execRailOutOfBand (s : State) : Host.Outcome State Fault Refusal := .next (s.railOut)

/-- R537: the input is too low. -/
def execInputUndervoltage (ns : Nat) (s : State) : Host.Outcome State Fault Refusal := .next (s.undervoltage ns)

/-- R542: the module is too hot. -/
def execHardwareThermalShutdown (dieC stackC : Nat) (s : State) : Host.Outcome State Fault Refusal := .next (s.thermalShutdown dieC stackC)

/-- R513: the traversal cache is rebuilt. -/
def execAttestReady (s : State) : Host.Outcome State Fault Refusal := node s (fun s => s.cacheRebuilt)

/-- R532: GET_INFO. -/
def execGetInfo (s : State) : Host.Outcome State Fault Refusal := node s (fun s => s.mbRun 0x01 State.getInfo)

/-- R532: SLOT_WRITE. -/
def execSlotWrite (s : State) : Host.Outcome State Fault Refusal := node s (fun s => s.mbRun 0x10 State.slotWrite)

/-- R532: SLOT_TRY. -/
def execSlotTry (s : State) : Host.Outcome State Fault Refusal := node s (fun s => s.mbRun 0x11 State.slotTry)

/-- R532: RETIRE_READ. -/
def execRetireRead (s : State) : Host.Outcome State Fault Refusal := node s (fun s => s.mbRun 0x12 State.retireRead)

/-- R450, R532: RETIRE_CLEAR. -/
def execRetireClear (s : State) : Host.Outcome State Fault Refusal := node s (fun s => s.mbRun 0x13 State.retireClear)

/-- R515: KEY_GEN. -/
def execKeyGen (s : State) : Host.Outcome State Fault Refusal := node s (fun s => s.mbRun 0x20 State.keyGen)

/-- R515: KEY_IMPORT. -/
def execKeyImport (s : State) : Host.Outcome State Fault Refusal := node s (fun s => s.mbRun 0x21 State.keyImport)

/-- R515: KEY_LOAD. -/
def execKeyLoad (s : State) : Host.Outcome State Fault Refusal := node s (fun s => s.mbRun 0x22 State.keyLoad)

/-- R514: KEY_ERASE. -/
def execKeyErase (s : State) : Host.Outcome State Fault Refusal := node s (fun s => s.mbRun 0x23 State.keyErase)

/-- R515: IMAGE_KEY_PROVISION. -/
def execImageKeyProvision (s : State) : Host.Outcome State Fault Refusal := node s (fun s => s.mbRun 0x24 State.imageKeyProvision)

/-- R509: IMAGE_KEY_REVOKE. -/
def execImageKeyRevoke (s : State) : Host.Outcome State Fault Refusal := node s (fun s => s.mbRun 0x25 State.imageKeyRevoke)

/-- R509: SEC_FLOOR_RAISE. -/
def execSecFloorRaise (s : State) : Host.Outcome State Fault Refusal := node s (fun s => s.mbRun 0x26 State.secFloorRaise)

/-- R511-R513: ATTEST. -/
def execAttest (sinceS : Nat) (s : State) : Host.Outcome State Fault Refusal := node s (fun s => s.mbRun 0x27 (fun s => s.attestQuote sinceS))

/-- R515: ATTEST_CERT. -/
def execAttestCertCmd (s : State) : Host.Outcome State Fault Refusal := node s (fun s => s.mbRun 0x28 State.attestCert)

end Sys2Proof.Machine
end

