-- ==== Sys2Proof/Machine/NearBankRows.lean ====
section
/-! DEFINITION. Near-bank units: what each command does (11_near_bank.md). -/

namespace Sys2Proof.Machine

open Sys2Proof

/-- R301: a near-bank pooling slice runs to its end. -/
def execNbPooling (sid : Nat) (s : State) : Host.Outcome State Fault Refusal := node s (fun s => s.nbFinish sid 24 State.endNbPool)

/-- R302: a near-bank apply slice ends. -/
def execNbApply (sid : Nat) (s : State) : Host.Outcome State Fault Refusal := node s (fun s => s.sliceEnds sid 25 State.endNbApply)

/-- R303, R304: an NB_RUN is taken. -/
def execNbRun (dom ring : Nat) (s : State) : Host.Outcome State Fault Refusal := node s (fun s => s.takeOp 0x40 dom ring)

/-- R305: an NB_RUN slice runs to its end. -/
def execNbRunSlice (sid : Nat) (s : State) : Host.Outcome State Fault Refusal := node s (fun s => s.nbFinish sid 26 State.endNbRun)

/-- R294: NOP. -/
def execNop (k u : Nat) (s : State) : Host.Outcome State Fault Refusal := node s (fun s => s.nbNop k u)

/-- R294: END. -/
def execEndI (k u : Nat) (s : State) : Host.Outcome State Fault Refusal := node s (fun s => s.nbEndI k u)

/-- R294: SET. -/
def execSet (k u : Nat) (s : State) : Host.Outcome State Fault Refusal := node s (fun s => s.nbSet k u)

/-- R294: LDW. -/
def execLdw (k u : Nat) (s : State) : Host.Outcome State Fault Refusal := node s (fun s => s.nbLdw k u)

/-- R294: LDE. -/
def execLde (k u : Nat) (s : State) : Host.Outcome State Fault Refusal := node s (fun s => s.nbLde k u)

/-- R294, R312: LD. -/
def execLd (k u err : Nat) (s : State) : Host.Outcome State Fault Refusal := node s (fun s => s.nbLd k u err)

/-- R294: ST. -/
def execSt (k u : Nat) (s : State) : Host.Outcome State Fault Refusal := node s (fun s => s.nbSt k u)

/-- R294: ADD. -/
def execAdd (k u : Nat) (s : State) : Host.Outcome State Fault Refusal := node s (fun s => s.nbAdd k u)

/-- R294: MUL. -/
def execMul (k u : Nat) (s : State) : Host.Outcome State Fault Refusal := node s (fun s => s.nbMul k u)

/-- R294: FMA. -/
def execFma (k u : Nat) (s : State) : Host.Outcome State Fault Refusal := node s (fun s => s.nbFma k u)

/-- R294: ACT. -/
def execAct (k u : Nat) (s : State) : Host.Outcome State Fault Refusal := node s (fun s => s.nbActI k u)

/-- R294, R298: LACC. -/
def execLacc (k u err : Nat) (s : State) : Host.Outcome State Fault Refusal := node s (fun s => s.nbLacc k u err)

/-- R294: LOOP. -/
def execLoop (k u : Nat) (s : State) : Host.Outcome State Fault Refusal := node s (fun s => s.nbLoop k u)

/-- R294: BR. -/
def execBr (k u : Nat) (s : State) : Host.Outcome State Fault Refusal := node s (fun s => s.nbBr k u)

/-- R298: a beat arrives. -/
def execLaceBeat (k u train : Nat) (vals : List F32) (poison : Bool) (s : State) : Host.Outcome State Fault Refusal :=
  node s (fun s => s.laceBeat k u ⟨train, vals, poison⟩)

/-- R310: a refresh falls due. -/
def execBankRefresh (k u : Nat) (s : State) : Host.Outcome State Fault Refusal := node s (fun s => s.refresh k u)

/-- R311: a second refresh falls due first. -/
def execForcedPreemption (k u : Nat) (s : State) : Host.Outcome State Fault Refusal := node s (fun s => s.preempt k u)

end Sys2Proof.Machine
end

