-- ==== Sys2Proof/Machine/SearchRows.lean ====
section
/-! DEFINITION. Search: what each command does (03_query_path.md, 04_selection.md). -/

namespace Sys2Proof.Machine

open Sys2Proof

/-- R78-R84: a SEARCH descriptor is taken. -/
def execSearch (dom ring : Nat) (s : State) : Host.Outcome State Fault Refusal := node s (fun s => s.takeOp 0x01 dom ring)

/-- R79: an ABORT descriptor is taken. -/
def execAbort (dom ring : Nat) (s : State) : Host.Outcome State Fault Refusal := node s (fun s => s.takeOp 0x0F dom ring)

/-- R86: a route-walk slice ends. -/
def execRouteWalk (sid : Nat) (s : State) : Host.Outcome State Fault Refusal := node s (fun s => s.sliceEnds sid 0 State.endRouteWalk)

/-- R180: a table-build slice ends. -/
def execTableBuild (sid : Nat) (s : State) : Host.Outcome State Fault Refusal := node s (fun s => s.sliceEnds sid 1 State.endTableBuild)

/-- R183: an escalated-rebuild slice ends. -/
def execEscalatedRebuild (sid : Nat) (s : State) : Host.Outcome State Fault Refusal := node s (fun s => s.sliceEnds sid 2 State.endRebuild)

/-- R93: the passes of a partition whose oldest probe has waited PROBE_HOLD stitches start. -/
def execProbeHold (coll part : Nat) (s : State) : Host.Outcome State Fault Refusal := node s (fun s => s.atWindow (fun s => s.passesOf coll part))

/-- R98: a sketch slice ends. -/
def execSketchPass (sid : Nat) (s : State) : Host.Outcome State Fault Refusal := node s (fun s => s.sliceEnds sid 3 State.endSketchPass)

/-- R95: a code slice ends. -/
def execCodePass (sid : Nat) (s : State) : Host.Outcome State Fault Refusal := node s (fun s => s.sliceEnds sid 4 State.endCodePass)

/-- R97: a side slice ends. -/
def execSideSlice (sid : Nat) (s : State) : Host.Outcome State Fault Refusal := node s (fun s => s.sliceEnds sid 5 State.endSideSlice)

/-- R104: a sorter slice ends. -/
def execLocalSelect (sid : Nat) (s : State) : Host.Outcome State Fault Refusal := node s (fun s => s.sliceEnds sid 6 State.endLocalSelect)

/-- R105: the plane reads of a query are issued at a boundary. -/
def execRerankReadIssue (job : Nat) (s : State) : Host.Outcome State Fault Refusal := node s (fun s => s.issueOf job)

/-- R105, R343, R443: a plane read ends. -/
def execPlaneRead (job cand channel step retries : Nat) (s : State) : Host.Outcome State Fault Refusal :=
  node s (fun s => if s.readOk channel step retries && (s.readDue job cand).isSome then (s.planeRead job cand channel step retries).readFault channel step else s)

/-- R344: a read threshold moves one step. -/
def execThresholdAdjust (channel lun bin : Nat) (up : Bool) (s : State) : Host.Outcome State Fault Refusal :=
  node s (fun s => s.adjust channel lun bin up)

/-- R106: a rerank slice ends. -/
def execRerank (sid : Nat) (s : State) : Host.Outcome State Fault Refusal := node s (fun s => s.sliceEnds sid 7 State.endRerank)

/-- R109, R110: a share arrives. -/
def execShareRequest (src : Nat) (req : ShareReq) (s : State) : Host.Outcome State Fault Refusal :=
  node s (fun s => s.fromPeer src (fun s => s.arriveShare src req))

/-- R45, R112: a partial arrives. -/
def execPartialMsg (msg : PartialMsg) (s : State) : Host.Outcome State Fault Refusal :=
  node s (fun s => s.fromPeer msg.holder (fun s => s.receivePartial msg))

/-- R113: a fan-in slice ends. -/
def execFanInMerge (sid : Nat) (s : State) : Host.Outcome State Fault Refusal := node s (fun s => s.sliceEnds sid 8 State.endFanIn)

/-- R399: a share has waited 2 stitches for its map. -/
def execShareWaitTimeout (lookup : Bool) (n : Nat) (s : State) : Host.Outcome State Fault Refusal := node s (fun s => s.shareTimeout lookup n)

end Sys2Proof.Machine
end

