-- ==== Sys2Proof/Machine/StitchRows.lean ====
section
/-! DEFINITION. Stitch, commits, registers, time, slices: what each command does (01_stitch.md, 19_registers.md). -/

namespace Sys2Proof.Machine

open Sys2Proof

/-- R30: the boundary actions, in order, then admission opens. -/
def execStitchBoundary (inp : BoundaryIn) (s : State) : Host.Outcome State Fault Refusal := node s (fun s => s.boundary inp)

/-- R43: HOLD is released at COMMIT_AT, and what is pending commits. -/
def execCommitAtRelease (s : State) : Host.Outcome State Fault Refusal := node s (fun s => s.commitAtRelease)

/-- R40: COMMIT := 1 asks for a commit. -/
def execCommitWrite (agent dom : Nat) (b : Blk) (s : State) : Host.Outcome State Fault Refusal := node s (fun s => s.ctrlWrite agent dom b 0 true)

/-- R41: COMMIT := 0 withdraws one. -/
def execCommitWithdraw (agent dom : Nat) (b : Blk) (s : State) : Host.Outcome State Fault Refusal := node s (fun s => s.ctrlWrite agent dom b 0 false)

/-- R42: HOLD := 1. -/
def execHoldSet (agent dom : Nat) (s : State) : Host.Outcome State Fault Refusal := node s (fun s => s.ctrlWrite agent dom .global 1 true)

/-- R42: HOLD := 0; what is pending commits at the next boundary. -/
def execHoldClear (agent dom : Nat) (s : State) : Host.Outcome State Fault Refusal := node s (fun s => s.ctrlWrite agent dom .global 1 false)

/-- R43: AT_EN := 1. -/
def execAtEnSet (agent dom : Nat) (s : State) : Host.Outcome State Fault Refusal := node s (fun s => s.ctrlWrite agent dom .global 2 true)

/-- R38, R41: a write to a shadow address. -/
def execShadowWrite (agent dom off data : Nat) (s : State) : Host.Outcome State Fault Refusal :=
  node s (fun s => s.regMessage ⟨agent, dom, off, true, data⟩)

/-- R523: a register write. -/
def execRegWr (agent dom off data : Nat) (s : State) : Host.Outcome State Fault Refusal :=
  node s (fun s => s.regMessage ⟨agent, dom, off, true, data⟩)

/-- R524: a read; of a low register it latches the high one. -/
def execLowRegisterRead (agent dom off : Nat) (s : State) : Host.Outcome State Fault Refusal :=
  node s (fun s => s.regMessage ⟨agent, dom, off, false, 0⟩)

/-- R522: a held message is served once the window is over. -/
def execHeldRegisterMessage (s : State) : Host.Outcome State Fault Refusal := node s (fun s => s.serveHeld)

/-- R23, R24, R26: the servo takes a Sync message. -/
def execSyncMessage (offsetNs : Int) (seconds : Nat) (s : State) : Host.Outcome State Fault Refusal :=
  node s (fun s => s.syncMessage offsetNs seconds)

/-- R23: the delay of a port is measured. -/
def execPeerDelayMessage (port delayNs : Nat) (s : State) : Host.Outcome State Fault Refusal := node s (fun s => s.peerDelay port delayNs)

/-- R26: LOCKED becomes HOLDOVER. -/
def execSyncLoss (s : State) : Host.Outcome State Fault Refusal := node s (fun s => s.syncLoss)

/-- R26: HOLDOVER becomes DETACHED. -/
def execHoldoverLimitExceeded (errorNs : Nat) (s : State) : Host.Outcome State Fault Refusal := node s (fun s => s.holdoverOut errorNs)

/-- R546: a pulse on TIME_PPS_OUT. -/
def execPpsPulse (second : Nat) (s : State) : Host.Outcome State Fault Refusal := node s (fun s => s.pps second)

/-- R31-R34: the scheduler admits a slice, or refuses its job. -/
def execSliceAdmit (kind : SliceKind) (idx start : Nat) (s : State) : Host.Outcome State Fault Refusal :=
  node s (fun s => s.sliceAdmit kind idx start)

/-- R35, R37: a slice runs past the end of its stitch. -/
def execOverrun (sid : Nat) (s : State) : Host.Outcome State Fault Refusal := node s (fun s => s.overrun sid)

/-- R37: an engine that reaches OVERRUN_LIMIT becomes suspect. -/
def execOverrunLimit (e : Engine) (idx : Nat) (s : State) : Host.Outcome State Fault Refusal := node s (fun s => s.checkOverruns e idx)

/-- R33: a job that waited ADMIT_WAIT_MAX stitches is refused. -/
def execAdmitWaitExpiry (job : Nat) (s : State) : Host.Outcome State Fault Refusal := node s (fun s => s.expire job)

end Sys2Proof.Machine
end

