-- ==== Sys2Proof/Machine/UpdateRows.lean ====
section
/-! DEFINITION. Updates and maintenance: what each command does (05_live_updates.md). -/

namespace Sys2Proof.Machine

open Sys2Proof

/-- R139: an INSERT, or a LINK chain that begins with one, is taken. -/
def execInsert (dom ring : Nat) (s : State) : Host.Outcome State Fault Refusal := node s (fun s => s.takeOp 0x02 dom ring)

/-- R143: a DELETE, or a LINK chain that begins with one, is taken. -/
def execDelete (dom ring : Nat) (s : State) : Host.Outcome State Fault Refusal := node s (fun s => s.takeOp 0x03 dom ring)

/-- R139: an encode slice ends. -/
def execInsertEncode (sid : Nat) (s : State) : Host.Outcome State Fault Refusal := node s (fun s => s.sliceEnds sid 9 State.endInsertEncode)

/-- R141: the oldest batch commits. -/
def execBatchCommit (s : State) : Host.Outcome State Fault Refusal := node s (fun s => s.commitBatch)

/-- R150: a COMPACT is taken. -/
def execCompact (dom ring : Nat) (s : State) : Host.Outcome State Fault Refusal := node s (fun s => s.takeOp 0x04 dom ring)

/-- R155: a main-fold slice ends. -/
def execMainFold (sid : Nat) (s : State) : Host.Outcome State Fault Refusal := node s (fun s => s.sliceEnds sid 10 State.endMainFold)

/-- R155: a side-fold slice ends. -/
def execSideFold (sid : Nat) (s : State) : Host.Outcome State Fault Refusal := node s (fun s => s.sliceEnds sid 11 State.endSideFold)

/-- R152: a compaction's layout is swapped in. -/
def execLayoutSwap (job : Nat) (s : State) : Host.Outcome State Fault Refusal :=
  node s (fun s => s.atWindow (fun s => s.layoutSwaps (fun j => decide (j.id = job))))

/-- R153: old layouts are released. -/
def execLayoutRelease (coll part : Nat) (s : State) : Host.Outcome State Fault Refusal :=
  node s (fun s => s.atWindow (fun s => s.releaseLayouts coll part))

/-- R157: a VERSION is taken. -/
def execVersion (dom ring : Nat) (s : State) : Host.Outcome State Fault Refusal := node s (fun s => s.takeOp 0x05 dom ring)

/-- R156: LOADING slots become CURRENT. -/
def execVersionCurrent (coll : Nat) (s : State) : Host.Outcome State Fault Refusal :=
  node s (fun s => s.atWindow (fun s => s.versionSwaps (fun c => decide (c = coll))))

/-- R156: RETIRED slots become FREE. -/
def execSlotRelease (coll : Nat) (s : State) : Host.Outcome State Fault Refusal := node s (fun s => s.atWindow (fun s => s.releaseSlots coll))

/-- R159: a ROUTE_EDIT is taken. -/
def execRouteEdit (dom ring : Nat) (s : State) : Host.Outcome State Fault Refusal := node s (fun s => s.takeOp 0x06 dom ring)

/-- R160: a route-copy slice ends. -/
def execRouteCopy (sid : Nat) (s : State) : Host.Outcome State Fault Refusal := node s (fun s => s.sliceEnds sid 12 State.endRouteCopy)

end Sys2Proof.Machine
end

