-- ==== Sys2Proof/Machine/Dispatch.lean ====
section
/-! DEFINITION. Every command handed to its meaning. -/

namespace Sys2Proof.Machine

open Sys2Proof

def exec (i : Instr) (s : State) : Host.Outcome State Fault Refusal :=
  match i with
  | .stitchBoundary inp => Sys2Proof.Machine.execStitchBoundary inp s
  | .commitAtRelease => Sys2Proof.Machine.execCommitAtRelease s
  | .commitWrite agent dom b => Sys2Proof.Machine.execCommitWrite agent dom b s
  | .commitWithdraw agent dom b => Sys2Proof.Machine.execCommitWithdraw agent dom b s
  | .holdSet agent dom => Sys2Proof.Machine.execHoldSet agent dom s
  | .holdClear agent dom => Sys2Proof.Machine.execHoldClear agent dom s
  | .atEnSet agent dom => Sys2Proof.Machine.execAtEnSet agent dom s
  | .shadowWrite agent dom off data => Sys2Proof.Machine.execShadowWrite agent dom off data s
  | .regWr agent dom off data => Sys2Proof.Machine.execRegWr agent dom off data s
  | .lowRegisterRead agent dom off => Sys2Proof.Machine.execLowRegisterRead agent dom off s
  | .heldRegisterMessage => Sys2Proof.Machine.execHeldRegisterMessage s
  | .syncMessage offsetNs seconds => Sys2Proof.Machine.execSyncMessage offsetNs seconds s
  | .peerDelayMessage port delayNs => Sys2Proof.Machine.execPeerDelayMessage port delayNs s
  | .syncLoss => Sys2Proof.Machine.execSyncLoss s
  | .holdoverLimitExceeded errorNs => Sys2Proof.Machine.execHoldoverLimitExceeded errorNs s
  | .ppsPulse second => Sys2Proof.Machine.execPpsPulse second s
  | .sliceAdmit kind idx start => Sys2Proof.Machine.execSliceAdmit kind idx start s
  | .overrun sid => Sys2Proof.Machine.execOverrun sid s
  | .overrunLimit e idx => Sys2Proof.Machine.execOverrunLimit e idx s
  | .admitWaitExpiry job => Sys2Proof.Machine.execAdmitWaitExpiry job s
  | .search dom ring => Sys2Proof.Machine.execSearch dom ring s
  | .abort dom ring => Sys2Proof.Machine.execAbort dom ring s
  | .routeWalk sid => Sys2Proof.Machine.execRouteWalk sid s
  | .tableBuild sid => Sys2Proof.Machine.execTableBuild sid s
  | .escalatedRebuild sid => Sys2Proof.Machine.execEscalatedRebuild sid s
  | .probeHold coll part => Sys2Proof.Machine.execProbeHold coll part s
  | .sketchPass sid => Sys2Proof.Machine.execSketchPass sid s
  | .codePass sid => Sys2Proof.Machine.execCodePass sid s
  | .sideSlice sid => Sys2Proof.Machine.execSideSlice sid s
  | .localSelect sid => Sys2Proof.Machine.execLocalSelect sid s
  | .rerankReadIssue job => Sys2Proof.Machine.execRerankReadIssue job s
  | .planeRead job cand channel step retries => Sys2Proof.Machine.execPlaneRead job cand channel step retries s
  | .thresholdAdjust channel lun bin up => Sys2Proof.Machine.execThresholdAdjust channel lun bin up s
  | .rerank sid => Sys2Proof.Machine.execRerank sid s
  | .shareRequest src req => Sys2Proof.Machine.execShareRequest src req s
  | .partialMsg msg => Sys2Proof.Machine.execPartialMsg msg s
  | .fanInMerge sid => Sys2Proof.Machine.execFanInMerge sid s
  | .shareWaitTimeout lookup n => Sys2Proof.Machine.execShareWaitTimeout lookup n s
  | .insert dom ring => Sys2Proof.Machine.execInsert dom ring s
  | .delete dom ring => Sys2Proof.Machine.execDelete dom ring s
  | .insertEncode sid => Sys2Proof.Machine.execInsertEncode sid s
  | .batchCommit => Sys2Proof.Machine.execBatchCommit s
  | .compact dom ring => Sys2Proof.Machine.execCompact dom ring s
  | .mainFold sid => Sys2Proof.Machine.execMainFold sid s
  | .sideFold sid => Sys2Proof.Machine.execSideFold sid s
  | .layoutSwap job => Sys2Proof.Machine.execLayoutSwap job s
  | .layoutRelease coll part => Sys2Proof.Machine.execLayoutRelease coll part s
  | .version dom ring => Sys2Proof.Machine.execVersion dom ring s
  | .versionCurrent coll => Sys2Proof.Machine.execVersionCurrent coll s
  | .slotRelease coll => Sys2Proof.Machine.execSlotRelease coll s
  | .routeEdit dom ring => Sys2Proof.Machine.execRouteEdit dom ring s
  | .routeCopy sid => Sys2Proof.Machine.execRouteCopy sid s
  | .gemm dom ring => Sys2Proof.Machine.execGemm dom ring s
  | .elementWiseMap dom ring => Sys2Proof.Machine.execElementWiseMap dom ring s
  | .rowReduction dom ring => Sys2Proof.Machine.execRowReduction dom ring s
  | .gemmSlice sid => Sys2Proof.Machine.execGemmSlice sid s
  | .vectorSlice sid => Sys2Proof.Machine.execVectorSlice sid s
  | .attend dom ring => Sys2Proof.Machine.execAttend dom ring s
  | .kvProjection sid => Sys2Proof.Machine.execKvProjection sid s
  | .rotateAndWrite sid => Sys2Proof.Machine.execRotateAndWrite sid s
  | .fusedAttention sid => Sys2Proof.Machine.execFusedAttention sid s
  | .combine sid => Sys2Proof.Machine.execCombine sid s
  | .attnMerge dom ring => Sys2Proof.Machine.execAttnMerge dom ring s
  | .attnPartial mergeSlot msg => Sys2Proof.Machine.execAttnPartial mergeSlot msg s
  | .merge sid => Sys2Proof.Machine.execMerge sid s
  | .skiveReread page block ok => Sys2Proof.Machine.execSkiveReread page block ok s
  | .lookup dom ring => Sys2Proof.Machine.execLookup dom ring s
  | .sortByOwner sid => Sys2Proof.Machine.execSortByOwner sid s
  | .lookupShare src req => Sys2Proof.Machine.execLookupShare src req s
  | .pooling sid => Sys2Proof.Machine.execPooling sid s
  | .lookupPartial msg => Sys2Proof.Machine.execLookupPartial msg s
  | .lookupCombine sid => Sys2Proof.Machine.execLookupCombine sid s
  | .embUpdate dom ring => Sys2Proof.Machine.execEmbUpdate dom ring s
  | .gradientRow src table step row g => Sys2Proof.Machine.execGradientRow src table step row g s
  | .stepClose dom ring => Sys2Proof.Machine.execStepClose dom ring s
  | .stepCloseAt table => Sys2Proof.Machine.execStepCloseAt table s
  | .sealSend table => Sys2Proof.Machine.execSealSend table s
  | .sealMsg src table step => Sys2Proof.Machine.execSealMsg src table step s
  | .stepApply sid => Sys2Proof.Machine.execStepApply sid s
  | .hotSet dom ring => Sys2Proof.Machine.execHotSet dom ring s
  | .hotRefresh table => Sys2Proof.Machine.execHotRefresh table s
  | .embVersion dom ring => Sys2Proof.Machine.execEmbVersion dom ring s
  | .embSwap table => Sys2Proof.Machine.execEmbSwap table s
  | .nbPooling sid => Sys2Proof.Machine.execNbPooling sid s
  | .nbApply sid => Sys2Proof.Machine.execNbApply sid s
  | .nbRun dom ring => Sys2Proof.Machine.execNbRun dom ring s
  | .nbRunSlice sid => Sys2Proof.Machine.execNbRunSlice sid s
  | .nop k u => Sys2Proof.Machine.execNop k u s
  | .endI k u => Sys2Proof.Machine.execEndI k u s
  | .set k u => Sys2Proof.Machine.execSet k u s
  | .ldw k u => Sys2Proof.Machine.execLdw k u s
  | .lde k u => Sys2Proof.Machine.execLde k u s
  | .ld k u err => Sys2Proof.Machine.execLd k u err s
  | .st k u => Sys2Proof.Machine.execSt k u s
  | .add k u => Sys2Proof.Machine.execAdd k u s
  | .mul k u => Sys2Proof.Machine.execMul k u s
  | .fma k u => Sys2Proof.Machine.execFma k u s
  | .act k u => Sys2Proof.Machine.execAct k u s
  | .lacc k u err => Sys2Proof.Machine.execLacc k u err s
  | .loop k u => Sys2Proof.Machine.execLoop k u s
  | .br k u => Sys2Proof.Machine.execBr k u s
  | .laceBeat k u train vals poison => Sys2Proof.Machine.execLaceBeat k u train vals poison s
  | .bankRefresh k u => Sys2Proof.Machine.execBankRefresh k u s
  | .forcedPreemption k u => Sys2Proof.Machine.execForcedPreemption k u s
  | .migration => Sys2Proof.Machine.execMigration s
  | .pageLanded page badSectors => Sys2Proof.Machine.execPageLanded page badSectors s
  | .writebackDurable page => Sys2Proof.Machine.execWritebackDurable page s
  | .wbFlush sector => Sys2Proof.Machine.execWbFlush sector s
  | .willneed dom ring => Sys2Proof.Machine.execWillneed dom ring s
  | .cold dom ring => Sys2Proof.Machine.execCold dom ring s
  | .pin dom ring => Sys2Proof.Machine.execPin dom ring s
  | .unpin dom ring => Sys2Proof.Machine.execUnpin dom ring s
  | .sync dom ring => Sys2Proof.Machine.execSync dom ring s
  | .discard dom ring => Sys2Proof.Machine.execDiscard dom ring s
  | .setHint dom ring => Sys2Proof.Machine.execSetHint dom ring s
  | .journalRead dom ring => Sys2Proof.Machine.execJournalRead dom ring s
  | .journalFlush => Sys2Proof.Machine.execJournalFlush s
  | .runDurable run sb => Sys2Proof.Machine.execRunDurable run sb s
  | .parityDelta src msg => Sys2Proof.Machine.execParityDelta src msg s
  | .superblockVerify sb weak rebuilt => Sys2Proof.Machine.execSuperblockVerify sb weak rebuilt s
  | .garbageCollection shank => Sys2Proof.Machine.execGarbageCollection shank s
  | .wearLevelling shank => Sys2Proof.Machine.execWearLevelling shank s
  | .readDisturb sb => Sys2Proof.Machine.execReadDisturb sb s
  | .patrolRead sb soft => Sys2Proof.Machine.execPatrolRead sb soft s
  | .programFail sb channel erase => Sys2Proof.Machine.execProgramFail sb channel erase s
  | .mapRebuild sbTotal userGb => Sys2Proof.Machine.execMapRebuild sbTotal userGb s
  | .setReady set torn bad => Sys2Proof.Machine.execSetReady set torn bad s
  | .rdShared agent txn line dom dirErr => Sys2Proof.Machine.execRdShared agent txn line dom dirErr s
  | .rdOwn agent txn line dom dirErr => Sys2Proof.Machine.execRdOwn agent txn line dom dirErr s
  | .rdOnce agent txn line dom => Sys2Proof.Machine.execRdOnce agent txn line dom s
  | .wrInv agent txn line dom data => Sys2Proof.Machine.execWrInv agent txn line dom data s
  | .wrPtl agent txn line dom mask data => Sys2Proof.Machine.execWrPtl agent txn line dom mask data s
  | .wrBack agent txn line dom data poison => Sys2Proof.Machine.execWrBack agent txn line dom data poison s
  | .evict agent txn line dom => Sys2Proof.Machine.execEvict agent txn line dom s
  | .wrHint agent txn line dom target data => Sys2Proof.Machine.execWrHint agent txn line dom target data s
  | .rspI agent line attempt => Sys2Proof.Machine.execRspI agent line attempt s
  | .rspS agent line attempt => Sys2Proof.Machine.execRspS agent line attempt s
  | .rspFwd agent line attempt data poison => Sys2Proof.Machine.execRspFwd agent line attempt data poison s
  | .rspDirty agent line attempt data poison => Sys2Proof.Machine.execRspDirty agent line attempt data poison s
  | .rspDecline agent line attempt => Sys2Proof.Machine.execRspDecline agent line attempt s
  | .snoopLate agent line => Sys2Proof.Machine.execSnoopLate agent line s
  | .agentKill agent dom target => Sys2Proof.Machine.execAgentKill agent dom target s
  | .agentRevive agent dom target => Sys2Proof.Machine.execAgentRevive agent dom target s
  | .reclaimWalkEnd => Sys2Proof.Machine.execReclaimWalkEnd s
  | .ringWatchRead dom ring => Sys2Proof.Machine.execRingWatchRead dom ring s
  | .linkTraining => Sys2Proof.Machine.execLinkTraining s
  | .linkTrained wide => Sys2Proof.Machine.execLinkTrained wide s
  | .retrainTimeout => Sys2Proof.Machine.execRetrainTimeout s
  | .partnerLoss => Sys2Proof.Machine.execPartnerLoss s
  | .flitReplay => Sys2Proof.Machine.execFlitReplay s
  | .laneFault lane => Sys2Proof.Machine.execLaneFault lane s
  | .portUp port => Sys2Proof.Machine.execPortUp port s
  | .portDown port => Sys2Proof.Machine.execPortDown port s
  | .fabricLaneFault port lane => Sys2Proof.Machine.execFabricLaneFault port lane s
  | .dataFrame port f => Sys2Proof.Machine.execDataFrame port f s
  | .acknowledgement dst queue msgNo idx => Sys2Proof.Machine.execAcknowledgement dst queue msgNo idx s
  | .retx dst queue msgNo idx => Sys2Proof.Machine.execRetx dst queue msgNo idx s
  | .egressSelect port t => Sys2Proof.Machine.execEgressSelect port t s
  | .gateEntry port t => Sys2Proof.Machine.execGateEntry port t s
  | .guardBand port queue t => Sys2Proof.Machine.execGuardBand port queue t s
  | .timeMessage port t bytes => Sys2Proof.Machine.execTimeMessage port t bytes s
  | .joinReq => Sys2Proof.Machine.execJoinReq s
  | .assign addr comp join => Sys2Proof.Machine.execAssign addr comp join s
  | .refuseJoin code => Sys2Proof.Machine.execRefuseJoin code s
  | .joinEpoch => Sys2Proof.Machine.execJoinEpoch s
  | .declareFailed failed epoch => Sys2Proof.Machine.execDeclareFailed failed epoch s
  | .mapWrite offset data => Sys2Proof.Machine.execMapWrite offset data s
  | .mapActivate epoch => Sys2Proof.Machine.execMapActivate epoch s
  | .mapActivation => Sys2Proof.Machine.execMapActivation s
  | .rebuild group member => Sys2Proof.Machine.execRebuild group member s
  | .rebuilt => Sys2Proof.Machine.execRebuilt s
  | .retirement kind idx => Sys2Proof.Machine.execRetirement kind idx s
  | .remapCopyDone stack => Sys2Proof.Machine.execRemapCopyDone stack s
  | .d2dLaneFault shank lane => Sys2Proof.Machine.execD2dLaneFault shank lane s
  | .scrub line stack pc outcome bytes => Sys2Proof.Machine.execScrub line stack pc outcome bytes s
  | .awlSlice sid pass => Sys2Proof.Machine.execAwlSlice sid pass s
  | .eyeMeasurement wymer lane mv mui => Sys2Proof.Machine.execEyeMeasurement wymer lane mv mui s
  | .opticalPoll module power low => Sys2Proof.Machine.execOpticalPoll module power low s
  | .droop => Sys2Proof.Machine.execDroop s
  | .wedged kind idx => Sys2Proof.Machine.execWedged kind idx s
  | .pldmResend => Sys2Proof.Machine.execPldmResend s
  | .nodeReset pulseNs => Sys2Proof.Machine.execNodeReset pulseNs s
  | .resetRelease => Sys2Proof.Machine.execResetRelease s
  | .trainingDone d2dOk channels => Sys2Proof.Machine.execTrainingDone d2dOk channels s
  | .bistWave w => Sys2Proof.Machine.execBistWave w s
  | .waveSplit powerW => Sys2Proof.Machine.execWaveSplit powerW s
  | .retestWave block pass => Sys2Proof.Machine.execRetestWave block pass s
  | .halfSole1 => Sys2Proof.Machine.execHalfSole1 s
  | .halfSole2 => Sys2Proof.Machine.execHalfSole2 s
  | .full => Sys2Proof.Machine.execFull s
  | .modEnAssert => Sys2Proof.Machine.execModEnAssert s
  | .rampDone => Sys2Proof.Machine.execRampDone s
  | .modEnDeassert => Sys2Proof.Machine.execModEnDeassert s
  | .railOutOfBand => Sys2Proof.Machine.execRailOutOfBand s
  | .inputUndervoltage ns => Sys2Proof.Machine.execInputUndervoltage ns s
  | .hardwareThermalShutdown dieC stackC => Sys2Proof.Machine.execHardwareThermalShutdown dieC stackC s
  | .attestReady => Sys2Proof.Machine.execAttestReady s
  | .getInfo => Sys2Proof.Machine.execGetInfo s
  | .slotWrite => Sys2Proof.Machine.execSlotWrite s
  | .slotTry => Sys2Proof.Machine.execSlotTry s
  | .retireRead => Sys2Proof.Machine.execRetireRead s
  | .retireClear => Sys2Proof.Machine.execRetireClear s
  | .keyGen => Sys2Proof.Machine.execKeyGen s
  | .keyImport => Sys2Proof.Machine.execKeyImport s
  | .keyLoad => Sys2Proof.Machine.execKeyLoad s
  | .keyErase => Sys2Proof.Machine.execKeyErase s
  | .imageKeyProvision => Sys2Proof.Machine.execImageKeyProvision s
  | .imageKeyRevoke => Sys2Proof.Machine.execImageKeyRevoke s
  | .secFloorRaise => Sys2Proof.Machine.execSecFloorRaise s
  | .attest sinceS => Sys2Proof.Machine.execAttest sinceS s
  | .attestCertCmd => Sys2Proof.Machine.execAttestCertCmd s
  | .portTraining port => Sys2Proof.Machine.execPortTraining port s
  | .reconstructionCopy src addr units => Sys2Proof.Machine.execReconstructionCopy src addr units s
  | .journalTransfer src vectors => Sys2Proof.Machine.execJournalTransfer src vectors s
  | .dropReport table step row => Sys2Proof.Machine.execDropReport table step row s
  | .hotRowFetch table slot row data => Sys2Proof.Machine.execHotRowFetch table slot row data s
  | .eventAcknowledgement seq => Sys2Proof.Machine.execEventAcknowledgement seq s
  | .mctpMessage viaSmbus mtype body => Sys2Proof.Machine.execMctpMessage viaSmbus mtype body s
  | .managementPortDown down => Sys2Proof.Machine.execManagementPortDown down s

end Sys2Proof.Machine
end

