-- ==== Sys2Proof/Safety.lean ====
section
/-! DEFINITION. What a safe run is: every stored map in its canonical form, and no step that stops. -/

namespace Sys2Proof.Machine

open Sys2Proof

/-- The maps of registers, memory, rings, pages, collections and partitions, and of what is durable in flash, are in
canonical form, so that equal contents are equal data. -/
def State.canonical (s : State) : Bool :=
  SMap.wf resetWord s.regs && SMap.wf latchDefault s.latches && Memory.wf s.mem && SMap.wf ringDefault s.rings &&
    SMap.wf collDefault s.colls && SMap.wf partDefault s.parts && SMap.wf pageDefault s.pages &&
    SMap.wf byteDefault s.flash.dur && SMap.wf poisonDefault s.flash.durPoison

/-- The command has an effect (or waits for its trigger): neither a fault nor a refusal. -/
def Completes (c : Instr) (s : State) : Prop := ∃ t, exec c s = .next t

/-- A step that goes on, into a canonical state. -/
def SafeStep (s : State) : Prop := ∃ t, step s = .next t ∧ t.canonical = true

/-- A register message is served at once, and allowed (R520-R522): the link is up, the agent lives, no boundary window and no
message held before it; D0, an aligned offset, a CACHING or PRIVILEGED agent. -/
def State.serves (s : State) (m : RegMsg) : Prop :=
  s.running = true ∧ s.linkUp = true ∧ s.live m.agent = true ∧ m.agent < 128 ∧ s.inWindow = false ∧ s.heldMsgs = [] ∧ s.regAllowed m = true

/-- What the job of a number works on, while it is in flight. -/
def State.work? (s : State) (id : Nat) : Option Work := (s.job? id).map (fun j => j.work)

end Sys2Proof.Machine
end

