-- ==== Sys2Proof/Terms.lean ====
section
/-! DEFINITION. Terms that statements use for what commands leave. -/

namespace Sys2Proof.Machine

open Sys2Proof

/-- The areas of the state, one for each field. -/
inductive Area where
  | pending | freshCount | power | time | regs | latches | heldMsgs | linkOut | mem | rings | sched | colls | parts | pages | ras | boot | fabric | flash | link | attn | emb | nb
  deriving DecidableEq, Repr

/-! Families of commands, and what each command may write. -/

/-- The families of the table's rows. -/
inductive Family where
  | register | time | slices | search | update | engine | attention | embedding | nearBank | unit | tiers | coherence | link | fabric | faults | start | power | mailbox
  deriving DecidableEq, Repr

/-- The family of a command. -/
def famOf : Instr → Family
  | .commitWrite _ _ _ | .commitWithdraw _ _ _ | .holdSet _ _ | .holdClear _ _ | .atEnSet _ _ | .shadowWrite _ _ _ _
  | .regWr _ _ _ _ | .lowRegisterRead _ _ _ | .heldRegisterMessage | .commitAtRelease => .register
  | .stitchBoundary _ | .syncMessage _ _ | .peerDelayMessage _ _ | .syncLoss | .holdoverLimitExceeded _ | .ppsPulse _ => .time
  | .sliceAdmit _ _ _ | .overrun _ | .overrunLimit _ _ | .admitWaitExpiry _ => .slices
  | .search _ _ | .abort _ _ | .routeWalk _ | .tableBuild _ | .escalatedRebuild _ | .probeHold _ _ | .sketchPass _ | .codePass _
  | .sideSlice _ | .localSelect _ | .rerankReadIssue _ | .planeRead _ _ _ _ _ | .thresholdAdjust _ _ _ _ | .rerank _
  | .shareRequest _ _ | .partialMsg _ | .fanInMerge _ | .shareWaitTimeout _ _ => .search
  | .insert _ _ | .delete _ _ | .insertEncode _ | .batchCommit | .compact _ _ | .mainFold _ | .sideFold _ | .layoutSwap _
  | .layoutRelease _ _ | .version _ _ | .versionCurrent _ | .slotRelease _ | .routeEdit _ _ | .routeCopy _ => .update
  | .gemm _ _ | .elementWiseMap _ _ | .rowReduction _ _ | .gemmSlice _ | .vectorSlice _ => .engine
  | .attend _ _ | .kvProjection _ | .rotateAndWrite _ | .fusedAttention _ | .combine _ | .attnMerge _ _ | .attnPartial _ _
  | .merge _ | .skiveReread _ _ _ => .attention
  | .lookup _ _ | .sortByOwner _ | .lookupShare _ _ | .pooling _ | .lookupPartial _ | .lookupCombine _ | .embUpdate _ _
  | .gradientRow _ _ _ _ _ | .stepClose _ _ | .stepCloseAt _ | .sealSend _ | .sealMsg _ _ _ | .stepApply _ | .hotSet _ _
  | .hotRefresh _ | .embVersion _ _ | .embSwap _ | .dropReport _ _ _ | .hotRowFetch _ _ _ _ => .embedding
  | .nbPooling _ | .nbApply _ | .nbRun _ _ | .nbRunSlice _ => .nearBank
  | .nop _ _ | .endI _ _ | .set _ _ | .ldw _ _ | .lde _ _ | .ld _ _ _ | .st _ _ | .add _ _ | .mul _ _ | .fma _ _ | .act _ _
  | .lacc _ _ _ | .loop _ _ | .br _ _ | .laceBeat _ _ _ _ _ | .bankRefresh _ _ | .forcedPreemption _ _ => .unit
  | .migration | .pageLanded _ _ | .writebackDurable _ | .wbFlush _ | .willneed _ _ | .cold _ _ | .pin _ _ | .unpin _ _
  | .sync _ _ | .discard _ _ | .setHint _ _ | .journalRead _ _ | .journalFlush | .runDurable _ _ | .parityDelta _ _
  | .superblockVerify _ _ _ | .garbageCollection _ | .wearLevelling _ | .readDisturb _ | .patrolRead _ _ | .programFail _ _ _
  | .mapRebuild _ _ | .setReady _ _ _ | .reconstructionCopy _ _ _ | .journalTransfer _ _ => .tiers
  | .rdShared _ _ _ _ _ | .rdOwn _ _ _ _ _ | .rdOnce _ _ _ _ | .wrInv _ _ _ _ _ | .wrPtl _ _ _ _ _ _ | .wrBack _ _ _ _ _ _
  | .evict _ _ _ _ | .wrHint _ _ _ _ _ _ | .rspI _ _ _ | .rspS _ _ _ | .rspFwd _ _ _ _ _ | .rspDirty _ _ _ _ _
  | .rspDecline _ _ _ | .snoopLate _ _ | .agentKill _ _ _ | .agentRevive _ _ _ | .reclaimWalkEnd | .ringWatchRead _ _ => .coherence
  | .linkTraining | .linkTrained _ | .retrainTimeout | .partnerLoss | .flitReplay | .laneFault _ => .link
  | .portUp _ | .portDown _ | .portTraining _ | .fabricLaneFault _ _ | .dataFrame _ _ | .acknowledgement _ _ _ _ | .retx _ _ _ _
  | .egressSelect _ _ | .gateEntry _ _ | .guardBand _ _ _ | .timeMessage _ _ _ | .joinReq | .assign _ _ _ | .refuseJoin _
  | .joinEpoch | .declareFailed _ _ | .mapWrite _ _ | .mapActivate _ | .mapActivation | .rebuild _ _ | .rebuilt => .fabric
  | .retirement _ _ | .remapCopyDone _ | .d2dLaneFault _ _ | .scrub _ _ _ _ _ | .awlSlice _ _ | .eyeMeasurement _ _ _ _
  | .opticalPoll _ _ _ | .droop | .wedged _ _ | .pldmResend | .eventAcknowledgement _ | .mctpMessage _ _ _
  | .managementPortDown _ => .faults
  | .nodeReset _ | .resetRelease | .trainingDone _ _ | .bistWave _ | .waveSplit _ | .retestWave _ _ | .halfSole1 | .halfSole2
  | .full => .start
  | .modEnAssert | .rampDone | .modEnDeassert | .railOutOfBand | .inputUndervoltage _ | .hardwareThermalShutdown _ _ => .power
  | .attestReady | .getInfo | .slotWrite | .slotTry | .retireRead | .retireClear | .keyGen | .keyImport | .keyLoad | .keyErase
  | .imageKeyProvision | .imageKeyRevoke | .secFloorRaise | .attest _ | .attestCertCmd => .mailbox

/-- The areas of the state that a command may write; every other area it leaves as it was. -/
def writesOf : Instr → List Area
  | .stitchBoundary _
    => [.freshCount, .power, .time, .regs, .linkOut, .mem, .rings, .sched, .colls, .parts, .pages, .ras, .boot, .fabric, .flash, .link, .attn, .emb, .nb]
  | .commitAtRelease
    => [.regs, .linkOut, .mem, .pages, .fabric, .flash, .link]
  | .commitWrite _ _ _ | .commitWithdraw _ _ _ | .holdSet _ _ | .holdClear _ _ | .atEnSet _ _ | .shadowWrite _ _ _ _
  | .regWr _ _ _ _ | .lowRegisterRead _ _ _ | .agentKill _ _ _ | .agentRevive _ _ _
    => [.freshCount, .regs, .latches, .heldMsgs, .linkOut, .mem, .pages, .ras, .flash, .link, .nb]
  | .heldRegisterMessage
    => [.freshCount, .time, .regs, .latches, .heldMsgs, .linkOut, .mem, .pages, .ras, .flash, .link, .nb]
  | .syncMessage _ _ | .holdoverLimitExceeded _
    => [.time, .regs]
  | .peerDelayMessage _ _
    => [.time]
  | .syncLoss | .linkTraining | .flitReplay | .droop | .waveSplit _ | .attestReady | .getInfo | .retireRead | .imageKeyRevoke
  | .secFloorRaise | .attestCertCmd
    => [.regs]
  | .ppsPulse _
    => [.power, .time]
  | .sliceAdmit _ _ _ | .joinEpoch
    => [.freshCount, .time, .regs, .linkOut, .mem, .rings, .sched, .colls, .pages, .ras, .fabric, .flash, .link, .emb, .nb]
  | .overrun _
    => [.freshCount, .time, .regs, .linkOut, .mem, .sched, .pages, .ras, .flash, .link, .nb]
  | .overrunLimit _ _ | .d2dLaneFault _ _ | .eyeMeasurement _ _ _ _ | .opticalPoll _ _ _ | .retireClear
    => [.regs, .ras]
  | .admitWaitExpiry _
    => [.freshCount, .regs, .linkOut, .mem, .rings, .sched, .colls, .pages, .ras, .fabric, .flash, .link, .emb, .nb]
  | .search _ _ | .abort _ _ | .insert _ _ | .delete _ _ | .compact _ _ | .version _ _ | .routeEdit _ _ | .gemm _ _
  | .elementWiseMap _ _ | .rowReduction _ _ | .attend _ _ | .attnMerge _ _ | .lookup _ _ | .embUpdate _ _ | .stepClose _ _
  | .hotSet _ _ | .embVersion _ _ | .nbRun _ _ | .willneed _ _ | .cold _ _ | .pin _ _ | .unpin _ _ | .sync _ _ | .discard _ _
  | .setHint _ _ | .journalRead _ _ | .ringWatchRead _ _
    => [.freshCount, .regs, .linkOut, .mem, .rings, .sched, .colls, .parts, .pages, .ras, .fabric, .flash, .link, .emb, .nb]
  | .routeWalk _ | .combine _ | .runDurable _ _
    => [.freshCount, .regs, .linkOut, .mem, .rings, .sched, .pages, .ras, .fabric, .flash, .link, .nb]
  | .tableBuild _ | .escalatedRebuild _ | .rerank _ | .kvProjection _ | .fusedAttention _
    => [.freshCount, .regs, .sched, .flash]
  | .probeHold _ _ | .rerankReadIssue _ | .dropReport _ _ _
    => [.sched]
  | .sketchPass _ | .codePass _ | .sideSlice _
    => [.regs, .sched, .flash]
  | .localSelect _ | .fanInMerge _ | .rotateAndWrite _ | .acknowledgement _ _ _ _
    => [.regs, .linkOut, .mem, .rings, .sched, .pages, .ras, .fabric, .flash, .link, .nb]
  | .planeRead _ _ _ _ _
    => [.regs, .mem, .sched, .ras, .flash]
  | .thresholdAdjust _ _ _ _ | .journalFlush
    => [.flash]
  | .shareRequest _ _
    => [.freshCount, .regs, .sched, .ras, .fabric]
  | .partialMsg _
    => [.regs, .sched, .fabric]
  | .shareWaitTimeout _ _
    => [.freshCount, .regs, .sched, .ras, .fabric, .emb]
  | .insertEncode _ | .routeCopy _ | .nbPooling _
    => [.freshCount, .regs, .linkOut, .mem, .sched, .pages, .ras, .flash, .link, .nb]
  | .batchCommit
    => [.freshCount, .regs, .linkOut, .mem, .rings, .sched, .parts, .pages, .ras, .flash, .link, .nb]
  | .mainFold _ | .sideFold _ | .wbFlush _
    => [.regs, .linkOut, .mem, .sched, .pages, .ras, .flash, .link, .nb]
  | .layoutSwap _
    => [.regs, .linkOut, .mem, .rings, .sched, .parts, .pages, .ras, .flash, .link, .nb]
  | .layoutRelease _ _
    => [.regs, .linkOut, .mem, .rings, .parts, .pages, .ras, .flash, .link, .nb]
  | .versionCurrent _
    => [.regs, .linkOut, .mem, .rings, .sched, .colls, .pages, .ras, .flash, .link, .nb]
  | .slotRelease _
    => [.regs, .linkOut, .mem, .rings, .colls, .pages, .ras, .flash, .link, .nb]
  | .gemmSlice _ | .vectorSlice _ | .merge _ | .lookupCombine _ | .nbRunSlice _
    => [.freshCount, .regs, .linkOut, .mem, .rings, .sched, .pages, .ras, .flash, .link, .nb]
  | .attnPartial _ _
    => [.regs, .sched]
  | .skiveReread _ _ _
    => [.regs, .mem, .ras, .flash]
  | .sortByOwner _ | .declareFailed _ _
    => [.regs, .linkOut, .mem, .rings, .sched, .pages, .ras, .fabric, .flash, .link, .emb, .nb]
  | .lookupShare _ _ | .lookupPartial _
    => [.regs, .sched, .fabric, .emb]
  | .pooling _
    => [.freshCount, .regs, .sched, .ras, .fabric, .flash, .emb]
  | .gradientRow _ _ _ _ _ | .hotRefresh _
    => [.regs, .fabric, .emb]
  | .stepCloseAt _
    => [.freshCount, .regs, .linkOut, .mem, .rings, .sched, .pages, .ras, .flash, .link, .emb, .nb]
  | .sealSend _
    => [.fabric, .emb]
  | .sealMsg _ _ _ | .hotRowFetch _ _ _ _
    => [.regs, .emb]
  | .stepApply _ | .embSwap _ | .nbApply _
    => [.regs, .linkOut, .mem, .rings, .sched, .pages, .ras, .flash, .link, .emb, .nb]
  | .nop _ _ | .set _ _ | .ldw _ _ | .lde _ _ | .ld _ _ _ | .add _ _ | .mul _ _ | .fma _ _ | .act _ _ | .lacc _ _ _ | .loop _ _
  | .br _ _ | .bankRefresh _ _
    => [.regs, .mem, .nb]
  | .endI _ _ | .st _ _
    => [.freshCount, .regs, .mem, .nb]
  | .laceBeat _ _ _ _ _
    => [.nb]
  | .forcedPreemption _ _
    => [.regs, .nb]
  | .migration
    => [.freshCount, .regs, .linkOut, .mem, .pages, .ras, .flash, .link]
  | .pageLanded _ _
    => [.regs, .mem, .pages, .ras, .flash]
  | .writebackDurable _
    => [.regs, .mem, .pages]
  | .parityDelta _ _ | .reconstructionCopy _ _ _
    => [.regs, .linkOut, .mem, .pages, .ras, .fabric, .flash, .link, .nb]
  | .superblockVerify _ _ _ | .wearLevelling _ | .readDisturb _ | .patrolRead _ _
    => [.regs, .fabric, .flash]
  | .garbageCollection _
    => [.freshCount, .regs, .fabric, .flash]
  | .programFail _ _ _ | .portUp _ | .portDown _ | .dataFrame _ _ | .retx _ _ _ _ | .egressSelect _ _ | .gateEntry _ _
  | .guardBand _ _ _ | .assign _ _ _ | .mapActivation | .portTraining _
    => [.regs, .fabric]
  | .mapRebuild _ _
    => [.regs, .boot, .flash]
  | .setReady _ _ _ | .journalTransfer _ _
    => [.regs, .linkOut, .mem, .pages, .ras, .flash, .link, .nb]
  | .rdShared _ _ _ _ _ | .rdOwn _ _ _ _ _ | .rdOnce _ _ _ _ | .wrInv _ _ _ _ _ | .wrPtl _ _ _ _ _ _ | .wrBack _ _ _ _ _ _
  | .evict _ _ _ _ | .wrHint _ _ _ _ _ _ | .rspI _ _ _ | .rspS _ _ _ | .rspFwd _ _ _ _ _ | .rspDirty _ _ _ _ _
  | .rspDecline _ _ _ | .snoopLate _ _ | .retrainTimeout | .partnerLoss | .laneFault _
    => [.freshCount, .regs, .linkOut, .mem, .pages, .ras, .flash, .link, .nb]
  | .reclaimWalkEnd
    => [.regs, .mem, .ras, .link]
  | .linkTrained _
    => [.regs, .linkOut, .link]
  | .fabricLaneFault _ _ | .refuseJoin _
    => [.regs, .ras, .fabric]
  | .timeMessage _ _ _ | .joinReq | .rebuild _ _ | .rebuilt
    => [.fabric]
  | .mapWrite _ _
    => [.mem, .fabric]
  | .mapActivate _
    => [.regs, .mem, .fabric]
  | .retirement _ _
    => [.freshCount, .regs, .mem, .sched, .pages, .ras, .boot, .flash]
  | .remapCopyDone _
    => [.freshCount, .regs, .pages, .ras, .flash]
  | .scrub _ _ _ _ _
    => [.regs, .mem, .ras]
  | .awlSlice _ _
    => [.regs, .sched, .ras]
  | .wedged _ _ | .pldmResend | .eventAcknowledgement _ | .managementPortDown _
    => [.ras]
  | .nodeReset _ | .modEnDeassert | .railOutOfBand | .inputUndervoltage _ | .hardwareThermalShutdown _ _
    => [.power, .time, .regs, .latches, .heldMsgs, .linkOut, .mem, .rings, .sched, .colls, .parts, .pages, .ras, .boot, .fabric, .flash, .link, .attn, .emb, .nb]
  | .resetRelease | .rampDone
    => [.power, .time, .regs, .boot, .fabric]
  | .trainingDone _ _ | .bistWave _
    => [.time, .regs, .ras, .boot, .fabric]
  | .retestWave _ _
    => [.regs, .ras, .boot]
  | .halfSole1 | .halfSole2 | .full
    => [.regs, .boot, .fabric]
  | .modEnAssert
    => [.power]
  | .slotWrite | .slotTry | .keyGen | .keyImport | .keyLoad | .keyErase | .imageKeyProvision | .attest _
    => [.regs, .boot]
  | .mctpMessage _ _ _
    => [.freshCount, .ras]

/-- An area of the state is the same in both. -/
def Area.same (s t : State) : Area → Prop
  | .pending => t.pending = s.pending
  | .freshCount => t.freshCount = s.freshCount
  | .power => t.power = s.power
  | .time => t.time = s.time
  | .regs => t.regs = s.regs
  | .latches => t.latches = s.latches
  | .heldMsgs => t.heldMsgs = s.heldMsgs
  | .linkOut => t.linkOut = s.linkOut
  | .mem => t.mem = s.mem
  | .rings => t.rings = s.rings
  | .sched => t.sched = s.sched
  | .colls => t.colls = s.colls
  | .parts => t.parts = s.parts
  | .pages => t.pages = s.pages
  | .ras => t.ras = s.ras
  | .boot => t.boot = s.boot
  | .fabric => t.fabric = s.fabric
  | .flash => t.flash = s.flash
  | .link => t.link = s.link
  | .attn => t.attn = s.attn
  | .emb => t.emb = s.emb
  | .nb => t.nb = s.nb

/-- Two fields share no bit. -/
abbrev Fld.apart (f g : Fld) : Prop := g.addr ≠ f.addr ∨ g.lo + g.width ≤ f.lo ∨ f.lo + f.width ≤ g.lo

/-- Rows of one register that share no bit and lie within it. -/
def rowsApart (l : List Row) : Bool :=
  match l with
  | [] => true
  | r :: t => decide (r.lo + r.width ≤ 32) && t.all (fun q => decide (r.lo + r.width ≤ q.lo) || decide (q.lo + q.width ≤ r.lo)) && rowsApart t

/-- The store after the next `n` candidates are reranked. -/
def State.reranked (u : State) (q : Query) (n : Nat) : List Cand :=
  (List.range q.store.length).map (fun i =>
    let c := q.store.getD i ⟨0#64, 0#64, 0, 0, 0, 0, 0#32, 0#32⟩
    if decide (q.reranked ≤ i) && decide (i < q.reranked + n) then { c with dist := u.rerankDist q i c } else c)

/-- A unit that has passed a stitch point (R295): stores committed, beats released and consumed, registers copied. -/
def NbUnit.stitched (x : NbUnit) : NbUnit := { x with buf := [], sent := [], consumed := [], snap := x.regs, refreshDue := false }

/-- A unit after an instruction gave it the registers `r`: with S set it has passed a stitch point (R293, R295). -/
def NbUnit.after (x : NbUnit) (w : Nat) (r : NbRegs) : NbUnit :=
  if bitOf w 25 then ({ x with regs := r } : NbUnit).stitched else { x with regs := r }

/-- A unit whose write buffer takes a line; a 17th line passes a stitch point first (R291, R295). -/
def NbUnit.buffered (x : NbUnit) (b : NbLine) : NbUnit :=
  let y := if decide (16 ≤ x.buf.length) && !x.buf.any (fun z => z.line = b.line) then x.stitched else x
  { y with buf := y.buf.filter (fun z => z.line ≠ b.line) ++ [b] }

/-- The head descriptor of a ring carries the opcode, with a kind that `k` admits, and nothing holds it back (R12, R370-R373, R563):
the pair is on, the node admits, `n` descriptors are taken with it, their completion slots are free, and what the node reads for
them no agent holds dirty and no poison covers. -/
structure State.Offers (s : State) (d r op n : Nat) (k : Nat → Bool) : Prop where
  running : s.running = true
  on : s.ringOn d r = true
  visible : s.headVisible d r = true
  sound : s.flag (Reg.Ring.RING_FAULT d r) = false
  admits : s.admits = true
  slots : s.nodeReads ((List.range (s.visibleCount d r)).flatMap (fun i => linesOf (s.slotAddr d r i) 64)) = (s, true)
  clean : s.poisoned (s.headAddr d r) 64 = false
  opcode : fieldOf (s.w64 (s.headAddr d r)) 0 8 = op
  kind : k (fieldOf (s.w64 (s.headAddr d r)) 8 4) = true
  window : boundaryOnly op = true → s.inWindow = true
  group : s.groupLen d r = some n
  room : roomNeed op n ≤ s.compRoom d r
  reads : s.nodeReads (((List.range (max 1 n)).flatMap (fun i => s.descReads (s.words8 (s.slotAddr d r i)))).flatMap (fun z => linesOf z.1 z.2)) = (s, true)

/-- Every kind. -/
def anyKind (_ : Nat) : Bool := true

/-- `n` descriptors of a ring have been taken and `m` records posted, since `s`. -/
def State.Took (s t : State) (d r n m : Nat) : Prop :=
  (t.ring d r).workHead = ((s.ring d r).workHead + n) % 2 ^ 32 ∧ (t.ring d r).compTail = if m = 0 then (s.ring d r).compTail else ((s.ring d r).compTail + m) % 2 ^ 32

/-- A mailbox command has completed since `s` (R531, R532): MB_BUSY is 0, MB_RESULT holds the status, MB_OUT_LEN the length of the output,
MB_SEQ has risen by one, and MB_DATA holds the output as little-endian words. -/
structure State.MbDone (s t : State) (st : Status) (out : List Byte) : Prop where
  busy : t.fld Reg.Mb.MB_BUSY = 0
  result : t.fld Reg.Mb.MB_RESULT = st.code
  outLen : t.fld Reg.Mb.MB_OUT_LEN = out.length % 2 ^ 17
  seq : t.fld Reg.Mb.MB_SEQ = (s.fld Reg.Mb.MB_SEQ + 1) % 2 ^ 32
  data : ∀ i, i < cdiv out.length 4 → t.reg (0xC10000 + 4 * i) = BitVec.ofNat 32 (leNat ((out.drop (4 * i)).take 4))

/-- An event has been written to the error log since `s`, at the place LOG_HEAD named, and LOG_HEAD has moved on (R458). -/
def State.Logged (s t : State) (cls sev dom kind idx addr detail : Nat) : Prop :=
  t.fld Reg.Ras.LOG_HEAD = (s.fld Reg.Ras.LOG_HEAD + 1) % 2 ^ 32 ∧
  ∀ i, i < 8 → t.reg (0xA01000 + s.fld Reg.Ras.LOG_HEAD % 1024 * 0x20 + 4 * i) =
    BitVec.ofNat 32 ((logWords (s.fld Reg.Ras.LOG_HEAD) cls sev dom kind idx s.now addr detail).getD i 0)

end Sys2Proof.Machine
end

