-- ==== Sys2Proof/Certificates/Slice0/Obligations.lean ====
section
/-! DEFINITION. Statements for the provers. -/

open Sys2Proof

open Sys2Proof.Machine

/-- Step takes the command at the front of the queue.
For every command c, queue rest and state s, a step of s with c at the front of its queue is exec of c on s with the rest
as its queue (the queue is the block row's own, log entry 32). -/
def Obligations.StepRunsTheFront : Prop :=
  ∀ (c : Instr) (rest : List Instr) (s : State), s.pending = c :: rest → step s = exec c { s with pending := rest }

/-- A step with an empty queue is one clock cycle.
On an empty queue a step answers next with the clock a cycle on: the phase of a running node whose stitch timer runs rises
by one, nothing else changes (the model's choice, log entry 32). -/
def Obligations.IdleStepIsACycle : Prop :=
  ∀ s : State, s.pending = [] → step s = .next s.tick ∧ s.tick = if s.running && s.time.timer then { s with time := { s.time with phase := s.time.phase + 1 } } else s

/-- No command ends in a fault or a refusal.
Exec answers a next state for every command and every state: what the spec gives no effect is not among the table's rows. -/
def Obligations.EveryCommandCompletes : Prop :=
  ∀ (c : Instr) (s : State), Completes c s

/-- Every step goes on, into a state whose stored maps are canonical.
From every state whose maps of registers, latches, memory, rings, collections, partitions, pages and flash contents are
in canonical form (addresses strictly rising, no entry equal to its default), every step answers next, with a state whose
maps are canonical, so that equal contents are equal data. The canonical form is the model's own (log entry 4 for memory). -/
def Obligations.StepsKeepMapsCanonical : Prop :=
  ∀ s : State, s.canonical = true → SafeStep s

/-- The state after reset is canonical.
State.reset has every stored map in canonical form, the queue empty and NODE_RST_N held (log entry 10). -/
def Obligations.ResetIsCanonical : Prop :=
  State.reset.canonical = true ∧ State.reset.pending = [] ∧ State.reset.running = false

/-- No command touches the queue of commands.
For every command and state, the state after exec has the queue that the state before had. -/
def Obligations.CommandsLeaveTheQueue : Prop :=
  ∀ (c : Instr) (s t : State), exec c s = .next t → t.pending = s.pending

/-- The index of free values never falls.
For every command and state, the count that indexes free values (the model's own field, log entry 2) does not fall, so
that no index is taken back. -/
def Obligations.FreeValuesAreNeverDrawnTwice : Prop :=
  ∀ (c : Instr) (s t : State), exec c s = .next t → s.freshCount ≤ t.freshCount

/-- What commands of search, update and engines leave alone.
writesOf names, for each command, the areas of the state that it may write; every area that it does not name is after exec
as it was before. For every command of the search, update and engine families. No such command touches the latches, the
messages held, the module's power and pins, the stitch timer, the boot state or the KV slots. -/
def Obligations.ServiceCommandsKeepToTheirAreas : Prop :=
  ∀ (c : Instr) (s t : State), famOf c ∈ [Family.search, Family.update, Family.engine] → exec c s = .next t → ∀ a : Area, a ∉ writesOf c → a.same s t

/-- What commands of attention, embeddings and near-bank jobs leave alone.
writesOf names, for each command, the areas of the state that it may write; every area that it does not name is after exec
as it was before. For every command of the attention, embedding and near-bank job families. No such command touches the
latches, the messages held, the module's power and pins, the stitch timer, the boot state or the KV slots. -/
def Obligations.TableCommandsKeepToTheirAreas : Prop :=
  ∀ (c : Instr) (s t : State), famOf c ∈ [Family.attention, Family.embedding, Family.nearBank] → exec c s = .next t → ∀ a : Area, a ∉ writesOf c → a.same s t

/-- What instructions and events of near-bank units leave alone.
writesOf names, for each command, the areas of the state that it may write; every area that it does not name is after exec
as it was before. For every instruction and event of a near-bank unit: rings, jobs, collections, pages, flash, the link,
the fabric and the tables stay; memory stays but for instructions that may drain the write buffer. -/
def Obligations.UnitInstructionsKeepToTheirAreas : Prop :=
  ∀ (c : Instr) (s t : State), famOf c ∈ [Family.unit] → exec c s = .next t → ∀ a : Area, a ∉ writesOf c → a.same s t

/-- What register, time and slice commands leave alone.
writesOf names, for each command, the areas of the state that it may write; every area that it does not name is after exec
as it was before. For every register, time and slice control command. Register messages leave rings, jobs, collections,
partitions, boot state, KV slots and tables. -/
def Obligations.RegisterCommandsKeepToTheirAreas : Prop :=
  ∀ (c : Instr) (s t : State), famOf c ∈ [Family.register, Family.time, Family.slices] → exec c s = .next t → ∀ a : Area, a ∉ writesOf c → a.same s t

/-- What flash and coherence commands leave alone.
writesOf names, for each command, the areas of the state that it may write; every area that it does not name is after exec
as it was before. For every command of the tiers, the flash layer and coherence. Coherent messages leave jobs, rings, collections,
partitions, the fabric and the tables. -/
def Obligations.TierCommandsKeepToTheirAreas : Prop :=
  ∀ (c : Instr) (s t : State), famOf c ∈ [Family.tiers, Family.coherence] → exec c s = .next t → ∀ a : Area, a ∉ writesOf c → a.same s t

/-- What link and fabric commands leave alone.
writesOf names, for each command, the areas of the state that it may write; every area that it does not name is after exec
as it was before. For every event of the Wymer link and every fabric command. Most fabric commands leave memory, registers
of other blocks' state, jobs and flash. -/
def Obligations.LinkAndFabricCommandsKeepToTheirAreas : Prop :=
  ∀ (c : Instr) (s t : State), famOf c ∈ [Family.link, Family.fabric] → exec c s = .next t → ∀ a : Area, a ∉ writesOf c → a.same s t

/-- What fault, start-up, power and mailbox commands leave alone.
writesOf names, for each command, the areas of the state that it may write; every area that it does not name is after exec
as it was before. For every fault, start-up, power and mailbox command. Mailbox commands leave memory, jobs, rings, flash,
the fabric and the tables. -/
def Obligations.ModuleCommandsKeepToTheirAreas : Prop :=
  ∀ (c : Instr) (s t : State), famOf c ∈ [Family.faults, Family.start, Family.power, Family.mailbox] → exec c s = .next t → ∀ a : Area, a ∉ writesOf c → a.same s t

/-- A store of the node is read back, and leaves every other byte.
When every page of the range can take a frame, no near-bank window holds the range and no agent holds a copy of its lines,
the bytes that the node stores are what memory then reads at their addresses, and every byte outside the range is as before. -/
def Obligations.StoresReadBack : Prop :=
  ∀ (s : State) (a : Nat) (data : List Byte) (dom : Nat), s.noRoom a data.length = false → s.nbWindow a data.length = false →
    (∀ l ∈ linesOf a data.length, s.dir l = {}) →
    ∀ b, (s.store a data dom).byte b = if a ≤ b ∧ b < a + data.length then data.getD (b - a) 0#8 else s.byte b

/-- An NPROBE beyond PART_COUNT acts as PART_COUNT, a SKETCH_MAX beyond 256 as 256.
The query that a SEARCH starts is the one it would start with NPROBE = PART_COUNT where NPROBE is larger, and the one it
would start with SKETCH_MAX = 256 where SKETCH_MAX is above 256. -/
def Obligations.SearchLimitsAct : Prop :=
  (∀ (s : State) (x : SearchDesc) (c t : Nat), s.partCount x.coll < x.nprobe → s.newQuery x c t = s.newQuery { x with nprobe := s.partCount x.coll } c t) ∧
  ∀ (s : State) (x : SearchDesc) (c t : Nat), 256 < x.sketchMax → s.newQuery x c t = s.newQuery { x with sketchMax := 256 } c t

/-- A port that enters UP starts its credits and deficits.
PORT_UP of a port in TRAINING: the port is UP; each queue with SHAPE_EN 1 has the credit BURST_B when RESET_FULL is 1 and
0 otherwise, each deficit is 0; a queue with SHAPE_EN 0 has no credit and its CREDIT reads 0. -/
def Obligations.PortsStartTheirCredits : Prop :=
  ∀ (s : State) (p : Nat), s.running = true → p < 8 → s.portState p = 1 →
    ∃ t, exec (.portUp p) s = .next t ∧ t.portState p = 2 ∧ (t.egress p).deficit = [0, 0, 0, 0, 0] ∧ ∀ q, q < 8 →
      (t.egress p).credit[q]? = some (if s.flag (Reg.Egress.SHAPE_EN p q) = true ∧ s.flag (Reg.Egress.RESET_FULL p q) = true
        then creditByte * (s.fld (Reg.Egress.BURST_B p q) : Int) else 0) ∧
      (s.flag (Reg.Egress.SHAPE_EN p q) = false → t.creditRead p q = 0)

/-- A served D0 write of COMMIT, HOLD or AT_EN sets or clears the bit.
Under the conditions named, exec of each command answers next, with a state in which the command's own effect has happened.
COMMIT_WRITE leaves COMMIT of the block 1. COMMIT_WITHDRAW leaves COMMIT of the block 0. HOLD_SET leaves HOLD 1. HOLD_CLEAR
leaves HOLD 0. AT_EN_SET leaves AT_EN 1. -/
def Obligations.ControlBitsAreWritten : Prop :=
  (∀ (s : State) (agent dom : Nat) (b : Blk),
    blkOk b = true →
    s.serves ⟨agent, dom, blkCommitReg b, true, s.ctrlData b 0 true⟩ →
    ∃ t, exec (.commitWrite agent dom b) s = .next t ∧ t.fld (blkCommit b) = 1) ∧
  (∀ (s : State) (agent dom : Nat) (b : Blk),
    blkOk b = true →
    s.serves ⟨agent, dom, blkCommitReg b, true, s.ctrlData b 0 false⟩ →
    ∃ t, exec (.commitWithdraw agent dom b) s = .next t ∧ t.fld (blkCommit b) = 0) ∧
  (∀ (s : State) (agent dom : Nat),
    s.serves ⟨agent, dom, 0x130, true, s.ctrlData .global 1 true⟩ →
    ∃ t, exec (.holdSet agent dom) s = .next t ∧ t.fld Reg.G.HOLD = 1) ∧
  (∀ (s : State) (agent dom : Nat),
    s.serves ⟨agent, dom, 0x130, true, s.ctrlData .global 1 false⟩ →
    ∃ t, exec (.holdClear agent dom) s = .next t ∧ t.fld Reg.G.HOLD = 0) ∧
  (∀ (s : State) (agent dom : Nat),
    s.serves ⟨agent, dom, 0x130, true, s.ctrlData .global 2 true⟩ →
    ∃ t, exec (.atEnSet agent dom) s = .next t ∧ t.fld Reg.G.AT_EN = 1)

/-- Register writes go by the access codes of their fields, shadow writes by COMMIT; low reads latch the high register.
Under the conditions named, exec of each command answers next, with a state in which the command's own effect has happened.
REG_WR to a register with rows, none of them LK: RW fields take the written bits, W1C fields lose the bits written 1, RO
fields stay. SHADOW_WRITE while COMMIT is 0: every shadow field of the register takes the written bits. SHADOW_WRITE while
COMMIT is 1: SHADOW_REJECT is set and every field that shares no bit with it stays. LOW_REGISTER_READ: the word goes to
the reader, the high register is latched for it, registers and memory stay. HELD_REGISTER_MESSAGE: the first message held
is served after the window. -/
def Obligations.RegisterMessagesAreServed : Prop :=
  (∀ (s : State) (agent dom off data : Nat),
    s.serves ⟨agent, dom, off, true, data⟩ →
    rowsAt off ≠ [] →
    rowsApart (rowsAt off) = true →
    (mbInput off = false ∨ s.flag Reg.Mb.MB_BUSY = false) →
    (rowsAt off).any (fun r => r.acc = .lk) = false →
    (off ≠ 0xC00000 ∧ off ≠ Reg.Link.AGENT_KILL.addr ∧ off ≠ Reg.Link.AGENT_REVIVE.addr) →
    ∃ t, exec (.regWr agent dom off data) s = .next t ∧ ∀ r ∈ rowsAt off, t.fld ⟨off, r.lo, r.width⟩ = match r.acc with | .rw => fieldOf data r.lo r.width | .w1c => (s.fld ⟨off, r.lo, r.width⟩ - (s.fld ⟨off, r.lo, r.width⟩ &&& fieldOf data r.lo r.width)) % 2 ^ r.width | .ro | .sh | .lk => s.fld ⟨off, r.lo, r.width⟩) ∧
  (∀ (s : State) (agent dom off data : Nat),
    s.serves ⟨agent, dom, off, true, data⟩ →
    rowsAt off = [] →
    shadowRows off ≠ [] →
    rowsApart (shadowRows off) = true →
    s.fld (blkCommit (blkOf off)) = 0 →
    ∃ t, exec (.shadowWrite agent dom off data) s = .next t ∧ ∀ r ∈ shadowRows off, t.fld ⟨off, r.lo, r.width⟩ = fieldOf (if off = 0x981000 then data ||| 1 else data) r.lo r.width) ∧
  (∀ (s : State) (agent dom off data : Nat),
    s.serves ⟨agent, dom, off, true, data⟩ →
    rowsAt off = [] →
    shadowRows off ≠ [] →
    s.fld (blkCommit (blkOf off)) = 1 →
    ∃ t, exec (.shadowWrite agent dom off data) s = .next t ∧ t.fld (blkReject (blkOf off)) = 1 ∧ ∀ g : Fld, Fld.apart (blkReject (blkOf off)) g → t.fld g = s.fld g) ∧
  (∀ (s : State) (agent dom off hi : Nat),
    s.serves ⟨agent, dom, off, false, 0⟩ →
    latchOf off = some hi →
    ∃ t, exec (.lowRegisterRead agent dom off) s = .next t ∧ t.linkOut = s.linkOut ++ [.regData agent (s.wordAt off)] ∧ SMap.get latchDefault t.latches (latchKey agent hi) = s.wordAt hi ∧ t.regs = s.regs ∧ t.mem = s.mem) ∧
  (∀ (s : State) (m : RegMsg) (rest : List RegMsg),
    s.running = true →
    s.heldMsgs = m :: rest →
    ∃ t, exec .heldRegisterMessage s = .next t ∧ t.heldMsgs = rest ∧ s.fld Reg.G.BOUNDARY_CYCLES ≤ t.time.phase ∧ t = State.serveReg { s with heldMsgs := rest, time := { s.time with phase := max s.time.phase (s.fld Reg.G.BOUNDARY_CYCLES) } } m)

/-- The stitch boundary, the held commit and the time messages have their effects.
Under the conditions named, exec of each command answers next, with a state in which the command's own effect has happened.
STITCH_BOUNDARY: the epoch rises by one, the phase is 0, the first commit has been made. COMMIT_AT_RELEASE within the window,
COMMIT_AT reached: HOLD and AT_EN are 0, LATE_COMMIT is set when it was passed, then the commits. SYNC_MESSAGE with a port
UP: OFFSET_NS and SYNC_STATE follow the offset. PEER_DELAY_MESSAGE: the delay of the port is kept. SYNC_LOSS while LOCKED:
HOLDOVER, and HOLDOVER_SEEN. HOLDOVER_LIMIT_EXCEEDED: DETACHED, DETACHED_SEEN, and a report. PPS_PULSE while LOCKED or
in HOLDOVER: a pulse, and the second. -/
def Obligations.TimeCommandsComplete : Prop :=
  (∀ (s : State) (inp : BoundaryIn),
    s.running = true →
    s.time.timer = true →
    ∃ t, exec (.stitchBoundary inp) s = .next t ∧ t.time.epoch = s.time.epoch + 1 ∧ t.time.phase = 0 ∧ t.time.firstCommit = true) ∧
  (∀ (s : State),
    s.running = true →
    s.time.timer = true →
    s.inWindow = true →
    s.fld Reg.G.AT_EN = 1 →
    s.wide Reg.G.COMMIT_AT_LO Reg.G.COMMIT_AT_HI ≤ s.now →
    ∃ u, exec .commitAtRelease s = .next (State.commits u) ∧ u.fld Reg.G.HOLD = 0 ∧ u.fld Reg.G.AT_EN = 0 ∧ (s.wide Reg.G.COMMIT_AT_LO Reg.G.COMMIT_AT_HI < s.now → u.fld Reg.G.LATE_COMMIT = 1)) ∧
  (∀ (s : State) (offsetNs : Int) (seconds : Nat),
    s.running = true →
    s.upPorts ≠ [] →
    ∃ t, exec (.syncMessage offsetNs seconds) s = .next t ∧ t.fld Reg.G.OFFSET_NS = signedBits 32 offsetNs ∧ t.fld Reg.G.SYNC_STATE = syncNext (s.fld Reg.G.SYNC_STATE) (decide (offsetNs.natAbs ≤ lockedNs)) ∧ t.time.netSeconds = seconds ∧ t.time.estErrorNs = 0) ∧
  (∀ (s : State) (port delayNs : Nat),
    s.running = true →
    port ∈ s.upPorts →
    ∃ t, exec (.peerDelayMessage port delayNs) s = .next t ∧ t.time.portDelay.getD port 0 = delayNs) ∧
  (∀ (s : State),
    s.running = true →
    s.fld Reg.G.SYNC_STATE = 2 →
    ∃ t, exec .syncLoss s = .next t ∧ t.fld Reg.G.SYNC_STATE = 3 ∧ t.fld Reg.G.HOLDOVER_SEEN = 1) ∧
  (∀ (s : State) (errorNs : Nat),
    s.running = true →
    s.fld Reg.G.SYNC_STATE = 3 →
    s.fld Reg.G.HOLDOVER_LIMIT_NS < errorNs →
    ∃ t, exec (.holdoverLimitExceeded errorNs) s = .next t ∧ t.fld Reg.G.SYNC_STATE = 4 ∧ t.fld Reg.G.DETACHED_SEEN = 1 ∧ t.time.detachReports = s.time.detachReports + 1) ∧
  (∀ (s : State) (second : Nat),
    s.running = true →
    (s.fld Reg.G.SYNC_STATE = 2 ∨ s.fld Reg.G.SYNC_STATE = 3) →
    ∃ t, exec (.ppsPulse second) s = .next t ∧ t.power.timePpsOut = s.power.timePpsOut + 1 ∧ t.time.netSeconds = second)

/-- Slices are admitted, overrun and expire as their commands say.
Under the conditions named, exec of each command answers next, with a state in which the command's own effect has happened.
SLICE_ADMIT of a slice that fits and whose data is there: the slice runs, from its start, at its cost. OVERRUN of a running
slice: the slice is gone, the overrun is counted on its block, the stitch is over. OVERRUN_LIMIT reached by a healthy block:
the block is SUSPECT. ADMIT_WAIT_EXPIRY of a query that never started: its record is posted and the job is gone. -/
def Obligations.SliceControlCompletes : Prop :=
  (∀ (s u : State) (kind : SliceKind) (idx start cost c : Nat),
    s.running = true →
    s.slicesOpen = true →
    (c = if kindCode kind = 27 then cost else scaled cost (s.costScale (kindEngine kind) idx)) →
    s.sliceCost kind = some cost →
    (sliceJobs s kind = [] ∨ s.anyUnfit (s.sliceDom kind) ((sliceBlocks kind 0).map (fun b => (b.1, (s.sliceCost (s.smallest kind)).getD cost))) = false) →
    s.sliceFits kind idx start c (s.sliceDom kind) = true →
    s.needsScan (s.sliceReads kind) = false →
    s.dataReady (s.sliceReads kind) (sliceJobs s kind) = (u, true) →
    ∃ t, exec (.sliceAdmit kind idx start) s = .next t ∧ ∃ x ∈ t.sched.slices, x.kind = kind ∧ x.engine = kindEngine kind ∧ x.idx = idx ∧ x.start = start ∧ x.cost = c ∧ x.epoch = s.now) ∧
  (∀ (s : State) (sid : Nat) (x : Slice),
    s.running = true →
    s.sched.slices.find? (fun x => x.id = sid) = some x →
    ∃ t, exec (.overrun sid) s = .next t ∧ (∀ y ∈ t.sched.slices, y.id ≠ sid) ∧ (64 * sourceKind x.engine + x.idx, s.now) ∈ t.sched.overruns ∧ s.time.stitchLen ≤ t.time.phase) ∧
  (∀ (s : State) (e : Engine) (idx : Nat),
    s.running = true →
    e ≠ .nbIssue →
    idx < engineCount e →
    s.blockState e idx = 0 →
    s.fld Reg.G.OVERRUN_LIMIT ≤ (s.sched.overruns.filter (fun x => decide (x.1 = 64 * sourceKind e + idx) && decide (s.now < x.2 + 65536))).length →
    ∃ t, exec (.overrunLimit e idx) s = .next t ∧ t.blockState e idx = 1) ∧
  (∀ (s : State) (job : Nat) (j : Job) (q : Query),
    s.running = true →
    s.query? job = some (j, q) →
    j.started = false →
    s.fld Reg.G.ADMIT_WAIT_MAX ≤ j.wait →
    q.shareIn = none →
    ∃ t, exec (.admitWaitExpiry job) s = .next t ∧ t.job? job = none ∧ (t.ring j.dom j.ring).compTail = ((s.ring j.dom j.ring).compTail + 1) % 2 ^ 32)

/-- SEARCH takes a context and a sorter; holds, reads and thresholds of a search take effect.
Under the conditions named, exec of each command answers next, with a state in which the command's own effect has happened.
SEARCH that passes its checks, with a context, a sorter and a store: its descriptor is taken and its query is in flight.
PROBE_HOLD of a probe that has waited long enough: a code pass of it alone starts. RERANK_READ_ISSUE after the local final
select: every candidate read is issued. PLANE_READ of a candidate whose read is due: it has landed. THRESHOLD_ADJUST: the
bin of the channel and plane moves by one step, up or down. -/
def Obligations.SearchCommandsComplete : Prop :=
  (∀ (s : State) (d r c u : Nat),
    s.Offers d r 0x01 1 anyKind →
    s.freeCtx = some c →
    s.ctxOpen d = true →
    s.searchFail d (parseSearch (s.words8 (s.headAddr d r))) = none →
    (s.unreranked (parseSearch (s.words8 (s.headAddr d r))).coll [] && !(parseSearch (s.words8 (s.headAddr d r))).rerankOff) = false →
    s.bindSorter c = some u →
    s.poolFits (s.newQuery (parseSearch (s.words8 (s.headAddr d r))) c 0).len = true →
    s.job? s.sched.nextJob = none →
    ∃ t, exec (.search d r) s = .next t ∧ s.Took t d r 1 0 ∧ t.work? s.sched.nextJob = some (.query { s.newQuery (parseSearch (s.words8 (s.headAddr d r))) c 0 with sorter := u })) ∧
  (∀ (s : State) (c p : Nat) (w : Waiting) (j : Job) (q : Query),
    s.running = true →
    (s.time.timer && s.inWindow) = true →
    (s.waiting true).filter (fun w => decide (w.coll = c) && decide (w.part = p)) = [] →
    (s.waiting false).filter (fun w => decide (w.coll = c) && decide (w.part = p)) = [w] →
    s.fld Reg.G.PROBE_HOLD ≤ s.now - 1 - w.ready →
    w.need ≤ 8 →
    s.query? w.job = some (j, q) →
    ∃ t x, exec (.probeHold c p) s = .next t ∧ t.sched.passes = s.sched.passes ++ [x] ∧ x.coll = c ∧ x.part = p ∧ x.ver = w.ver ∧ x.sketch = false ∧ x.members = [(w.job, w.order, w.need)] ∧ t.work? w.job = some (.query (q.setProbe w.order (fun y => { y with st := 4 })))) ∧
  (∀ (s : State) (id : Nat) (j : Job) (q : Query),
    s.running = true →
    (s.time.timer && s.inWindow) = true →
    s.query? id = some (j, q) →
    q.localFinal = true →
    q.rerankOff = false →
    q.localFinalAt < s.now →
    q.readsIssued < q.store.length →
    ∃ t, exec (.rerankReadIssue id) s = .next t ∧ t.work? id = some (.query { q with readsIssued := q.store.length, rerankReads := q.rerankReads + (q.store.length - q.readsIssued) })) ∧
  (∀ (s : State) (id cand ch step n : Nat) (j : Job) (q : Query),
    s.running = true →
    s.readOk ch step n = true →
    s.query? id = some (j, q) →
    cand < q.readsIssued →
    q.readsLanded.contains cand = false →
    ∃ t, exec (.planeRead id cand ch step n) s = .next t ∧ t.work? id = some (.query { q with readsLanded := insNat q.readsLanded cand, landedAt := s.now })) ∧
  (∀ (s : State) (ch lun bin : Nat) (up : Bool),
    s.running = true →
    ch < 32 →
    ∃ t, exec (.thresholdAdjust ch lun bin up) s = .next t ∧ SMap.get thresholdDefault t.flash.threshold (ch * 2 ^ 40 + lun % 2 ^ 8 * 2 ^ 32 + bin % 2 ^ 32) = SMap.get thresholdDefault s.flash.threshold (ch * 2 ^ 40 + lun % 2 ^ 8 * 2 ^ 32 + bin % 2 ^ 32) + (if up then 1 else -1))

/-- Search slices that end leave their query further on.
Under the conditions named, exec of each command answers next, with a state in which the command's own effect has happened.
ROUTE_WALK slice that is not the last of its walk: the records walked. TABLE_BUILD slice that is not the last: the tables
built. ESCALATED_REBUILD slice that is not the last: the tables rebuilt. LOCAL_SELECT slice of a stream: the entries kept
and those left. RERANK slice on clean vectors: the exact distances of the candidates it covers, the others as before. FAN_IN_MERGE
slice that is not the last: the entries merged. -/
def Obligations.SearchSlicesComplete : Prop :=
  (∀ (s u : State) (sid id n : Nat) (x : Slice) (j : Job) (q : Query),
    s.running = true →
    s.endSlice sid = some (x, u) →
    x.kind = .routeWalk id n →
    u.query? id = some (j, q) →
    q.walked + n < (u.walkOf { q with walked := q.walked + n }).scored.length →
    ∃ t, exec (.routeWalk sid) s = .next t ∧ t.work? id = some (.query { q with walked := q.walked + n })) ∧
  (∀ (s u : State) (sid id n : Nat) (x : Slice) (j : Job) (q : Query) (l : List (Nat × Nat)),
    s.running = true →
    s.endSlice sid = some (x, u) →
    x.kind = .tableBuild id n →
    u.query? id = some (j, q) →
    l = ((u.tablesNeeded j q).drop q.tables.length).take n →
    q.tables.length + l.length < (u.tablesNeeded j q).length →
    ∃ t, exec (.tableBuild sid) s = .next t ∧ t.work? id = some (.query { q with tables := q.tables ++ l.map (fun y => u.makeTable q y.1 y.2) })) ∧
  (∀ (s u : State) (sid id n : Nat) (x : Slice) (j : Job) (q : Query),
    s.running = true →
    s.endSlice sid = some (x, u) →
    x.kind = .rebuild id n →
    u.query? id = some (j, q) →
    q.rebuiltTables + n < q.tables.length →
    ∃ t, exec (.escalatedRebuild sid) s = .next t ∧ t.work? id = some (.query { q with rebuiltTables := q.rebuiltTables + n })) ∧
  (∀ (s u : State) (sid id n : Nat) (x : Slice) (j : Job) (q : Query),
    s.running = true →
    s.endSlice sid = some (x, u) →
    x.kind = .localSelect id n →
    u.query? id = some (j, q) →
    q.selMode = .stream →
    ∃ t, exec (.localSelect sid) s = .next t ∧ t.work? id = some (.query (u.settleLocal { q with store := (selectTop .score q.len (q.store ++ q.arrived.take n)).kept, arrived := q.arrived.drop n }))) ∧
  (∀ (s u : State) (sid id n : Nat) (x : Slice) (j : Job) (q : Query),
    s.running = true →
    s.endSlice sid = some (x, u) →
    x.kind = .rerank id n →
    u.query? id = some (j, q) →
    ((q.store.drop q.reranked).take n).any (fun c => u.poisoned (u.candAddr q c) (slotSize q.shape)) = false →
    ∃ t store, exec (.rerank sid) s = .next t ∧ t.work? id = some (.query { q with store := store, reranked := q.reranked + n, rerankDone := decide (q.store.length ≤ q.reranked + n) }) ∧ store.length = q.store.length ∧ ∀ i c, q.store[i]? = some c → store[i]? = some (if q.reranked ≤ i ∧ i < q.reranked + n then { c with dist := u.rerankDist q i c } else c)) ∧
  (∀ (s u : State) (sid id n : Nat) (x : Slice) (j : Job) (q : Query),
    s.running = true →
    s.endSlice sid = some (x, u) →
    x.kind = .fanIn id n →
    u.query? id = some (j, q) →
    q.mergeProg + n < q.mergeInput.length →
    ∃ t, exec (.fanInMerge sid) s = .next t ∧ t.work? id = some (.query { q with mergeProg := q.mergeProg + n }))

/-- Scan slices of a pass with one member leave what they scored.
Under the conditions named, exec of each command answers next, with a state in which the command's own effect has happened.
SKETCH_PASS slice: ordinals in view whose sketch lies within SKETCH_MAX are kept. CODE_PASS slice: the slice list of the
main layout arrives at the selection. SIDE_SLICE slice: the slice list of the side list arrives at the selection. -/
def Obligations.ScanSlicesComplete : Prop :=
  (∀ (s u : State) (sid id i lo n ord need : Nat) (x : Slice) (p : Pass) (l : Layout) (j : Job) (q : Query) (keep : List Nat),
    s.running = true →
    s.endSlice sid = some (x, u) →
    x.kind = .sketchPass id lo n →
    u.pass? id = some p →
    u.passLayout p = some l →
    2 ≤ p.running →
    p.members = [(i, ord, need)] →
    u.query? i = some (j, q) →
    keep = ((List.range n).map (fun i => lo + i)).filter (fun o => u.mainVisible l o j.epoch && decide (u.hamming (l.sketchAddr o) q.sketch ≤ q.sketchMax.getD 0)) →
    ∃ t, exec (.sketchPass sid) s = .next t ∧ t.pass? id = some { p with running := p.running - 1 } ∧ t.work? i = some (.query (q.setProbe ord (fun y => { y with kept := y.kept ++ keep })))) ∧
  (∀ (s u : State) (sid id i lo n ord need : Nat) (x : Slice) (p : Pass) (l : Layout) (j : Job) (q : Query) (pr : Probe) (tb : Table),
    s.running = true →
    s.endSlice sid = some (x, u) →
    x.kind = .codePass id lo n →
    u.pass? id = some p →
    u.passLayout p = some l →
    2 ≤ p.running →
    p.members = [(i, ord, need)] →
    u.query? i = some (j, q) →
    q.probes.find? (fun x => x.order = ord) = some pr →
    q.tables.find? (fun t => decide (t.porder = ord) && decide (t.slot = l.cbSlot)) = some tb →
    ∃ t, exec (.codePass sid) s = .next t ∧ t.pass? id = some { p with running := p.running - 1 } ∧ t.work? i = some (.query { q with arrived := q.arrived ++ (sliceList (64 * need) q.cut (u.scanMain j q pr tb l lo n).cands).1, clips := q.clips ++ (sliceList (64 * need) q.cut (u.scanMain j q pr tb l lo n).cands).2.toList, codesScored := q.codesScored + (u.scanMain j q pr tb l lo n).scored })) ∧
  (∀ (s u : State) (sid id i slot lo n ord need : Nat) (x : Slice) (p : Pass) (l : Layout) (j : Job) (q : Query) (pr : Probe) (tb : Table),
    s.running = true →
    s.endSlice sid = some (x, u) →
    x.kind = .sideSlice id slot lo n →
    u.pass? id = some p →
    u.passLayout p = some l →
    2 ≤ p.running →
    p.members = [(i, ord, need)] →
    u.query? i = some (j, q) →
    q.probes.find? (fun x => x.order = ord) = some pr →
    q.tables.find? (fun t => decide (t.porder = ord) && decide (t.slot = slot)) = some tb →
    ∃ t, exec (.sideSlice sid) s = .next t ∧ t.pass? id = some { p with running := p.running - 1 } ∧ t.work? i = some (.query { q with arrived := q.arrived ++ (sliceList (64 * need) q.cut (u.scanSide j q pr tb l lo n).cands).1, clips := q.clips ++ (sliceList (64 * need) q.cut (u.scanSide j q pr tb l lo n).cands).2.toList, codesScored := q.codesScored + (u.scanSide j q pr tb l lo n).scored }))

/-- Shares of a search wait, are bound, and are answered.
Under the conditions named, exec of each command answers next, with a state in which the command's own effect has happened.
SHARE_REQUEST ahead of the epoch or the map: it waits. SHARE_REQUEST that is served: a query bound to its sorter, with
the probes, K and depth of the request. PARTIAL from the holder of an open share: it is kept with the share. SHARE_WAIT_TIMEOUT
of a lookup share that waits for a map: answered MOVED, with MAP_LAG set. -/
def Obligations.ShareCommandsComplete : Prop :=
  (∀ (s : State) (src : Nat) (m : ShareReq),
    s.running = true →
    s.fld Reg.G.MEMBER_STATE = 2 →
    s.fabric.failed.contains src = false →
    s.shareAnswer s.now m = .wait →
    ∃ t, exec (.shareRequest src m) s = .next t ∧ t.fabric.shareWait = s.fabric.shareWait ++ [(src, s.now, m)] ∧ t.sched = s.sched) ∧
  (∀ (s : State) (src t : Nat) (m : ShareReq),
    s.running = true →
    s.fld Reg.G.MEMBER_STATE = 2 →
    s.fabric.failed.contains src = false →
    s.shareAnswer s.now m = .serve →
    4 ≤ s.startState →
    s.startState ≤ 6 →
    s.shareFail m = none →
    s.bindSorter ((m.context + m.share) % 4) = some t →
    s.poolFits (s.shareQuery m 0).len = true →
    s.job? s.sched.nextJob = none →
    ∃ v q, exec (.shareRequest src m) s = .next v ∧ v.work? s.sched.nextJob = some (.query q) ∧ q.coll = m.coll ∧ q.k = m.k ∧ q.depth = m.depth ∧ q.probeList = m.probes ∧ q.sorter = t ∧ q.bound = true ∧ q.routed = true ∧ q.shareIn = some { collector := m.collector, context := m.context, share := m.share, compEpoch := m.compEpoch }) ∧
  (∀ (s : State) (m : PartialMsg) (j : Job) (q : Query) (o : ShareOut),
    s.running = true →
    s.fld Reg.G.MEMBER_STATE = 2 →
    s.fabric.failed.contains m.holder = false →
    s.queries.find? (fun x => decide (x.2.ctx = some m.context) && decide (x.1.epoch = m.epoch)) = some (j, q) →
    q.shares.find? (fun h => decide (h.num = m.share) && h.got.isNone) = some o →
    m.status ≠ Status.moved.code →
    s.job? j.id = some j →
    ∃ t, exec (.partialMsg m) s = .next t ∧ t.work? j.id = some (.query { q with shares := q.shares.map (fun h => if h.num = m.share then { h with got := some m } else h), lastPartialAt := s.now })) ∧
  (∀ (s : State) (n : Nat) (w : Nat × Nat × LookupReq),
    s.running = true →
    s.fld Reg.G.MEMBER_STATE = 2 →
    s.emb.wait[n]? = some w →
    s.embAnswer w.2.1 w.2.2 = .lag →
    w.2.2.requester ≠ s.self →
    s.fabric.failed.contains w.2.2.requester = false →
    ∃ t p, exec (.shareWaitTimeout true n) s = .next t ∧ t.emb.wait = s.emb.wait.erase w ∧ t.fld Reg.G.MAP_LAG = 1 ∧ t.fabric.out.map (fun m => (m.dst, m.queue, m.body)) = s.fabric.out.map (fun m => (m.dst, m.queue, m.body)) ++ [(w.2.2.requester, 4, .lookupPart p)] ∧ p.status = Status.moved.code ∧ p.context = w.2.2.context ∧ p.entries = [])

/-- An encode prepares its insert; a batch of one delete commits.
Under the conditions named, exec of each command answers next, with a state in which the command's own effect has happened.
INSERT_ENCODE slice: the insert is prepared, with the codebook slot that is CURRENT. BATCH_COMMIT of a batch of one prepared
delete of a live record: the record has its tombstone from the next epoch on, the completion is posted. -/
def Obligations.UpdateCommandsComplete : Prop :=
  (∀ (s u : State) (sid id : Nat) (x : Slice) (j : Job) (y : Update),
    s.running = true →
    s.endSlice sid = some (x, u) →
    x.kind = .insertEncode id →
    u.update? id = some (j, y) →
    ∃ t st, exec (.insertEncode sid) s = .next t ∧ t.work? id = some (.update { y with cbSlot := (u.coll y.coll).cbCur.getD y.cbSlot, prepared := true, status := st }) ∧ (st = y.status ∨ st = .poisoned)) ∧
  (∀ (s : State) (t0 : Nat) (ids : List Nat) (rest : List (Nat × List Nat)) (j : Job) (u : Update),
    s.running = true →
    (∀ k ∈ s.sched.jobs, ∀ y, k.work = .update y → y.vecWait = false) →
    s.sched.batches = (t0, ids) :: rest →
    s.batchJobs ids = [(j, u)] →
    u.prepared = true →
    u.vecWait = false →
    j.doom = none →
    u.status = .ok →
    u.insert = false →
    (s.part u.coll u.part).cur.tomb? u.ordinal = none →
    ∃ t, exec .batchCommit s = .next t ∧ t.sched.batches = rest ∧ t.job? j.id = none ∧ (t.part u.coll u.part).cur.tomb? u.ordinal = some (s.now + 1) ∧ (t.ring j.dom j.ring).compTail = ((s.ring j.dom j.ring).compTail + 1) % 2 ^ 32)

/-- Folds go on, a layout swap puts the new layout in place, a release gives the old one back.
Under the conditions named, exec of each command answers next, with a state in which the command's own effect has happened.
MAIN_FOLD slice: the records of the main layout folded so far. SIDE_FOLD slice: the entries of the side list folded so
far. LAYOUT_SWAP of a compaction that is done: the new layout is current, the old one is kept with its release. LAYOUT_RELEASE
of an old layout that nothing pins: it is gone, its ordinals are free, its record is posted. -/
def Obligations.CompactionsComplete : Prop :=
  (∀ (s u : State) (sid id lo n : Nat) (x : Slice) (j : Job) (c : Compact),
    s.running = true →
    s.endSlice sid = some (x, u) →
    x.kind = .mainFold id lo n →
    u.compact? id = some (j, c) →
    ∃ t y, exec (.mainFold sid) s = .next t ∧ t.work? id = some (.compact y) ∧ y.mainEnded = c.mainEnded + n ∧ y.pinned = c.pinned ∧ y.fold = c.fold) ∧
  (∀ (s u : State) (sid id lo n : Nat) (x : Slice) (j : Job) (c : Compact),
    s.running = true →
    s.endSlice sid = some (x, u) →
    x.kind = .sideFold id lo n →
    u.compact? id = some (j, c) →
    ∃ t y, exec (.sideFold sid) s = .next t ∧ t.work? id = some (.compact y) ∧ y.sideEnded = c.sideEnded + n ∧ y.pinned = c.pinned ∧ y.fold = c.fold) ∧
  (∀ (s : State) (id : Nat) (l1 l2 : List (Job × Compact)) (j : Job) (x : Compact),
    s.running = true →
    (s.time.timer && s.inWindow) = true →
    s.compactions = l1 ++ (j, x) :: l2 →
    s.compact? id = some (j, x) →
    (∀ y ∈ l1, y.1.id ≠ id) →
    (∀ y ∈ l2, y.1.id ≠ id) →
    x.done = true →
    x.fold < s.now →
    ∃ t rel, exec (.layoutSwap id) s = .next t ∧ (t.part x.coll x.part).cur = { x.new with since := s.now, ordHigh := (s.part x.coll x.part).cur.ordHigh } ∧ (t.part x.coll x.part).old = { (s.part x.coll x.part).cur with rel := some rel } :: (s.part x.coll x.part).old ∧ rel.fold = x.fold ∧ rel.freed = x.dropped ∧ rel.tag = j.tag ∧ t.job? id = none) ∧
  (∀ (s : State) (c p : Nat) (l : Layout) (r : Rel),
    s.running = true →
    (s.time.timer && s.inWindow) = true →
    p < 2 ^ 20 →
    (s.part c p).old = [l] →
    l.rel = some r →
    s.layoutPinned c p l.ver = false →
    (s.part c p).swappedAway l + s.fld Reg.G.FANOUT_GRACE ≤ s.now →
    ∃ t, exec (.layoutRelease c p) s = .next t ∧ (t.part c p).old = [] ∧ (t.part c p).free = r.freed.foldl insNat (s.part c p).free ∧ (t.ring r.dom r.ring).compTail = ((s.ring r.dom r.ring).compTail + 1) % 2 ^ 32)

/-- A loaded version becomes CURRENT and a slot without pins is FREE; route copies go on.
Under the conditions named, exec of each command answers next, with a state in which the command's own effect has happened.
VERSION_CURRENT: the loaded slot is CURRENT, the one before RETIRED. SLOT_RELEASE of a retired route slot without pins:
it is FREE, and its record is posted. ROUTE_COPY slice that is not the last: the records copied. -/
def Obligations.VersionCommandsComplete : Prop :=
  (∀ (s : State) (c : Nat) (l1 l2 : List Job) (j : Job) (x : VersionReq),
    s.running = true →
    (s.time.timer && s.inWindow) = true →
    s.sched.jobs = l1 ++ j :: l2 →
    s.job? j.id = some j →
    j.doom = none →
    j.epoch < s.now →
    j.work = .version x →
    x.coll = c →
    x.slot ≤ 1 →
    (∀ k ∈ l1 ++ l2, k.id ≠ j.id ∧ (∀ d, k.work = .version d → d.coll ≠ c) ∧ (∀ d, k.work = .routeEdit d → d.coll ≠ c)) →
    ∃ t, exec (.versionCurrent c) s = .next t ∧ t.job? j.id = none ∧ (x.table = 0 → (t.coll c).routeSwap = s.now ∧ (t.coll c).route x.slot = { (s.coll c).route x.slot with state := 2, since := s.now } ∧ (((s.coll c).route (1 - x.slot)).state = 2 → ((t.coll c).route (1 - x.slot)).state = 3 ∧ ((t.coll c).route (1 - x.slot)).since = s.now)) ∧ (x.table ≠ 0 → (t.coll c).cbSwap = s.now ∧ (t.coll c).cb x.slot = { (s.coll c).cb x.slot with state := 2, since := s.now } ∧ (((s.coll c).cb (1 - x.slot)).state = 2 → ((t.coll c).cb (1 - x.slot)).state = 3 ∧ ((t.coll c).cb (1 - x.slot)).since = s.now))) ∧
  (∀ (s : State) (c : Nat) (r : Rel),
    s.running = true →
    (s.time.timer && s.inWindow) = true →
    (s.coll c).routeA.state = 3 →
    (s.coll c).routeA.rel = some r →
    (s.coll c).routeB.state ≠ 3 →
    (s.coll c).cbA.state ≠ 3 →
    (s.coll c).cbB.state ≠ 3 →
    s.slotPins c 0 0 = 0 →
    (s.coll c).routeA.since + s.fld Reg.G.FANOUT_GRACE ≤ s.now →
    ∃ t, exec (.slotRelease c) s = .next t ∧ (t.coll c).routeA.state = 0 ∧ (t.coll c).routeB = (s.coll c).routeB ∧ (t.coll c).cbA = (s.coll c).cbA ∧ (t.coll c).cbB = (s.coll c).cbB ∧ (t.ring r.dom r.ring).compTail = ((s.ring r.dom r.ring).compTail + 1) % 2 ^ 32) ∧
  (∀ (s u : State) (sid id n : Nat) (x : Slice) (j : Job) (r : RouteEditReq),
    s.running = true →
    s.endSlice sid = some (x, u) →
    x.kind = .routeCopy id n →
    u.routeEdit? id = some (j, r) →
    r.copied + n < u.partCount r.coll →
    ∃ t, exec (.routeCopy sid) s = .next t ∧ t.work? id = some (.routeEdit { r with copied := r.copied + n }))

/-- Engine slices that end leave their spills and elements.
Under the conditions named, exec of each command answers next, with a state in which the command's own effect has happened.
GEMM slice that is not the last of its block: the accumulators are spilled. VECTOR slice that is not the last: the elements
done, with what was clipped or not finite. -/
def Obligations.EngineSlicesComplete : Prop :=
  (∀ (s u : State) (sid id g row0 rows k0 kn : Nat) (x : Slice) (j : Job) (e : EngineCmd),
    s.running = true →
    s.endSlice sid = some (x, u) →
    x.kind = .gemm id g row0 rows k0 kn →
    u.engine? id = some (j, e) →
    k0 + kn ≠ e.chunks →
    (List.range kn).all (fun i => !u.poisoned (tileAddr e.aFmt e.a e.chunks g (k0 + i)) (tileBytes e.aFmt)) = true →
    (List.range (cdiv rows 64)).all (fun i => !u.poisoned (tileAddr e.bFmt e.b e.bChunks (row0 / 64 + i) (k0 * (tileKc e.aFmt / max 1 (tileKc e.bFmt)))) (kn * (tileKc e.aFmt / max 1 (tileKc e.bFmt)) * tileBytes e.bFmt)) = true →
    ∃ t acc, exec (.gemmSlice sid) s = .next t ∧ acc.length = rows ∧ t.work? id = some (.engine { e with spills := e.spills.filter (fun x => !(decide (x.group = g) && decide (x.row0 = row0))) ++ [{ group := g, row0 := row0, chunks := k0 + kn, acc := acc }] })) ∧
  (∀ (s u : State) (sid id lo n : Nat) (x : Slice) (j : Job) (e : EngineCmd),
    s.running = true →
    s.endSlice sid = some (x, u) →
    x.kind = .vectorOp id lo n →
    u.engine? id = some (j, e) →
    n + (e.done.map (fun x => x.2)).sum ≠ e.elements / 64 →
    u.poisoned (e.a + 64 * lo * (elemBits e.aFmt / 8)) (64 * n * (elemBits e.aFmt / 8)) = false →
    (vopTwo e.vop = false ∨ u.poisoned (e.b + 64 * lo * (elemBits e.bFmt / 8)) (64 * n * (elemBits e.bFmt / 8)) = false) →
    ∃ t c f, exec (.vectorSlice sid) s = .next t ∧ t.work? id = some (.engine { e with done := (lo, n) :: e.done, clipped := e.clipped + c, nonfinite := e.nonfinite + f }))

/-- Attention slices that end leave their command further on.
Under the conditions named, exec of each command answers next, with a state in which the command's own effect has happened.
KV_PROJECTION slice on clean data: the accumulators of the group. ROTATE_AND_WRITE slice that is not the last: the tokens
written. FUSED_ATTENTION slice: the pages read, and the piece if it had rows. COMBINE slice that is not the last: the rows
combined. -/
def Obligations.AttentionSlicesComplete : Prop :=
  (∀ (s u : State) (sid id g k0 kn : Nat) (x : Slice) (j : Job) (a : Attend),
    s.running = true →
    s.endSlice sid = some (x, u) →
    x.kind = .kvProject id g k0 kn →
    u.attend? id = some (j, a) →
    u.poisoned (tileAddr a.gemm.aFmt (u.weightOf a g).1 a.gemm.chunks (u.weightOf a g).2 k0) (kn * tileBytes a.gemm.aFmt) = false →
    (List.range (cdiv a.ntok 64)).any (fun i => u.poisoned (tileAddr 1 a.hid (a.seq.hidden / 64) i (k0 * (tileKc a.gemm.aFmt / 64))) (kn * (tileKc a.gemm.aFmt / 64) * 8192)) = false →
    ∃ t acc, exec (.kvProjection sid) s = .next t ∧ acc.length = a.ntok ∧ t.work? id = some (.attend { a with proj := a.proj.filter (fun x => x.group ≠ g) ++ [{ group := g, row0 := 0, chunks := k0 + kn, acc := acc }] })) ∧
  (∀ (s u : State) (sid id lo n : Nat) (x : Slice) (j : Job) (a : Attend),
    s.running = true →
    s.endSlice sid = some (x, u) →
    x.kind = .rotateWrite id lo n →
    u.attend? id = some (j, a) →
    lo + n < a.ntok →
    ∃ t, exec (.rotateAndWrite sid) s = .next t ∧ t.work? id = some (.attend { a with written := lo + n })) ∧
  (∀ (s u : State) (sid id hd r p0 n : Nat) (x : Slice) (j : Job) (a : Attend),
    s.running = true →
    s.endSlice sid = some (x, u) →
    x.kind = .fused id hd r p0 n →
    u.attend? id = some (j, a) →
    ∃ t b, exec (.fusedAttention sid) s = .next t ∧ t.work? id = some (.attend b) ∧ b.pagesRead = a.pagesRead + n ∧ (b.pieces = a.pieces ∨ ∃ rows, b.pieces = a.pieces ++ [{ head := hd, range := r, page0 := p0, pages := n, rows := rows }])) ∧
  (∀ (s u : State) (sid id lo n : Nat) (x : Slice) (j : Job) (a : Attend),
    s.running = true →
    s.endSlice sid = some (x, u) →
    x.kind = .combine id lo n →
    u.attend? id = some (j, a) →
    lo + n < a.rowCount →
    ∃ t, exec (.combine sid) s = .next t ∧ t.work? id = some (.attend { a with rows := a.rows ++ (List.range n).map (fun i => a.rowOf (lo + i)), combined := lo + n, nonfinite := a.nonfinite + (((List.range n).map (fun i => a.rowOf (lo + i))).filter AttnRow.nonfinite).length }))

/-- Partials reach their merge, merge slices go on, Skive rereads land or poison.
Under the conditions named, exec of each command answers next, with a state in which the command's own effect has happened.
ATTN_PARTIAL of an open merge: it is kept. ATTN_PARTIAL without a merge: MERGE_ORPHAN. MERGE slice that is not the last:
the rows merged. SKIVE_REREAD that passes: RETRY_OK, and memory stays. SKIVE_REREAD that fails: the 64 lines of the block
are poison, the others as before. -/
def Obligations.AttentionMergesComplete : Prop :=
  (∀ (s : State) (slot : Nat) (m : AttnMsg) (j : Job) (a : AttnMerge),
    s.running = true →
    s.fld Reg.G.MEMBER_STATE = 2 →
    s.fabric.failed.contains m.src = false →
    s.merges.find? (fun x => decide (x.2.slot = slot) && decide (x.2.layer = m.layer) && decide (x.2.qpos = m.qpos) && decide (m.shard < x.2.shards)) = some (j, a) →
    a.parts.any (fun p => p.shard = m.shard) = false →
    s.job? j.id = some j →
    ∃ t, exec (.attnPartial slot m) s = .next t ∧ t.work? j.id = some (.attnMerge { a with parts := a.parts ++ [m] })) ∧
  (∀ (s : State) (slot : Nat) (m : AttnMsg),
    s.running = true →
    s.fld Reg.G.MEMBER_STATE = 2 →
    s.fabric.failed.contains m.src = false →
    s.merges.find? (fun x => decide (x.2.slot = slot) && decide (x.2.layer = m.layer) && decide (x.2.qpos = m.qpos) && decide (m.shard < x.2.shards)) = none →
    exec (.attnPartial slot m) s = .next (s.bump Reg.G.MERGE_ORPHAN)) ∧
  (∀ (s u : State) (sid id lo n : Nat) (x : Slice) (j : Job) (m : AttnMerge),
    s.running = true →
    s.endSlice sid = some (x, u) →
    x.kind = .merge id lo n →
    u.merge? id = some (j, m) →
    lo + n < m.rowCount →
    ∃ t c, exec (.merge sid) s = .next t ∧ t.work? id = some (.attnMerge { m with merged := lo + n, empty := m.empty + c })) ∧
  (∀ (s : State) (p b : Nat),
    s.running = true →
    (s.page p).coded = true →
    b < 16 →
    ((s.page p).st = .fetching ∨ s.flash.stageReq.contains p = true) →
    s.flash.rereads.contains (p, b) = false →
    ∃ t, exec (.skiveReread p b true) s = .next t ∧ t.flash.rereads = (p, b) :: s.flash.rereads ∧ t.fld Reg.Skive.RETRY_OK = (s.fld Reg.Skive.RETRY_OK + 1) % 2 ^ 32 ∧ t.mem = s.mem) ∧
  (∀ (s : State) (p b : Nat),
    s.running = true →
    (s.page p).coded = true →
    b < 16 →
    ((s.page p).st = .fetching ∨ s.flash.stageReq.contains p = true) →
    s.flash.rereads.contains (p, b) = false →
    ∃ t, exec (.skiveReread p b false) s = .next t ∧ t.flash.rereads = (p, b) :: s.flash.rereads ∧ ∀ k, t.mem.linePoison k = if 1024 * p + 64 * b ≤ k ∧ k < 1024 * p + 64 * b + 64 then true else s.mem.linePoison k)

/-- Lookup shares wait or start; slices and partials of a lookup take effect.
Under the conditions named, exec of each command answers next, with a state in which the command's own effect has happened.
SORT_BY_OWNER slice that is not the last: the indices sorted. LOOKUP_SHARE ahead of its epoch: it waits. LOOKUP_SHARE that
is served: a share with a row address for each entry. POOLING slice that leaves near-bank sums open: the sums taken. LOOKUP_PARTIAL
of an open share: it is kept. LOOKUP_COMBINE slice that is not the last: the bags combined. -/
def Obligations.LookupCommandsComplete : Prop :=
  (∀ (s u : State) (sid id lo n : Nat) (x : Slice) (j : Job) (l : Lookup),
    s.running = true →
    s.endSlice sid = some (x, u) →
    x.kind = .sortOwners id lo n →
    u.lookup? id = some (j, l) →
    64 * (lo + n) < l.nidx →
    u.poisoned (l.idx + 256 * lo) (4 * min (64 * n) (l.nidx - 64 * lo)) = false →
    (l.pool ≠ 2 ∨ u.poisoned (l.w + 256 * lo) (4 * min (64 * n) (l.nidx - 64 * lo)) = false) →
    ∃ t, exec (.sortByOwner sid) s = .next t ∧ t.work? id = some (.lookup { l with sorted := lo + n })) ∧
  (∀ (s : State) (src : Nat) (m : LookupReq),
    s.running = true →
    s.fld Reg.G.MEMBER_STATE = 2 →
    s.fabric.failed.contains src = false →
    s.embAnswer s.now m = .wait →
    ∃ t, exec (.lookupShare src m) s = .next t ∧ t.emb.wait = s.emb.wait ++ [(src, s.now, m)] ∧ t.sched = s.sched) ∧
  (∀ (s : State) (src : Nat) (m : LookupReq),
    s.running = true →
    s.fld Reg.G.MEMBER_STATE = 2 →
    s.fabric.failed.contains src = false →
    s.embAnswer s.now m = .serve →
    m.requester ≠ s.self →
    s.job? s.sched.nextJob = none →
    ∃ t, exec (.lookupShare src m) s = .next t ∧ t.work? s.sched.nextJob = some (.embShare { requester := m.requester, context := m.context, table := m.table, slot := m.slot, desc := s.readEmb m.table, weighted := m.weighted, rows := m.entries.map (fun e => { row := e.1, bag := e.2.1, weight := e.2.2, addr := s.rowAddr ((s.tab m.table).slot m.slot) (s.readEmb m.table) e.1 }) })) ∧
  (∀ (s u : State) (sid id n : Nat) (x : Slice) (j : Job) (y : EmbShare),
    s.running = true →
    s.endSlice sid = some (x, u) →
    x.kind = .pooling id n →
    u.embShare? id = some (j, y) →
    y.out ≠ 0 →
    ((u.poolItems y).take n).any (u.itemPoison y) = false →
    ∃ t z, exec (.pooling sid) s = .next t ∧ t.work? id = some (.embShare z) ∧ z.sums = y.sums.drop n ∧ z.out = y.out ∧ z.table = y.table ∧ z.desc = y.desc) ∧
  (∀ (s : State) (m : LookupPart) (j : Job) (l : Lookup) (o : LShare),
    s.running = true →
    s.fld Reg.G.MEMBER_STATE = 2 →
    s.fabric.failed.contains m.owner = false →
    s.lookups.find? (fun x => decide (x.2.ctx = m.context) && decide (x.1.epoch = m.epoch)) = some (j, l) →
    l.shares.find? (fun h => decide (h.owner = m.owner) && h.got.isNone) = some o →
    m.status = Status.ok.code →
    s.job? j.id = some j →
    ∃ t, exec (.lookupPartial m) s = .next t ∧ t.work? j.id = some (.lookup { l with shares := l.shares.erase o ++ [{ o with got := some m }], slow := l.slow || m.slowPath })) ∧
  (∀ (s u : State) (sid id lo n : Nat) (x : Slice) (j : Job) (l : Lookup),
    s.running = true →
    s.endSlice sid = some (x, u) →
    x.kind = .lookupCombine id lo n →
    u.lookup? id = some (j, l) →
    lo + n < l.bags →
    ∃ t e r, exec (.lookupCombine sid) s = .next t ∧ t.work? id = some (.lookup { l with combined := lo + n, empty := l.empty + e, rows := l.rows + r }))

/-- Gradient rows are added to the open step; steps close and are sealed.
Under the conditions named, exec of each command answers next, with a state in which the command's own effect has happened.
GRADIENT_ROW of a row without an entry: a new entry. GRADIENT_ROW of a row with an entry: the sum. DROP_REPORT: the drop
is counted on the update. STEP_CLOSE_AT: the open step is closed and the next one opens. SEAL_SEND: a seal to every other
owner. SEAL of a closed step: noted. SEAL of a step not yet closed: kept. -/
def Obligations.GradientCommandsComplete : Prop :=
  (∀ (s : State) (src t step row : Nat) (g : List F32),
    s.running = true →
    s.fld Reg.G.MEMBER_STATE = 2 →
    s.fabric.failed.contains src = false →
    (s.tab t).st ≠ 0 →
    s.owns (s.tab t).curSlot.map (s.readEmb t).shift row = true →
    (s.tab t).entries.find? (fun e => decide (e.step = step) && decide (e.row = row)) = none →
    ((s.tab t).entries.filter (fun e => e.step = step)).length < (s.readEmb t).updCap →
    ((((s.tab t).entries.filter (fun e => e.step ≠ step)).map (fun e => e.step)).foldl insNat [] = [] ∨ ∃ a, (((s.tab t).entries.filter (fun e => e.step ≠ step)).map (fun e => e.step)).foldl insNat [] = [a]) →
    ∃ u, exec (.gradientRow src t step row g) s = .next u ∧ u.tab t = { s.tab t with entries := (s.tab t).entries ++ [{ step := step, row := row, sum := g }] }) ∧
  (∀ (s : State) (src t step row : Nat) (g : List F32) (e : GradEntry),
    s.running = true →
    s.fld Reg.G.MEMBER_STATE = 2 →
    s.fabric.failed.contains src = false →
    (s.tab t).st ≠ 0 →
    s.owns (s.tab t).curSlot.map (s.readEmb t).shift row = true →
    (s.tab t).entries.find? (fun e => decide (e.step = step) && decide (e.row = row)) = some e →
    ∃ u, exec (.gradientRow src t step row g) s = .next u ∧ u.tab t = { s.tab t with entries := (s.tab t).entries.map (fun x => if x = e then { e with sum := List.zipWith F32.add e.sum g } else x) }) ∧
  (∀ (s : State) (t step row : Nat) (j : Job) (y : EmbUpdate),
    s.running = true →
    s.job? j.id = some j →
    j.work = .embUpdate y →
    s.sched.jobs.find? (fun j => match j.work with | .embUpdate u => decide (u.table = t) && decide (u.step = step) | _ => false) = some j →
    ∃ u, exec (.dropReport t step row) s = .next u ∧ u.work? j.id = some (.embUpdate { y with dropped := y.dropped + 1 })) ∧
  (∀ (s : State) (t : Nat) (l1 l2 : List Job) (j : Job) (c : StepClose),
    s.running = true →
    (s.time.timer && s.inWindow) = true →
    s.sched.jobs = l1 ++ j :: l2 →
    j.work = .stepClose c →
    c.table = t →
    (∀ k ∈ l1, ∀ d, k.work = .stepClose d → d.table ≠ t) →
    (∀ k ∈ l2, ∀ d, k.work = .stepClose d → d.table ≠ t) →
    j.epoch < s.now →
    c.at_ ≤ s.now →
    (s.tab t).closed.any (fun x => x.job = j.id) = false →
    (s.tab t).closed.length < 2 →
    ∃ u, exec (.stepCloseAt t) s = .next u ∧ (u.tab t).stepOpen = ((s.tab t).stepOpen + 1) % 2 ^ 32 ∧ ∃ seals, (u.tab t).closed = (s.tab t).closed ++ [{ step := (s.tab t).stepOpen, c := s.now, lr := c.lr, job := j.id, seals := seals }]) ∧
  (∀ (s : State) (t : Nat) (x : ClosedStep),
    s.running = true →
    s.fld Reg.G.MEMBER_STATE = 2 →
    (s.tab t).closed.find? (fun x => !x.sealSent) = some x →
    s.lookups.any (fun y => decide (y.2.table = t) && decide (y.1.epoch < x.c)) = false →
    ∃ u, exec (.sealSend t) s = .next u ∧ (u.tab t).closed = (s.tab t).closed.map (fun y => if y.step = x.step then { y with sealSent := true } else y) ∧ u.fabric.out.map (fun m => (m.dst, m.queue, m.body)) = s.fabric.out.map (fun m => (m.dst, m.queue, m.body)) ++ ((s.otherOwners (s.tab t).curSlot.map (s.readEmb t)).filter (fun o => !s.fabric.failed.contains o)).map (fun o => (o, 3, NetMsg.seal t x.step))) ∧
  (∀ (s : State) (src t step : Nat),
    s.running = true →
    s.fld Reg.G.MEMBER_STATE = 2 →
    s.fabric.failed.contains src = false →
    (s.tab t).st ≠ 0 →
    (s.tab t).closed.any (fun x => x.step = step) = true →
    ∃ u, exec (.sealMsg src t step) s = .next u ∧ u.tab t = { s.tab t with closed := (s.tab t).closed.map (fun x => if x.step = step then { x with seals := insNat x.seals src } else x) }) ∧
  (∀ (s : State) (src t step : Nat),
    s.running = true →
    s.fld Reg.G.MEMBER_STATE = 2 →
    s.fabric.failed.contains src = false →
    (s.tab t).st ≠ 0 →
    (s.tab t).closed.any (fun x => x.step = step) = false →
    (s.tab t).stepOpen ≤ step →
    (s.tab t).early.contains (src, step) = false →
    ∃ u, exec (.sealMsg src t step) s = .next u ∧ u.tab t = { s.tab t with early := (s.tab t).early ++ [(src, step)] })

/-- Applies, hot sets and version swaps of a table take effect.
Under the conditions named, exec of each command answers next, with a state in which the command's own effect has happened.
STEP_APPLY slice: its entries are applied and counted. NB_APPLY slice: its entries are applied and counted. HOT_REFRESH
that is due, of a set of one own row: its copy is read again. HOT_ROW_FETCH of a row of the set, with room: the copy is
added. EMB_SWAP that is due: the loaded slot is CURRENT, the one before RETIRED. -/
def Obligations.TableCommandsComplete : Prop :=
  (∀ (s u : State) (sid t n : Nat) (x : Slice) (c : ClosedStep),
    s.running = true →
    s.endSlice sid = some (x, u) →
    x.kind = .stepApply t n →
    u.readyStep t = some c →
    (∃ y ∈ (u.tab t).entries, y.step = c.step ∧ ((u.vecEntries t c).take n).contains y = false) →
    ∃ v b hot, exec (.stepApply sid) s = .next v ∧ v.tab t = { u.tab t with hot := hot, entries := (u.tab t).entries.filter (fun y => !((u.vecEntries t c).take n).contains y), closed := (u.tab t).closed.map (fun y => if y.step = c.step then { y with applied := y.applied + ((u.vecEntries t c).take n).length, poisoned := y.poisoned + b } else y) }) ∧
  (∀ (s u : State) (sid k t n : Nat) (x : Slice) (c : ClosedStep),
    s.running = true →
    s.endSlice sid = some (x, u) →
    x.kind = .nbApply k t n →
    u.readyStep t = some c →
    (∃ y ∈ (u.tab t).entries, y.step = c.step ∧ ((u.nbEntries t k c).take n).contains y = false) →
    ∃ v b hot, exec (.nbApply sid) s = .next v ∧ v.tab t = { u.tab t with hot := hot, entries := (u.tab t).entries.filter (fun y => !((u.nbEntries t k c).take n).contains y), closed := (u.tab t).closed.map (fun y => if y.step = c.step then { y with applied := y.applied + ((u.nbEntries t k c).take n).length, poisoned := y.poisoned + b } else y) }) ∧
  (∀ (s : State) (t r : Nat),
    s.running = true →
    (s.time.timer && s.inWindow) = true →
    (s.tab t).refresh ≠ 0 →
    (s.tab t).loaded + (s.tab t).refresh ≤ s.now →
    (s.tab t).hotList = [r] →
    s.owns (s.tab t).curSlot.map (s.readEmb t).shift r = true →
    (s.tab t).hot.any (fun x => x.row = r) = true →
    ∃ u, exec (.hotRefresh t) s = .next u ∧ u.tab t = { s.tab t with loaded := s.now, hot := (s.tab t).hot.map (fun x => if x.row = r then { row := r, slot := (s.tab t).cur, data := s.read (s.rowAddr (s.tab t).curSlot (s.readEmb t) r) (s.readEmb t).rowBytes, poison := s.poisoned (s.rowAddr (s.tab t).curSlot (s.readEmb t) r) (s.readEmb t).rowBytes } else x) }) ∧
  (∀ (s : State) (t slot row : Nat) (data : List Byte),
    s.running = true →
    (s.tab t).hotList.contains row = true →
    data.length = (s.readEmb t).rowBytes →
    (s.tab t).hot.any (fun x => x.row = row) = false →
    s.hotFits data.length = true →
    ∃ u, exec (.hotRowFetch t slot row data) s = .next u ∧ u.tab t = { s.tab t with hot := (s.tab t).hot ++ [{ row := row, slot := slot, data := data, poison := false }] }) ∧
  (∀ (s : State) (t : Nat) (l1 l2 : List Job) (j : Job) (x : EmbVersion),
    s.running = true →
    (s.time.timer && s.inWindow) = true →
    s.sched.jobs = l1 ++ j :: l2 →
    j.work = .embVersion x →
    x.table = t →
    (∀ k ∈ l1, ∀ d, k.work = .embVersion d → d.table ≠ t) →
    (∀ k ∈ l2, ∀ d, k.work = .embVersion d → d.table ≠ t) →
    j.epoch < s.now →
    x.swapAt ≤ s.now →
    (s.tab t).busy = false →
    x.slot ≤ 1 →
    ∃ u, exec (.embSwap t) s = .next u ∧ (u.tab t).swap = s.now ∧ ((u.tab t).slot x.slot) = { (s.tab t).slot x.slot with state := 2, since := s.now } ∧ ((u.tab t).slot (1 - x.slot)) = (if ((s.tab t).slot (1 - x.slot)).state = 2 then { (s.tab t).slot (1 - x.slot) with state := 3, since := s.now } else (s.tab t).slot (1 - x.slot)) ∧ u.job? j.id = none)

/-- Near-bank slices that end leave their job further on.
Under the conditions named, exec of each command answers next, with a state in which the command's own effect has happened.
NB_POOLING slice of one train: the train is summed, its beats are gone. NB_RUN_SLICE: the granules done, with what was
clipped or poisoned. -/
def Obligations.NearBankJobsComplete : Prop :=
  (∀ (s u : State) (sid k n : Nat) (x : Slice) (i : NbIssue) (tr : Train) (j : Job) (y : EmbShare),
    s.running = true →
    s.sched.slices.find? (fun x => x.id = sid) = some x →
    x.kind = .nbPool k n →
    (s.nbRunAll x.idx).nbStopped x.idx = true →
    (s.nbRunAll x.idx).endSlice sid = some (x, u) →
    u.issue? k = some i →
    i.trains = [tr] →
    u.embShare? tr.job = some (j, y) →
    ∃ t, exec (.nbPooling sid) s = .next t ∧ t.work? tr.job = some (.embShare { y with out := y.out - tr.rows.length, sums := y.sums ++ [{ bag := tr.bag, k := k, u := tr.tail, line := tr.scratch, count := tr.rows.length }] }) ∧ t.nb.units.all (fun z => decide (z.1 / 1024 ≠ k)) = true ∧ t.nb.lace.all (fun z => decide (z.1 / 1024 ≠ k)) = true) ∧
  (∀ (s u : State) (sid id lo m : Nat) (x : Slice) (i : NbIssue) (j : Job) (n : NbJob),
    s.running = true →
    s.sched.slices.find? (fun x => x.id = sid) = some x →
    x.kind = .nbRun id lo m →
    (s.nbRunAll x.idx).nbStopped x.idx = true →
    (s.nbRunAll x.idx).endSlice sid = some (x, u) →
    u.nbJob? id = some (j, n) →
    u.issue? n.k = some i →
    i.job = id →
    (u.unitsOf n.k).any (fun v => (u.unit? n.k v).any (fun x => x.bad)) = false →
    m + (n.done.map (fun x => x.2)).sum ≠ n.runs →
    ∃ t, exec (.nbRunSlice sid) s = .next t ∧ t.work? id = some (.nbRun { n with done := (lo, m) :: n.done, clipped := n.clipped + i.clipped, poisoned := n.poisoned + i.poisoned, loadedPoison := n.loadedPoison || i.loadedPoison, committed := i.committed.foldl insNat n.committed }))

/-- NOP, END, SET, LOOP and BR of a near-bank unit.
Under the conditions named, exec of each command answers next, with a state in which the command's own effect has happened.
NOP: the next instruction. END of the last granule: the unit stops. END with granules left: the next one starts at instruction
0 with its addresses. SET: the scalar register takes the 20 bits. LOOP: the counter falls by one and the unit jumps, or
it is 0 and the unit goes on. BR: the unit jumps always or on TAIL. -/
def Obligations.UnitControlInstructions : Prop :=
  (∀ (s : State) (k u w : Nat) (x : NbUnit) (i : NbIssue),
    s.running = true →
    s.nbWord k u = some (x, i, w) →
    nbOp w = 0 →
    ∃ t, exec (.nop k u) s = .next t ∧ t.unit? k u = some (x.after w x.regs.next)) ∧
  (∀ (s : State) (k u w : Nat) (x : NbUnit) (i : NbIssue),
    s.running = true →
    s.nbWord k u = some (x, i, w) →
    nbOp w = 1 →
    x.left = [] →
    ∃ t, exec (.endI k u) s = .next t ∧ t.unit? k u = some { x.stitched with on := false }) ∧
  (∀ (s : State) (k u w : Nat) (x : NbUnit) (i : NbIssue) (g : NbGran) (gs : List NbGran),
    s.running = true →
    s.nbWord k u = some (x, i, w) →
    nbOp w = 1 →
    x.left = g :: gs →
    ∃ t y, exec (.endI k u) s = .next t ∧ t.unit? k u = some y ∧ y.on = true ∧ y.regs.pc = 0 ∧ y.left = gs ∧ y.src = g.src ∧ y.dst = [(g.d, g.n)] ∧ y.buf = [] ∧ y.regs.scalar 0 = 4 * g.a ∧ y.regs.scalar 3 = 4 * g.d ∧ y.regs.scalar 4 = g.n) ∧
  (∀ (s : State) (k u w : Nat) (x : NbUnit) (i : NbIssue),
    s.running = true →
    s.nbWord k u = some (x, i, w) →
    nbOp w = 2 →
    ∃ t, exec (.set k u) s = .next t ∧ t.unit? k u = some (x.after w (x.regs.setScalar (nbD w) (fieldOf w 0 20)).next)) ∧
  (∀ (s : State) (k u w : Nat) (x : NbUnit) (i : NbIssue),
    s.running = true →
    s.nbWord k u = some (x, i, w) →
    nbOp w = 12 →
    4 ≤ nbD w →
    x.regs.scalar (nbD w) < 2 ^ 16 →
    ∃ t, exec (.loop k u) s = .next t ∧ t.unit? k u = some (x.after w (if x.regs.scalar (nbD w) = 1 then (x.regs.setScalar (nbD w) 0).next else { x.regs.setScalar (nbD w) ((x.regs.scalar (nbD w) + 65535) % 65536) with pc := nbW w }))) ∧
  (∀ (s : State) (k u w : Nat) (x : NbUnit) (i : NbIssue),
    s.running = true →
    s.nbWord k u = some (x, i, w) →
    nbOp w = 13 →
    nbFmt w ≤ 1 →
    ∃ t, exec (.br k u) s = .next t ∧ t.unit? k u = some (x.after w (if nbFmt w = 0 ∨ x.regs.tail = true then { x.regs with pc := nbW w } else { x.regs with pc := x.regs.pc + 1 })))

/-- LDW, LDE, LD and LACC of a near-bank unit.
Under the conditions named, exec of each command answers next, with a state in which the command's own effect has happened.
LDW of a scalar register: the data word, or its high half. LDW of a vector register: the word in every lane. LDE of an
entry without TAIL: its address and its train. LDE of an entry with TAIL: also the output line. LD inside the windows:
the vector register takes the line. LD outside the windows: the unit stops. LACC with its beat there: the sum goes on to
the next unit. LACC at the tail: the sum goes into the write buffer. -/
def Obligations.UnitLoads : Prop :=
  (∀ (s : State) (k u w : Nat) (x : NbUnit) (i : NbIssue),
    s.running = true →
    s.nbWord k u = some (x, i, w) →
    nbOp w = 3 →
    (i.kind ≠ 1 ∨ Config.ldwVector w = false) →
    ∃ t, exec (.ldw k u) s = .next t ∧ t.unit? k u = some (x.after w (x.regs.setScalar (nbD w) (if nbD w < 4 then x.word s.freshCount (nbW w) else if bitOf w 8 then x.word s.freshCount (nbW w) / 2 ^ 16 else x.word s.freshCount (nbW w))).next)) ∧
  (∀ (s : State) (k u w : Nat) (x : NbUnit) (i : NbIssue),
    s.running = true →
    s.nbWord k u = some (x, i, w) →
    nbOp w = 3 →
    i.kind = 1 →
    Config.ldwVector w = true →
    ∃ t, exec (.ldw k u) s = .next t ∧ t.unit? k u = some (x.after w (x.regs.setVec (nbD w) { lanes := List.replicate 16 (BitVec.ofNat 32 (x.word s.freshCount (nbW w))), poison := false }).next)) ∧
  (∀ (s : State) (k u w e : Nat) (x : NbUnit) (i : NbIssue),
    s.running = true →
    s.nbWord k u = some (x, i, w) →
    nbOp w = 4 →
    x.word s.freshCount (x.regs.scalar (nbA w)) = e →
    bitOf e 31 = false →
    ∃ t, exec (.lde k u) s = .next t ∧ t.unit? k u = some (x.after w ({ ((x.regs.setScalar (nbA w) (x.regs.scalar (nbA w) + 1)).setScalar (nbD w) (4 * fieldOf e 0 20)) with train := some (fieldOf e 20 10), tail := false } : NbRegs).next)) ∧
  (∀ (s : State) (k u w e : Nat) (x : NbUnit) (i : NbIssue),
    s.running = true →
    s.nbWord k u = some (x, i, w) →
    nbOp w = 4 →
    x.word s.freshCount (x.regs.scalar (nbA w)) = e →
    bitOf e 31 = true →
    ∃ t, exec (.lde k u) s = .next t ∧ t.unit? k u = some (x.after w ((({ ((x.regs.setScalar (nbA w) (x.regs.scalar (nbA w) + 2)).setScalar (nbD w) (4 * fieldOf e 0 20)) with train := some (fieldOf e 20 10), tail := true } : NbRegs).setScalar 3 (4 * x.word s.freshCount (x.regs.scalar (nbA w) + 1))).next))) ∧
  (∀ (s : State) (k u e w : Nat) (x : NbUnit) (i : NbIssue),
    s.running = true →
    s.nbWord k u = some (x, i, w) →
    nbOp w = 5 →
    i.fmt (nbFmt w) < 4 →
    (nbLines (x.regs.scalar (nbA w)) (nbLoadBytes (i.fmt (nbFmt w)))).all x.inSrc = true →
    ∃ t, exec (.ld k u e) s = .next t ∧ t.unit? k u = some (x.after w ((nbInc w (nbLoadBytes (i.fmt (nbFmt w))) x.regs).setVec (nbD w) (s.nbLoad k u x (i.fmt (nbFmt w)) (x.regs.scalar (nbA w)) e)).next)) ∧
  (∀ (s : State) (k u e w : Nat) (x : NbUnit) (i : NbIssue),
    s.running = true →
    s.nbWord k u = some (x, i, w) →
    nbOp w = 5 →
    i.fmt (nbFmt w) < 4 →
    (nbLines (x.regs.scalar (nbA w)) (nbLoadBytes (i.fmt (nbFmt w)))).all x.inSrc = false →
    ∃ t, exec (.ld k u e) s = .next t ∧ t.unit? k u = some { x with on := false, bad := true, buf := [], sent := [] }) ∧
  (∀ (s : State) (k u e w : Nat) (x : NbUnit) (i : NbIssue) (b : NbBeat),
    s.running = true →
    s.nbWord k u = some (x, i, w) →
    nbOp w = 11 →
    i.fmt (nbFmt w) < 4 →
    x.inbox.find? (fun b => x.regs.train = some b.train) = some b →
    (nbLines (x.regs.scalar (nbA w)) (nbLoadBytes (i.fmt (nbFmt w)))).all x.inSrc = true →
    x.regs.tail = false →
    ∃ t v, exec (.lacc k u e) s = .next t ∧ v = s.nbLoad k u x (i.fmt (nbFmt w)) (x.regs.scalar (nbA w)) e ∧ t.unit? k u = some (({ x with inbox := x.inbox.erase b, consumed := x.consumed ++ [b], sent := x.sent ++ [{ b with vals := List.zipWith F32.add b.vals v.lanes, poison := b.poison || v.poison }] } : NbUnit).after w ((nbInc w (nbLoadBytes (i.fmt (nbFmt w))) x.regs).setVec (nbD w) { lanes := List.zipWith F32.add b.vals v.lanes, poison := b.poison || v.poison }).next)) ∧
  (∀ (s : State) (k u e w : Nat) (x : NbUnit) (i : NbIssue) (b : NbBeat),
    s.running = true →
    s.nbWord k u = some (x, i, w) →
    nbOp w = 11 →
    i.fmt (nbFmt w) < 4 →
    x.inbox.find? (fun b => x.regs.train = some b.train) = some b →
    (nbLines (x.regs.scalar (nbA w)) (nbLoadBytes (i.fmt (nbFmt w)))).all x.inSrc = true →
    x.regs.tail = true →
    x.inDst (x.regs.scalar 3 / 4) = true →
    ∃ t v r, exec (.lacc k u e) s = .next t ∧ v = s.nbLoad k u x (i.fmt (nbFmt w)) (x.regs.scalar (nbA w)) e ∧ r = (nbInc w (nbLoadBytes (i.fmt (nbFmt w))) x.regs).setVec (nbD w) { lanes := List.zipWith F32.add b.vals v.lanes, poison := b.poison || v.poison } ∧ t.unit? k u = some ((({ x with inbox := x.inbox.erase b, consumed := x.consumed ++ [b], regs := r } : NbUnit).buffered { line := x.regs.scalar 3 / 4, data := (List.zipWith F32.add b.vals v.lanes).flatMap (fun e => leBytes 4 e.toNat), poison := b.poison || v.poison }).after w (r.setScalar 3 (r.scalar 3 + 4)).next))

/-- ST, ADD, MUL, FMA and ACT of a near-bank unit.
Under the conditions named, exec of each command answers next, with a state in which the command's own effect has happened.
ST inside the windows: the write buffer takes the line. ADD: the lane sums. MUL: the lane products. FMA: lane products
and sums. ACT: the lane function, for each of the 16 lanes. -/
def Obligations.UnitArithmetic : Prop :=
  (∀ (s : State) (k u w : Nat) (x : NbUnit) (i : NbIssue),
    s.running = true →
    s.nbWord k u = some (x, i, w) →
    nbOp w = 6 →
    i.fmt (nbFmt w) < 4 →
    x.inDst (x.regs.scalar (nbA w) / 4) = true →
    ∃ t b, exec (.st k u) s = .next t ∧ t.unit? k u = some ((x.buffered b).after w (nbInc w 64 x.regs).next) ∧ b.line = x.regs.scalar (nbA w) / 4 ∧ b.data = (((List.range (nbStoreRegs (i.fmt (nbFmt w)))).flatMap (fun j => (x.regs.vec (nbD w + j)).lanes)).flatMap (fun v => (nbEncode s.freshCount (i.fmt (nbFmt w)) v).1)) ∧ b.poison = (List.range (nbStoreRegs (i.fmt (nbFmt w)))).any (fun j => (x.regs.vec (nbD w + j)).poison)) ∧
  (∀ (s : State) (k u w : Nat) (x : NbUnit) (i : NbIssue),
    s.running = true →
    s.nbWord k u = some (x, i, w) →
    nbOp w = 7 →
    ∃ t, exec (.add k u) s = .next t ∧ t.unit? k u = some (x.after w (x.regs.setVec (nbD w) { lanes := List.zipWith F32.add (x.regs.vec (nbA w)).lanes (x.regs.vec (nbB w)).lanes, poison := (x.regs.vec (nbA w)).poison || (x.regs.vec (nbB w)).poison }).next)) ∧
  (∀ (s : State) (k u w : Nat) (x : NbUnit) (i : NbIssue),
    s.running = true →
    s.nbWord k u = some (x, i, w) →
    nbOp w = 8 →
    ∃ t, exec (.mul k u) s = .next t ∧ t.unit? k u = some (x.after w (x.regs.setVec (nbD w) { lanes := List.zipWith F32.mul (x.regs.vec (nbA w)).lanes (x.regs.vec (nbB w)).lanes, poison := (x.regs.vec (nbA w)).poison || (x.regs.vec (nbB w)).poison }).next)) ∧
  (∀ (s : State) (k u w : Nat) (x : NbUnit) (i : NbIssue),
    s.running = true →
    s.nbWord k u = some (x, i, w) →
    nbOp w = 9 →
    ∃ t, exec (.fma k u) s = .next t ∧ t.unit? k u = some (x.after w (x.regs.setVec (nbD w) { lanes := (List.range 16).map (fun l => F32.fma ((x.regs.vec (nbA w)).lanes.getD l 0#32) ((x.regs.vec (nbB w)).lanes.getD l 0#32) ((x.regs.vec (nbC w)).lanes.getD l 0#32)), poison := (x.regs.vec (nbA w)).poison || (x.regs.vec (nbB w)).poison || (x.regs.vec (nbC w)).poison }).next)) ∧
  (∀ (s : State) (k u w : Nat) (x : NbUnit) (i : NbIssue),
    s.running = true →
    s.nbWord k u = some (x, i, w) →
    nbOp w = 10 →
    nbFmt w < 5 →
    ∃ t v, exec (.act k u) s = .next t ∧ t.unit? k u = some (x.after w (x.regs.setVec (nbD w) v).next) ∧ v.poison = ((x.regs.vec (nbA w)).poison || (decide (nbFmt w = 1) && ((x.regs.vec (nbB w)).poison || (x.regs.vec (nbC w)).poison))) ∧ v.lanes.length = 16 ∧ ∀ l, l < 16 → v.lanes[l]? = nbAct (nbFmt w) ((x.regs.vec (nbA w)).lanes.getD l 0#32) ((x.regs.vec (nbB w)).lanes.getD l 0#32) ((x.regs.vec (nbC w)).lanes.getD l 0#32))

/-- Lace beats, refreshes and forced preemptions of a near-bank unit.
Under the conditions named, exec of each command answers next, with a state in which the command's own effect has happened.
LACE_BEAT at the unit of its train: into the inbox. LACE_BEAT of another train: on to the next unit. LACE_BEAT that finds
no room: nothing moves. BANK_REFRESH of a unit at a stitch point: it passes one. BANK_REFRESH of a busy unit: due. FORCED_PREEMPTION:
the unit is back at its last stitch point, and it is counted. -/
def Obligations.UnitEvents : Prop :=
  (∀ (s : State) (k u train : Nat) (vals : List F32) (poison : Bool) (x : NbUnit) (l : List NbBeat),
    s.running = true →
    s.beats k u = ⟨train, vals, poison⟩ :: l →
    s.unit? k u = some x →
    x.on = true →
    x.regs.train = some train →
    x.inbox.length < 4 →
    ∃ t, exec (.laceBeat k u train vals poison) s = .next t ∧ t.unit? k u = some { x with inbox := x.inbox ++ [⟨train, vals, poison⟩] } ∧ t.beats k u = l) ∧
  (∀ (s : State) (k u v train : Nat) (vals : List F32) (poison : Bool) (l : List NbBeat),
    s.running = true →
    k < 4 →
    u < 1024 →
    s.beats k u = ⟨train, vals, poison⟩ :: l →
    (∀ x, s.unit? k u = some x → x.on = false ∨ x.regs.train ≠ some train) →
    s.nextUnit k u = some v →
    ∃ t, exec (.laceBeat k u train vals poison) s = .next t ∧ t.beats k u = l ∧ t.beats k v = s.beats k v ++ [⟨train, vals, poison⟩]) ∧
  (∀ (s : State) (k u train : Nat) (vals : List F32) (poison : Bool) (x : NbUnit) (l : List NbBeat),
    s.beats k u = ⟨train, vals, poison⟩ :: l →
    s.unit? k u = some x →
    x.on = true →
    x.regs.train = some train →
    4 ≤ x.inbox.length →
    exec (.laceBeat k u train vals poison) s = .next s) ∧
  (∀ (s : State) (k u w : Nat) (x : NbUnit) (i : NbIssue),
    s.running = true →
    s.nbWord k u = some (x, i, w) →
    nbOp w = 11 →
    x.inbox.any (fun b => x.regs.train = some b.train) = false →
    ∃ t, exec (.bankRefresh k u) s = .next t ∧ t.unit? k u = some x.stitched) ∧
  (∀ (s : State) (k u w : Nat) (x : NbUnit) (i : NbIssue),
    s.running = true →
    s.nbWord k u = some (x, i, w) →
    nbOp w ≠ 11 →
    ∃ t, exec (.bankRefresh k u) s = .next t ∧ t.unit? k u = some { x with refreshDue := true }) ∧
  (∀ (s : State) (k u : Nat) (x : NbUnit),
    s.running = true →
    s.unit? k u = some x →
    x.on = true →
    x.refreshDue = true →
    ∃ t, exec (.forcedPreemption k u) s = .next t ∧ t.unit? k u = some { x with buf := [], sent := [], inbox := x.consumed ++ x.inbox, consumed := [], regs := x.snap, refreshDue := false } ∧ t.fld (Reg.KS.FORCED_PREEMPTS k) = (s.fld (Reg.KS.FORCED_PREEMPTS k) + 1) % 2 ^ 32)
end

