-- ==== Sys2Proof/Laws/Sparse.lean ====
section
/-! SUPPORT. The laws of the sparse maps: what a write changes, and that every operation keeps the canonical form. -/

namespace Sys2Proof

variable {β : Type}

theorem SMap.wfFrom_mono [DecidableEq β] {d : Nat → β} {m : SMap β} {a b : Nat} (hab : a ≤ b) (h : SMap.wfFrom d b m = true) :
    SMap.wfFrom d a m = true := by
  cases m with
  | nil => rfl
  | cons p t => simp only [SMap.wfFrom, Bool.and_eq_true, decide_eq_true_eq] at h ⊢; exact ⟨⟨by omega, h.1.2⟩, h.2⟩

theorem SMap.ins_wfFrom [DecidableEq β] {d : Nat → β} {a : Nat} {v : β} (hv : v ≠ d a) :
    ∀ {m : SMap β} {lo : Nat}, lo ≤ a → (∀ w, (a, w) ∉ m) → SMap.wfFrom d lo m = true → SMap.wfFrom d lo (SMap.ins m a v) = true
  | [], lo, hlo, _, _ => by simp [SMap.ins, SMap.wfFrom, hlo, hv]
  | (k, w) :: t, lo, hlo, hn, h => by
    simp only [SMap.wfFrom, Bool.and_eq_true, decide_eq_true_eq] at h
    have hk : a ≠ k := fun e => hn w (by simp [e])
    simp only [SMap.ins]
    split
    · simp only [SMap.wfFrom, Bool.and_eq_true, decide_eq_true_eq]
      exact ⟨⟨hlo, hv⟩, ⟨by omega, h.1.2⟩, h.2⟩
    · simp only [SMap.wfFrom, Bool.and_eq_true, decide_eq_true_eq]
      exact ⟨h.1, SMap.ins_wfFrom hv (by omega) (fun w' hw => hn w' (List.mem_cons_of_mem _ hw)) h.2⟩

theorem SMap.del_wfFrom [DecidableEq β] {d : Nat → β} {a : Nat} :
    ∀ {m : SMap β} {lo : Nat}, SMap.wfFrom d lo m = true → SMap.wfFrom d lo (SMap.del m a) = true
  | [], _, h => h
  | (k, w) :: t, lo, h => by
    simp only [SMap.wfFrom, Bool.and_eq_true, decide_eq_true_eq] at h
    simp only [SMap.del]
    split
    · exact SMap.del_wfFrom (SMap.wfFrom_mono (by omega) h.2)
    · simp only [SMap.wfFrom, Bool.and_eq_true, decide_eq_true_eq]
      exact ⟨h.1, SMap.del_wfFrom h.2⟩

theorem SMap.not_mem_del (a : Nat) : ∀ (m : SMap β) (w : β), (a, w) ∉ SMap.del m a
  | [], _ => by simp [SMap.del]
  | (k, v) :: t, w => by
    simp only [SMap.del]
    split
    · exact SMap.not_mem_del a t w
    · rename_i hk
      intro h
      rcases List.mem_cons.mp h with h | h
      · exact hk (by simpa using (congrArg Prod.fst h).symm)
      · exact SMap.not_mem_del a t w h

/-- A write keeps the canonical form. -/
theorem SMap.set_wf [DecidableEq β] {d : Nat → β} {m : SMap β} {a : Nat} {v : β} (h : SMap.wf d m = true) :
    SMap.wf d (SMap.set d m a v) = true := by
  unfold SMap.set
  split
  · exact SMap.del_wfFrom h
  · exact SMap.ins_wfFrom (by assumption) (Nat.zero_le _) (SMap.not_mem_del a m) (SMap.del_wfFrom h)

/-- Dropping entries keeps the canonical form. -/
theorem SMap.filter_wfFrom [DecidableEq β] {d : Nat → β} {p : Nat × β → Bool} :
    ∀ {m : SMap β} {lo : Nat}, SMap.wfFrom d lo m = true → SMap.wfFrom d lo (m.filter p) = true
  | [], _, h => h
  | (k, w) :: t, lo, h => by
    simp only [SMap.wfFrom, Bool.and_eq_true, decide_eq_true_eq] at h
    simp only [List.filter]
    split
    · simp only [SMap.wfFrom, Bool.and_eq_true, decide_eq_true_eq]
      exact ⟨h.1, SMap.filter_wfFrom h.2⟩
    · exact SMap.filter_wfFrom (SMap.wfFrom_mono (by omega) h.2)

theorem SMap.filter_wf [DecidableEq β] {d : Nat → β} {m : SMap β} {p : Nat × β → Bool} (h : SMap.wf d m = true) :
    SMap.wf d (m.filter p) = true := SMap.filter_wfFrom h

theorem SMap.get_ins_same {d : Nat → β} (a : Nat) (v : β) : ∀ m : SMap β, (∀ w, (a, w) ∉ m) → SMap.get d (SMap.ins m a v) a = v
  | [], _ => by simp [SMap.ins, SMap.get]
  | (k, w) :: t, hn => by
    have hk : k ≠ a := fun e => hn w (by simp [e])
    simp only [SMap.ins]
    split
    · simp [SMap.get]
    · simp only [SMap.get, hk, if_false]
      exact SMap.get_ins_same a v t (fun w' hw => hn w' (List.mem_cons_of_mem _ hw))

theorem SMap.get_ins_other {d : Nat → β} {a b : Nat} (v : β) (hab : b ≠ a) :
    ∀ m : SMap β, SMap.get d (SMap.ins m a v) b = SMap.get d m b
  | [] => by simp [SMap.ins, SMap.get, Ne.symm hab]
  | (k, w) :: t => by
    simp only [SMap.ins]
    split
    · simp [SMap.get, Ne.symm hab]
    · simp only [SMap.get]
      rw [SMap.get_ins_other v hab t]

theorem SMap.get_del_same {d : Nat → β} (a : Nat) : ∀ m : SMap β, SMap.get d (SMap.del m a) a = d a
  | [] => rfl
  | (k, w) :: t => by
    simp only [SMap.del]
    split
    · exact SMap.get_del_same a t
    · rename_i hk
      simp only [SMap.get, hk, if_false]
      exact SMap.get_del_same a t

theorem SMap.get_del_other {d : Nat → β} {a b : Nat} (hab : b ≠ a) :
    ∀ m : SMap β, SMap.get d (SMap.del m a) b = SMap.get d m b
  | [] => rfl
  | (k, w) :: t => by
    simp only [SMap.del]
    split
    · rename_i hk
      rw [SMap.get_del_other hab t]
      simp only [SMap.get]
      rw [if_neg (by rw [hk]; exact Ne.symm hab)]
    · simp only [SMap.get]
      rw [SMap.get_del_other hab t]

/-- Reading where a write went gives what was written. -/
@[simp] theorem SMap.get_set_same [DecidableEq β] {d : Nat → β} (m : SMap β) (a : Nat) (v : β) :
    SMap.get d (SMap.set d m a v) a = v := by
  unfold SMap.set
  split
  · rename_i h
    rw [SMap.get_del_same, h]
  · exact SMap.get_ins_same a v _ (SMap.not_mem_del a m)

/-- A write leaves every other place alone. -/
theorem SMap.get_set_other [DecidableEq β] {d : Nat → β} (m : SMap β) {a b : Nat} (v : β) (hab : b ≠ a) :
    SMap.get d (SMap.set d m a v) b = SMap.get d m b := by
  unfold SMap.set
  split
  · exact SMap.get_del_other hab m
  · rw [SMap.get_ins_other v hab, SMap.get_del_other hab]

end Sys2Proof

namespace Sys2Proof.Machine

open Sys2Proof

theorem listBytes_wfFrom : ∀ (data : List Byte) (a lo : Nat), lo ≤ a → SMap.wfFrom byteDefault lo (listBytes a data) = true
  | [], _, _, _ => rfl
  | b :: t, a, lo, h => by
    simp only [listBytes]
    split
    · exact listBytes_wfFrom t (a + 1) lo (by omega)
    · rename_i hb
      simp only [SMap.wfFrom, Bool.and_eq_true, decide_eq_true_eq]
      exact ⟨⟨h, hb⟩, listBytes_wfFrom t (a + 1) (a + 1) (Nat.le_refl _)⟩

/-- Two canonical runs, the second wholly past the first, join to one. -/
theorem wfFrom_append {β : Type} [DecidableEq β] {d : Nat → β} {y : SMap β} {b : Nat} (hy : SMap.wfFrom d b y = true) :
    ∀ {x : SMap β} {lo : Nat}, lo ≤ b → (∀ p ∈ x, p.1 < b) → SMap.wfFrom d lo x = true → SMap.wfFrom d lo (x ++ y) = true
  | [], _, hlo, _, _ => SMap.wfFrom_mono hlo hy
  | (k, w) :: t, lo, _, hb, h => by
    simp only [SMap.wfFrom, Bool.and_eq_true, decide_eq_true_eq, List.cons_append] at h ⊢
    have hk : k < b := hb (k, w) (by simp)
    exact ⟨h.1, wfFrom_append hy (by omega) (fun p hp => hb p (List.mem_cons_of_mem _ hp)) h.2⟩

theorem listBytes_range : ∀ (data : List Byte) (a : Nat), ∀ p ∈ listBytes a data, a ≤ p.1 ∧ p.1 < a + data.length
  | [], _, p, hp => by simp [listBytes] at hp
  | b :: t, a, p, hp => by
    simp only [listBytes] at hp
    split at hp
    · have := listBytes_range t (a + 1) p hp
      simp only [List.length_cons]; omega
    · rcases List.mem_cons.mp hp with h | h
      · subst h; simp
      · have := listBytes_range t (a + 1) p h
        simp only [List.length_cons]; omega

theorem wfFrom_filter_ge {β : Type} [DecidableEq β] {d : Nat → β} {b : Nat} :
    ∀ {m : SMap β} {lo : Nat}, SMap.wfFrom d lo m = true → SMap.wfFrom d b (m.filter (fun x => decide (b ≤ x.1))) = true
  | [], _, _ => rfl
  | (k, w) :: t, lo, h => by
    simp only [SMap.wfFrom, Bool.and_eq_true, decide_eq_true_eq] at h
    simp only [List.filter]
    split
    · rename_i hk
      simp only [SMap.wfFrom, Bool.and_eq_true, decide_eq_true_eq]
      exact ⟨⟨by simpa using hk, h.1.2⟩, SMap.filter_wfFrom h.2⟩
    · exact wfFrom_filter_ge h.2

/-- Writing a run of bytes keeps the canonical form. -/
theorem putBytes_wf {m : SMap Byte} {a : Nat} {data : List Byte} (h : SMap.wf byteDefault m = true) :
    SMap.wf byteDefault (putBytes m a data) = true := by
  unfold putBytes
  refine wfFrom_append (b := a + data.length) (wfFrom_filter_ge h) (Nat.zero_le _) ?_ ?_
  · intro p hp
    rcases List.mem_append.mp hp with hp | hp
    · have : p.1 < a := by simpa using (List.mem_filter.mp hp).2
      omega
    · exact (listBytes_range data a p hp).2
  · refine wfFrom_append (b := a) (listBytes_wfFrom data a a (Nat.le_refl _)) (Nat.zero_le _) ?_ (SMap.filter_wfFrom h)
    intro p hp
    simpa using (List.mem_filter.mp hp).2

theorem putAll_wf {β : Type} [DecidableEq β] {d : Nat → β} {v : β} : ∀ {ls : List Nat} {m : SMap β}, SMap.wf d m = true →
    SMap.wf d (putAll d v m ls) = true
  | [], _, h => h
  | l :: t, m, h => by
    rw [putAll]
    exact putAll_wf (SMap.set_wf h)

theorem Memory.wf_iff {m : MemSt} : Memory.wf m = true ↔
    SMap.wf byteDefault m.bytes = true ∧ SMap.wf poisonDefault m.poison = true ∧ SMap.wf metaDefault m.meta_ = true := by
  simp [Memory.wf, and_assoc]

/-- A write keeps memory canonical. -/
theorem MemSt.write_wf {m : MemSt} {a : Nat} {data : List Byte} {dom nb : Nat} (h : Memory.wf m = true) :
    Memory.wf (m.write a data dom nb) = true := by
  rw [Memory.wf_iff] at h ⊢
  exact ⟨putBytes_wf h.1, putAll_wf h.2.1, putAll_wf h.2.2⟩

/-- Poisoning a line keeps memory canonical. -/
theorem MemSt.poisonLine_wf {m : MemSt} {l dom : Nat} (h : Memory.wf m = true) : Memory.wf (m.poisonLine l dom) = true := by
  have h' := Memory.wf_iff.mp (MemSt.write_wf (a := 64 * l) (data := List.replicate 64 0#8) (dom := dom) (nb := 0) h)
  rw [Memory.wf_iff]
  refine ⟨h'.1, ?_, h'.2.2⟩
  exact SMap.set_wf (a := l) (v := true) h'.2.1

/-- A byte read through the entries of a run. -/
theorem get_listBytes_out (data : List Byte) : ∀ (a b : Nat), (b < a ∨ a + data.length ≤ b) → SMap.get byteDefault (listBytes a data) b = 0#8 := by
  induction data with
  | nil => intro a b _; rfl
  | cons x t ih =>
    intro a b h
    simp only [List.length_cons] at h
    simp only [listBytes]
    split
    · exact ih (a + 1) b (by omega)
    · simp only [SMap.get]
      rw [if_neg (by omega)]
      exact ih (a + 1) b (by omega)

theorem get_listBytes_in (data : List Byte) : ∀ (a i : Nat) (h : i < data.length),
    SMap.get byteDefault (listBytes a data) (a + i) = data[i] := by
  induction data with
  | nil => intro a i h; simp at h
  | cons x t ih =>
    intro a i h
    cases i with
    | zero =>
      simp only [listBytes, Nat.add_zero]
      split
      · rename_i hx
        rw [get_listBytes_out t (a + 1) a (by omega)]
        simp [hx, byteDefault]
      · simp [SMap.get]
    | succ i =>
      simp only [List.length_cons] at h
      simp only [listBytes]
      have e : a + (i + 1) = (a + 1) + i := by omega
      split
      · rw [e, ih (a + 1) i (by omega)]; simp
      · simp only [SMap.get]
        rw [if_neg (by omega), e, ih (a + 1) i (by omega)]; simp

theorem get_append {β : Type} {d : Nat → β} {a : Nat} : ∀ (x y : SMap β), (∀ p ∈ x, p.1 ≠ a) → SMap.get d (x ++ y) a = SMap.get d y a
  | [], _, _ => rfl
  | (k, w) :: t, y, h => by
    simp only [List.cons_append, SMap.get]
    rw [if_neg (h (k, w) (by simp))]
    exact get_append t y (fun p hp => h p (List.mem_cons_of_mem _ hp))

theorem get_append_left {β : Type} {d : Nat → β} {a : Nat} : ∀ (x y : SMap β), (∀ p ∈ y, p.1 ≠ a) → SMap.get d (x ++ y) a = SMap.get d x a
  | [], y, h => by
    induction y with
    | nil => rfl
    | cons p t ih =>
      simp only [List.nil_append, SMap.get] at ih ⊢
      rw [if_neg (h p (by simp))]
      exact ih (fun q hq => h q (List.mem_cons_of_mem _ hq))
  | (k, w) :: t, y, h => by
    simp only [List.cons_append, SMap.get]
    rw [get_append_left t y h]

theorem get_filter_keep {β : Type} {d : Nat → β} {a : Nat} (p : Nat → Bool) (hp : p a = true) :
    ∀ m : SMap β, SMap.get d (m.filter (fun x => p x.1)) a = SMap.get d m a
  | [] => rfl
  | (k, w) :: t => by
    simp only [List.filter]
    split
    · simp only [SMap.get]
      rw [get_filter_keep p hp t]
    · rename_i hk
      simp only [SMap.get]
      have hka : k ≠ a := by
        intro e
        have h2 : p k = true := by rw [e]; exact hp
        rw [h2] at hk
        cases hk
      rw [if_neg hka, get_filter_keep p hp t]

/-- A write of a run leaves every byte outside it as it was. -/
theorem get_putBytes_out (m : SMap Byte) (a : Nat) (data : List Byte) (b : Nat) (h : b < a ∨ a + data.length ≤ b) :
    SMap.get byteDefault (putBytes m a data) b = SMap.get byteDefault m b := by
  unfold putBytes
  rcases h with h | h
  · rw [get_append_left _ _ (by intro p hp; have : a + data.length ≤ p.1 := by simpa using (List.mem_filter.mp hp).2
                                omega),
      get_append_left _ _ (by intro p hp; have := listBytes_range data a p hp; omega)]
    exact get_filter_keep (fun x => decide (x < a)) (by simpa using h) m
  · rw [get_append _ _ (by
      intro p hp
      rcases List.mem_append.mp hp with hp | hp
      · have : p.1 < a := by simpa using (List.mem_filter.mp hp).2
        omega
      · have := listBytes_range data a p hp; omega)]
    exact get_filter_keep (fun x => decide (a + data.length ≤ x)) (by simpa using h) m

/-- A write of a run stands where it went. -/
theorem get_putBytes_in (m : SMap Byte) (a : Nat) (data : List Byte) (i : Nat) (h : i < data.length) :
    SMap.get byteDefault (putBytes m a data) (a + i) = data[i] := by
  unfold putBytes
  rw [get_append_left _ _ (by intro p hp; have : a + data.length ≤ p.1 := by simpa using (List.mem_filter.mp hp).2
                              omega),
    get_append _ _ (by intro p hp; have : p.1 < a := by simpa using (List.mem_filter.mp hp).2
                       omega)]
  exact get_listBytes_in data a i h

/-- A byte outside a write stays. -/
theorem MemSt.byte_write_out (m : MemSt) (a : Nat) (data : List Byte) (dom nb b : Nat) (h : b < a ∨ a + data.length ≤ b) :
    (m.write a data dom nb).byte b = m.byte b := get_putBytes_out m.bytes a data b h

/-- A byte of a write is the one written. -/
theorem MemSt.byte_write_in (m : MemSt) (a : Nat) (data : List Byte) (dom nb i : Nat) (h : i < data.length) :
    (m.write a data dom nb).byte (a + i) = data[i] := get_putBytes_in m.bytes a data i h

end Sys2Proof.Machine
end

