-- ==== Sys2Proof/Laws/Agree.lean ====
section
/-! SUPPORT. What an operation may touch: the areas of the state it writes, and that it keeps the maps canonical and never
takes a free index back. Every later frame rests on these. -/

namespace Sys2Proof.Machine

open Sys2Proof

/-- `t` comes from `s` by writes to the areas of `L` alone, which keep the maps canonical. -/
structure Agree (L : List Area) (s t : State) : Prop where
  pending_eq : Area.pending ∉ L → t.pending = s.pending
  freshCount_eq : Area.freshCount ∉ L → t.freshCount = s.freshCount
  power_eq : Area.power ∉ L → t.power = s.power
  time_eq : Area.time ∉ L → t.time = s.time
  regs_eq : Area.regs ∉ L → t.regs = s.regs
  latches_eq : Area.latches ∉ L → t.latches = s.latches
  heldMsgs_eq : Area.heldMsgs ∉ L → t.heldMsgs = s.heldMsgs
  linkOut_eq : Area.linkOut ∉ L → t.linkOut = s.linkOut
  mem_eq : Area.mem ∉ L → t.mem = s.mem
  rings_eq : Area.rings ∉ L → t.rings = s.rings
  sched_eq : Area.sched ∉ L → t.sched = s.sched
  colls_eq : Area.colls ∉ L → t.colls = s.colls
  parts_eq : Area.parts ∉ L → t.parts = s.parts
  pages_eq : Area.pages ∉ L → t.pages = s.pages
  ras_eq : Area.ras ∉ L → t.ras = s.ras
  boot_eq : Area.boot ∉ L → t.boot = s.boot
  fabric_eq : Area.fabric ∉ L → t.fabric = s.fabric
  flash_eq : Area.flash ∉ L → t.flash = s.flash
  link_eq : Area.link ∉ L → t.link = s.link
  attn_eq : Area.attn ∉ L → t.attn = s.attn
  emb_eq : Area.emb ∉ L → t.emb = s.emb
  nb_eq : Area.nb ∉ L → t.nb = s.nb
  fresh_le : s.freshCount ≤ t.freshCount
  keeps : s.canonical = true → t.canonical = true

theorem Agree.refl (L : List Area) (s : State) : Agree L s s :=
  ⟨fun _ => rfl, fun _ => rfl, fun _ => rfl, fun _ => rfl, fun _ => rfl, fun _ => rfl, fun _ => rfl, fun _ => rfl, fun _ => rfl, fun _ => rfl, fun _ => rfl, fun _ => rfl, fun _ => rfl, fun _ => rfl, fun _ => rfl, fun _ => rfl, fun _ => rfl, fun _ => rfl, fun _ => rfl, fun _ => rfl, fun _ => rfl, fun _ => rfl, Nat.le_refl _, id⟩

/-- A write of `power`. -/
theorem Agree.power_write {L : List Area} {s0 s1 : State} (hm : Area.power ∈ L) (h : Agree L s0 s1) x :
    Agree L s0 { s1 with power := x } :=
  ⟨h.pending_eq, h.freshCount_eq, fun hn => absurd hm hn, h.time_eq, h.regs_eq, h.latches_eq, h.heldMsgs_eq, h.linkOut_eq, h.mem_eq, h.rings_eq, h.sched_eq, h.colls_eq, h.parts_eq, h.pages_eq, h.ras_eq, h.boot_eq, h.fabric_eq, h.flash_eq, h.link_eq, h.attn_eq, h.emb_eq, h.nb_eq, h.fresh_le, h.keeps⟩

/-- A write of `time`. -/
theorem Agree.time_write {L : List Area} {s0 s1 : State} (hm : Area.time ∈ L) (h : Agree L s0 s1) x :
    Agree L s0 { s1 with time := x } :=
  ⟨h.pending_eq, h.freshCount_eq, h.power_eq, fun hn => absurd hm hn, h.regs_eq, h.latches_eq, h.heldMsgs_eq, h.linkOut_eq, h.mem_eq, h.rings_eq, h.sched_eq, h.colls_eq, h.parts_eq, h.pages_eq, h.ras_eq, h.boot_eq, h.fabric_eq, h.flash_eq, h.link_eq, h.attn_eq, h.emb_eq, h.nb_eq, h.fresh_le, h.keeps⟩

/-- A write of `regs`. -/
theorem Agree.regs_write {L : List Area} {s0 s1 : State} (hm : Area.regs ∈ L) (h : Agree L s0 s1) x (hc : s1.canonical = true → (({ s1 with regs := x } : State)).canonical = true) :
    Agree L s0 { s1 with regs := x } :=
  ⟨h.pending_eq, h.freshCount_eq, h.power_eq, h.time_eq, fun hn => absurd hm hn, h.latches_eq, h.heldMsgs_eq, h.linkOut_eq, h.mem_eq, h.rings_eq, h.sched_eq, h.colls_eq, h.parts_eq, h.pages_eq, h.ras_eq, h.boot_eq, h.fabric_eq, h.flash_eq, h.link_eq, h.attn_eq, h.emb_eq, h.nb_eq, h.fresh_le, fun hs => hc (h.keeps hs)⟩

/-- A write of `latches`. -/
theorem Agree.latches_write {L : List Area} {s0 s1 : State} (hm : Area.latches ∈ L) (h : Agree L s0 s1) x (hc : s1.canonical = true → (({ s1 with latches := x } : State)).canonical = true) :
    Agree L s0 { s1 with latches := x } :=
  ⟨h.pending_eq, h.freshCount_eq, h.power_eq, h.time_eq, h.regs_eq, fun hn => absurd hm hn, h.heldMsgs_eq, h.linkOut_eq, h.mem_eq, h.rings_eq, h.sched_eq, h.colls_eq, h.parts_eq, h.pages_eq, h.ras_eq, h.boot_eq, h.fabric_eq, h.flash_eq, h.link_eq, h.attn_eq, h.emb_eq, h.nb_eq, h.fresh_le, fun hs => hc (h.keeps hs)⟩

/-- A write of `heldMsgs`. -/
theorem Agree.heldMsgs_write {L : List Area} {s0 s1 : State} (hm : Area.heldMsgs ∈ L) (h : Agree L s0 s1) x :
    Agree L s0 { s1 with heldMsgs := x } :=
  ⟨h.pending_eq, h.freshCount_eq, h.power_eq, h.time_eq, h.regs_eq, h.latches_eq, fun hn => absurd hm hn, h.linkOut_eq, h.mem_eq, h.rings_eq, h.sched_eq, h.colls_eq, h.parts_eq, h.pages_eq, h.ras_eq, h.boot_eq, h.fabric_eq, h.flash_eq, h.link_eq, h.attn_eq, h.emb_eq, h.nb_eq, h.fresh_le, h.keeps⟩

/-- A write of `linkOut`. -/
theorem Agree.linkOut_write {L : List Area} {s0 s1 : State} (hm : Area.linkOut ∈ L) (h : Agree L s0 s1) x :
    Agree L s0 { s1 with linkOut := x } :=
  ⟨h.pending_eq, h.freshCount_eq, h.power_eq, h.time_eq, h.regs_eq, h.latches_eq, h.heldMsgs_eq, fun hn => absurd hm hn, h.mem_eq, h.rings_eq, h.sched_eq, h.colls_eq, h.parts_eq, h.pages_eq, h.ras_eq, h.boot_eq, h.fabric_eq, h.flash_eq, h.link_eq, h.attn_eq, h.emb_eq, h.nb_eq, h.fresh_le, h.keeps⟩

/-- A write of `mem`. -/
theorem Agree.mem_write {L : List Area} {s0 s1 : State} (hm : Area.mem ∈ L) (h : Agree L s0 s1) x (hc : s1.canonical = true → (({ s1 with mem := x } : State)).canonical = true) :
    Agree L s0 { s1 with mem := x } :=
  ⟨h.pending_eq, h.freshCount_eq, h.power_eq, h.time_eq, h.regs_eq, h.latches_eq, h.heldMsgs_eq, h.linkOut_eq, fun hn => absurd hm hn, h.rings_eq, h.sched_eq, h.colls_eq, h.parts_eq, h.pages_eq, h.ras_eq, h.boot_eq, h.fabric_eq, h.flash_eq, h.link_eq, h.attn_eq, h.emb_eq, h.nb_eq, h.fresh_le, fun hs => hc (h.keeps hs)⟩

/-- A write of `rings`. -/
theorem Agree.rings_write {L : List Area} {s0 s1 : State} (hm : Area.rings ∈ L) (h : Agree L s0 s1) x (hc : s1.canonical = true → (({ s1 with rings := x } : State)).canonical = true) :
    Agree L s0 { s1 with rings := x } :=
  ⟨h.pending_eq, h.freshCount_eq, h.power_eq, h.time_eq, h.regs_eq, h.latches_eq, h.heldMsgs_eq, h.linkOut_eq, h.mem_eq, fun hn => absurd hm hn, h.sched_eq, h.colls_eq, h.parts_eq, h.pages_eq, h.ras_eq, h.boot_eq, h.fabric_eq, h.flash_eq, h.link_eq, h.attn_eq, h.emb_eq, h.nb_eq, h.fresh_le, fun hs => hc (h.keeps hs)⟩

/-- A write of `sched`. -/
theorem Agree.sched_write {L : List Area} {s0 s1 : State} (hm : Area.sched ∈ L) (h : Agree L s0 s1) x :
    Agree L s0 { s1 with sched := x } :=
  ⟨h.pending_eq, h.freshCount_eq, h.power_eq, h.time_eq, h.regs_eq, h.latches_eq, h.heldMsgs_eq, h.linkOut_eq, h.mem_eq, h.rings_eq, fun hn => absurd hm hn, h.colls_eq, h.parts_eq, h.pages_eq, h.ras_eq, h.boot_eq, h.fabric_eq, h.flash_eq, h.link_eq, h.attn_eq, h.emb_eq, h.nb_eq, h.fresh_le, h.keeps⟩

/-- A write of `colls`. -/
theorem Agree.colls_write {L : List Area} {s0 s1 : State} (hm : Area.colls ∈ L) (h : Agree L s0 s1) x (hc : s1.canonical = true → (({ s1 with colls := x } : State)).canonical = true) :
    Agree L s0 { s1 with colls := x } :=
  ⟨h.pending_eq, h.freshCount_eq, h.power_eq, h.time_eq, h.regs_eq, h.latches_eq, h.heldMsgs_eq, h.linkOut_eq, h.mem_eq, h.rings_eq, h.sched_eq, fun hn => absurd hm hn, h.parts_eq, h.pages_eq, h.ras_eq, h.boot_eq, h.fabric_eq, h.flash_eq, h.link_eq, h.attn_eq, h.emb_eq, h.nb_eq, h.fresh_le, fun hs => hc (h.keeps hs)⟩

/-- A write of `parts`. -/
theorem Agree.parts_write {L : List Area} {s0 s1 : State} (hm : Area.parts ∈ L) (h : Agree L s0 s1) x (hc : s1.canonical = true → (({ s1 with parts := x } : State)).canonical = true) :
    Agree L s0 { s1 with parts := x } :=
  ⟨h.pending_eq, h.freshCount_eq, h.power_eq, h.time_eq, h.regs_eq, h.latches_eq, h.heldMsgs_eq, h.linkOut_eq, h.mem_eq, h.rings_eq, h.sched_eq, h.colls_eq, fun hn => absurd hm hn, h.pages_eq, h.ras_eq, h.boot_eq, h.fabric_eq, h.flash_eq, h.link_eq, h.attn_eq, h.emb_eq, h.nb_eq, h.fresh_le, fun hs => hc (h.keeps hs)⟩

/-- A write of `pages`. -/
theorem Agree.pages_write {L : List Area} {s0 s1 : State} (hm : Area.pages ∈ L) (h : Agree L s0 s1) x (hc : s1.canonical = true → (({ s1 with pages := x } : State)).canonical = true) :
    Agree L s0 { s1 with pages := x } :=
  ⟨h.pending_eq, h.freshCount_eq, h.power_eq, h.time_eq, h.regs_eq, h.latches_eq, h.heldMsgs_eq, h.linkOut_eq, h.mem_eq, h.rings_eq, h.sched_eq, h.colls_eq, h.parts_eq, fun hn => absurd hm hn, h.ras_eq, h.boot_eq, h.fabric_eq, h.flash_eq, h.link_eq, h.attn_eq, h.emb_eq, h.nb_eq, h.fresh_le, fun hs => hc (h.keeps hs)⟩

/-- A write of `ras`. -/
theorem Agree.ras_write {L : List Area} {s0 s1 : State} (hm : Area.ras ∈ L) (h : Agree L s0 s1) x :
    Agree L s0 { s1 with ras := x } :=
  ⟨h.pending_eq, h.freshCount_eq, h.power_eq, h.time_eq, h.regs_eq, h.latches_eq, h.heldMsgs_eq, h.linkOut_eq, h.mem_eq, h.rings_eq, h.sched_eq, h.colls_eq, h.parts_eq, h.pages_eq, fun hn => absurd hm hn, h.boot_eq, h.fabric_eq, h.flash_eq, h.link_eq, h.attn_eq, h.emb_eq, h.nb_eq, h.fresh_le, h.keeps⟩

/-- A write of `boot`. -/
theorem Agree.boot_write {L : List Area} {s0 s1 : State} (hm : Area.boot ∈ L) (h : Agree L s0 s1) x :
    Agree L s0 { s1 with boot := x } :=
  ⟨h.pending_eq, h.freshCount_eq, h.power_eq, h.time_eq, h.regs_eq, h.latches_eq, h.heldMsgs_eq, h.linkOut_eq, h.mem_eq, h.rings_eq, h.sched_eq, h.colls_eq, h.parts_eq, h.pages_eq, h.ras_eq, fun hn => absurd hm hn, h.fabric_eq, h.flash_eq, h.link_eq, h.attn_eq, h.emb_eq, h.nb_eq, h.fresh_le, h.keeps⟩

/-- A write of `fabric`. -/
theorem Agree.fabric_write {L : List Area} {s0 s1 : State} (hm : Area.fabric ∈ L) (h : Agree L s0 s1) x :
    Agree L s0 { s1 with fabric := x } :=
  ⟨h.pending_eq, h.freshCount_eq, h.power_eq, h.time_eq, h.regs_eq, h.latches_eq, h.heldMsgs_eq, h.linkOut_eq, h.mem_eq, h.rings_eq, h.sched_eq, h.colls_eq, h.parts_eq, h.pages_eq, h.ras_eq, h.boot_eq, fun hn => absurd hm hn, h.flash_eq, h.link_eq, h.attn_eq, h.emb_eq, h.nb_eq, h.fresh_le, h.keeps⟩

/-- A write of `flash`. -/
theorem Agree.flash_write {L : List Area} {s0 s1 : State} (hm : Area.flash ∈ L) (h : Agree L s0 s1) x (hc : s1.canonical = true → (({ s1 with flash := x } : State)).canonical = true) :
    Agree L s0 { s1 with flash := x } :=
  ⟨h.pending_eq, h.freshCount_eq, h.power_eq, h.time_eq, h.regs_eq, h.latches_eq, h.heldMsgs_eq, h.linkOut_eq, h.mem_eq, h.rings_eq, h.sched_eq, h.colls_eq, h.parts_eq, h.pages_eq, h.ras_eq, h.boot_eq, h.fabric_eq, fun hn => absurd hm hn, h.link_eq, h.attn_eq, h.emb_eq, h.nb_eq, h.fresh_le, fun hs => hc (h.keeps hs)⟩

/-- A write of `link`. -/
theorem Agree.link_write {L : List Area} {s0 s1 : State} (hm : Area.link ∈ L) (h : Agree L s0 s1) x :
    Agree L s0 { s1 with link := x } :=
  ⟨h.pending_eq, h.freshCount_eq, h.power_eq, h.time_eq, h.regs_eq, h.latches_eq, h.heldMsgs_eq, h.linkOut_eq, h.mem_eq, h.rings_eq, h.sched_eq, h.colls_eq, h.parts_eq, h.pages_eq, h.ras_eq, h.boot_eq, h.fabric_eq, h.flash_eq, fun hn => absurd hm hn, h.attn_eq, h.emb_eq, h.nb_eq, h.fresh_le, h.keeps⟩

/-- A write of `attn`. -/
theorem Agree.attn_write {L : List Area} {s0 s1 : State} (hm : Area.attn ∈ L) (h : Agree L s0 s1) x :
    Agree L s0 { s1 with attn := x } :=
  ⟨h.pending_eq, h.freshCount_eq, h.power_eq, h.time_eq, h.regs_eq, h.latches_eq, h.heldMsgs_eq, h.linkOut_eq, h.mem_eq, h.rings_eq, h.sched_eq, h.colls_eq, h.parts_eq, h.pages_eq, h.ras_eq, h.boot_eq, h.fabric_eq, h.flash_eq, h.link_eq, fun hn => absurd hm hn, h.emb_eq, h.nb_eq, h.fresh_le, h.keeps⟩

/-- A write of `emb`. -/
theorem Agree.emb_write {L : List Area} {s0 s1 : State} (hm : Area.emb ∈ L) (h : Agree L s0 s1) x :
    Agree L s0 { s1 with emb := x } :=
  ⟨h.pending_eq, h.freshCount_eq, h.power_eq, h.time_eq, h.regs_eq, h.latches_eq, h.heldMsgs_eq, h.linkOut_eq, h.mem_eq, h.rings_eq, h.sched_eq, h.colls_eq, h.parts_eq, h.pages_eq, h.ras_eq, h.boot_eq, h.fabric_eq, h.flash_eq, h.link_eq, h.attn_eq, fun hn => absurd hm hn, h.nb_eq, h.fresh_le, h.keeps⟩

/-- A write of `nb`. -/
theorem Agree.nb_write {L : List Area} {s0 s1 : State} (hm : Area.nb ∈ L) (h : Agree L s0 s1) x :
    Agree L s0 { s1 with nb := x } :=
  ⟨h.pending_eq, h.freshCount_eq, h.power_eq, h.time_eq, h.regs_eq, h.latches_eq, h.heldMsgs_eq, h.linkOut_eq, h.mem_eq, h.rings_eq, h.sched_eq, h.colls_eq, h.parts_eq, h.pages_eq, h.ras_eq, h.boot_eq, h.fabric_eq, h.flash_eq, h.link_eq, h.attn_eq, h.emb_eq, fun hn => absurd hm hn, h.fresh_le, h.keeps⟩

/-- A longer list of areas allows what a shorter one does. -/
theorem sub {L M N : List Area} (h : M ⊆ L) (hn : N ⊆ M) : N ⊆ L := List.Subset.trans hn h

theorem nosub {L : List Area} : [] ⊆ L := List.nil_subset L

theorem Agree.fresh_write {L : List Area} {s0 s1 : State} (hm : Area.freshCount ∈ L) (h : Agree L s0 s1) (n : Nat) (hn : s1.freshCount ≤ n) :
    Agree L s0 { s1 with freshCount := n } :=
  ⟨h.pending_eq, fun hn => absurd hm hn, h.power_eq, h.time_eq, h.regs_eq, h.latches_eq, h.heldMsgs_eq, h.linkOut_eq, h.mem_eq, h.rings_eq, h.sched_eq, h.colls_eq, h.parts_eq, h.pages_eq, h.ras_eq, h.boot_eq, h.fabric_eq, h.flash_eq, h.link_eq, h.attn_eq, h.emb_eq, h.nb_eq, Nat.le_trans h.fresh_le hn, h.keeps⟩

theorem Agree.ite {L : List Area} {s0 a b : State} {c : Prop} [Decidable c] (ha : Agree L s0 a) (hb : Agree L s0 b) :
    Agree L s0 (if c then a else b) := by
  split
  · exact ha
  · exact hb

theorem Agree.fold {L : List Area} {s0 s : State} {α : Type} {f : State → α → State} {l : List α}
    (hf : ∀ t x, Agree L s0 t → Agree L s0 (f t x)) (h : Agree L s0 s) : Agree L s0 (l.foldl f s) := by
  induction l generalizing s with
  | nil => exact h
  | cons x t ih => exact ih (hf s x h)

theorem Agree.foldFst {L : List Area} {s0 : State} {α β : Type} {f : State × β → α → State × β} {l : List α} {p : State × β}
    (hf : ∀ q x, Agree L s0 q.1 → Agree L s0 (f q x).1) (h : Agree L s0 p.1) : Agree L s0 (l.foldl f p).1 := by
  induction l generalizing p with
  | nil => exact h
  | cons x t ih => exact ih (hf p x h)

theorem Agree.trans {L : List Area} {a b c : State} (h : Agree L a b) (g : Agree L b c) : Agree L a c :=
  ⟨fun hn => (g.pending_eq hn).trans (h.pending_eq hn), fun hn => (g.freshCount_eq hn).trans (h.freshCount_eq hn), fun hn => (g.power_eq hn).trans (h.power_eq hn), fun hn => (g.time_eq hn).trans (h.time_eq hn), fun hn => (g.regs_eq hn).trans (h.regs_eq hn), fun hn => (g.latches_eq hn).trans (h.latches_eq hn), fun hn => (g.heldMsgs_eq hn).trans (h.heldMsgs_eq hn), fun hn => (g.linkOut_eq hn).trans (h.linkOut_eq hn), fun hn => (g.mem_eq hn).trans (h.mem_eq hn), fun hn => (g.rings_eq hn).trans (h.rings_eq hn), fun hn => (g.sched_eq hn).trans (h.sched_eq hn), fun hn => (g.colls_eq hn).trans (h.colls_eq hn), fun hn => (g.parts_eq hn).trans (h.parts_eq hn), fun hn => (g.pages_eq hn).trans (h.pages_eq hn), fun hn => (g.ras_eq hn).trans (h.ras_eq hn), fun hn => (g.boot_eq hn).trans (h.boot_eq hn), fun hn => (g.fabric_eq hn).trans (h.fabric_eq hn), fun hn => (g.flash_eq hn).trans (h.flash_eq hn), fun hn => (g.link_eq hn).trans (h.link_eq hn), fun hn => (g.attn_eq hn).trans (h.attn_eq hn), fun hn => (g.emb_eq hn).trans (h.emb_eq hn), fun hn => (g.nb_eq hn).trans (h.nb_eq hn),
    Nat.le_trans h.fresh_le g.fresh_le, fun hs => g.keeps (h.keeps hs)⟩

theorem mem_of {L M : List Area} {x : Area} (h : M ⊆ L) (hx : x ∈ M) : x ∈ L := h hx

theorem Agree.dite {L : List Area} {s0 : State} {c : Prop} [Decidable c] {a : c → State} {b : ¬c → State}
    (ha : ∀ h, Agree L s0 (a h)) (hb : ∀ h, Agree L s0 (b h)) : Agree L s0 (if h : c then a h else b h) := by
  split
  · exact ha _
  · exact hb _

theorem Agree.iteFst {L : List Area} {s0 : State} {β : Type} {a b : State × β} {c : Prop} [Decidable c] (ha : Agree L s0 a.1)
    (hb : Agree L s0 b.1) : Agree L s0 (if c then a else b).1 := by
  split
  · exact ha
  · exact hb

theorem Agree.power_ras_write {L : List Area} {s0 s1 : State} (hm0 : Area.power ∈ L) (hm1 : Area.ras ∈ L) (h : Agree L s0 s1) x0 x1 :
    Agree L s0 { s1 with power := x0, ras := x1 } :=
  ⟨h.pending_eq, h.freshCount_eq, fun hn => absurd hm0 hn, h.time_eq, h.regs_eq, h.latches_eq, h.heldMsgs_eq, h.linkOut_eq, h.mem_eq, h.rings_eq, h.sched_eq, h.colls_eq, h.parts_eq, h.pages_eq, fun hn => absurd hm1 hn, h.boot_eq, h.fabric_eq, h.flash_eq, h.link_eq, h.attn_eq, h.emb_eq, h.nb_eq, h.fresh_le, h.keeps⟩

theorem Agree.time_heldMsgs_write {L : List Area} {s0 s1 : State} (hm0 : Area.time ∈ L) (hm1 : Area.heldMsgs ∈ L) (h : Agree L s0 s1) x0 x1 :
    Agree L s0 { s1 with time := x0, heldMsgs := x1 } :=
  ⟨h.pending_eq, h.freshCount_eq, h.power_eq, fun hn => absurd hm0 hn, h.regs_eq, h.latches_eq, fun hn => absurd hm1 hn, h.linkOut_eq, h.mem_eq, h.rings_eq, h.sched_eq, h.colls_eq, h.parts_eq, h.pages_eq, h.ras_eq, h.boot_eq, h.fabric_eq, h.flash_eq, h.link_eq, h.attn_eq, h.emb_eq, h.nb_eq, h.fresh_le, h.keeps⟩

theorem Agree.ras_boot_flash_write {L : List Area} {s0 s1 : State} (hm0 : Area.ras ∈ L) (hm1 : Area.boot ∈ L) (hm2 : Area.flash ∈ L) (h : Agree L s0 s1) x0 x1 x2 (hc : s1.canonical = true → (({ s1 with ras := x0, boot := x1, flash := x2 } : State)).canonical = true) :
    Agree L s0 { s1 with ras := x0, boot := x1, flash := x2 } :=
  ⟨h.pending_eq, h.freshCount_eq, h.power_eq, h.time_eq, h.regs_eq, h.latches_eq, h.heldMsgs_eq, h.linkOut_eq, h.mem_eq, h.rings_eq, h.sched_eq, h.colls_eq, h.parts_eq, h.pages_eq, fun hn => absurd hm0 hn, fun hn => absurd hm1 hn, h.fabric_eq, fun hn => absurd hm2 hn, h.link_eq, h.attn_eq, h.emb_eq, h.nb_eq, h.fresh_le, fun hs => hc (h.keeps hs)⟩

theorem Agree.mem_pages_flash_write {L : List Area} {s0 s1 : State} (hm0 : Area.mem ∈ L) (hm1 : Area.pages ∈ L) (hm2 : Area.flash ∈ L) (h : Agree L s0 s1) x0 x1 x2 (hc : s1.canonical = true → (({ s1 with mem := x0, pages := x1, flash := x2 } : State)).canonical = true) :
    Agree L s0 { s1 with mem := x0, pages := x1, flash := x2 } :=
  ⟨h.pending_eq, h.freshCount_eq, h.power_eq, h.time_eq, h.regs_eq, h.latches_eq, h.heldMsgs_eq, h.linkOut_eq, fun hn => absurd hm0 hn, h.rings_eq, h.sched_eq, h.colls_eq, h.parts_eq, fun hn => absurd hm1 hn, h.ras_eq, h.boot_eq, h.fabric_eq, fun hn => absurd hm2 hn, h.link_eq, h.attn_eq, h.emb_eq, h.nb_eq, h.fresh_le, fun hs => hc (h.keeps hs)⟩

theorem Agree.power_time_write {L : List Area} {s0 s1 : State} (hm0 : Area.power ∈ L) (hm1 : Area.time ∈ L) (h : Agree L s0 s1) x0 x1 :
    Agree L s0 { s1 with power := x0, time := x1 } :=
  ⟨h.pending_eq, h.freshCount_eq, fun hn => absurd hm0 hn, fun hn => absurd hm1 hn, h.regs_eq, h.latches_eq, h.heldMsgs_eq, h.linkOut_eq, h.mem_eq, h.rings_eq, h.sched_eq, h.colls_eq, h.parts_eq, h.pages_eq, h.ras_eq, h.boot_eq, h.fabric_eq, h.flash_eq, h.link_eq, h.attn_eq, h.emb_eq, h.nb_eq, h.fresh_le, h.keeps⟩

/-- The canonical form, map by map. -/
theorem State.canonical_iff {s : State} : s.canonical = true ↔
    SMap.wf resetWord s.regs = true ∧ SMap.wf latchDefault s.latches = true ∧ Memory.wf s.mem = true ∧ SMap.wf ringDefault s.rings = true ∧
    SMap.wf collDefault s.colls = true ∧ SMap.wf partDefault s.parts = true ∧ SMap.wf pageDefault s.pages = true ∧
    SMap.wf byteDefault s.flash.dur = true ∧ SMap.wf poisonDefault s.flash.durPoison = true := by
  simp [State.canonical, and_assoc]

theorem State.canonical_mem {s : State} {m : MemSt} (hs : s.canonical = true) (hm : Memory.wf s.mem = true → Memory.wf m = true) :
    ({ s with mem := m } : State).canonical = true := by
  rw [State.canonical_iff] at hs ⊢
  exact ⟨hs.1, hs.2.1, hm hs.2.2.1, hs.2.2.2⟩

theorem Agree.getD {L : List Area} {s0 d : State} {o : Option State} (ho : ∀ t, o = some t → Agree L s0 t) (hd : Agree L s0 d) :
    Agree L s0 (o.getD d) := by
  cases o with
  | none => exact hd
  | some t => exact ho t rfl

theorem State.canonical_regs {s : State} {m : SMap Word} (hs : s.canonical = true)
    (hm : SMap.wf resetWord s.regs = true → SMap.wf resetWord m = true) : ({ s with regs := m } : State).canonical = true := by
  rw [State.canonical_iff] at hs ⊢
  exact ⟨hm hs.1, hs.2.1, hs.2.2.1, hs.2.2.2.1, hs.2.2.2.2.1, hs.2.2.2.2.2.1, hs.2.2.2.2.2.2.1, hs.2.2.2.2.2.2.2⟩

theorem State.canonical_latches {s : State} {m : SMap Word} (hs : s.canonical = true)
    (hm : SMap.wf latchDefault s.latches = true → SMap.wf latchDefault m = true) : ({ s with latches := m } : State).canonical = true := by
  rw [State.canonical_iff] at hs ⊢
  exact ⟨hs.1, hm hs.2.1, hs.2.2.1, hs.2.2.2.1, hs.2.2.2.2.1, hs.2.2.2.2.2.1, hs.2.2.2.2.2.2.1, hs.2.2.2.2.2.2.2⟩

theorem State.canonical_rings {s : State} {m : SMap RingRt} (hs : s.canonical = true)
    (hm : SMap.wf ringDefault s.rings = true → SMap.wf ringDefault m = true) : ({ s with rings := m } : State).canonical = true := by
  rw [State.canonical_iff] at hs ⊢
  exact ⟨hs.1, hs.2.1, hs.2.2.1, hm hs.2.2.2.1, hs.2.2.2.2.1, hs.2.2.2.2.2.1, hs.2.2.2.2.2.2.1, hs.2.2.2.2.2.2.2⟩

theorem State.canonical_colls {s : State} {m : SMap Coll} (hs : s.canonical = true)
    (hm : SMap.wf collDefault s.colls = true → SMap.wf collDefault m = true) : ({ s with colls := m } : State).canonical = true := by
  rw [State.canonical_iff] at hs ⊢
  exact ⟨hs.1, hs.2.1, hs.2.2.1, hs.2.2.2.1, hm hs.2.2.2.2.1, hs.2.2.2.2.2.1, hs.2.2.2.2.2.2.1, hs.2.2.2.2.2.2.2⟩

theorem State.canonical_parts {s : State} {m : SMap Part} (hs : s.canonical = true)
    (hm : SMap.wf partDefault s.parts = true → SMap.wf partDefault m = true) : ({ s with parts := m } : State).canonical = true := by
  rw [State.canonical_iff] at hs ⊢
  exact ⟨hs.1, hs.2.1, hs.2.2.1, hs.2.2.2.1, hs.2.2.2.2.1, hm hs.2.2.2.2.2.1, hs.2.2.2.2.2.2.1, hs.2.2.2.2.2.2.2⟩

theorem State.canonical_pages {s : State} {m : SMap Page} (hs : s.canonical = true)
    (hm : SMap.wf pageDefault s.pages = true → SMap.wf pageDefault m = true) : ({ s with pages := m } : State).canonical = true := by
  rw [State.canonical_iff] at hs ⊢
  exact ⟨hs.1, hs.2.1, hs.2.2.1, hs.2.2.2.1, hs.2.2.2.2.1, hs.2.2.2.2.2.1, hm hs.2.2.2.2.2.2.1, hs.2.2.2.2.2.2.2⟩

theorem State.canonical_flash {s : State} {f : FlashSt} (hs : s.canonical = true)
    (hd : SMap.wf byteDefault s.flash.dur = true → SMap.wf byteDefault f.dur = true)
    (hp : SMap.wf poisonDefault s.flash.durPoison = true → SMap.wf poisonDefault f.durPoison = true) :
    ({ s with flash := f } : State).canonical = true := by
  rw [State.canonical_iff] at hs ⊢
  exact ⟨hs.1, hs.2.1, hs.2.2.1, hs.2.2.2.1, hs.2.2.2.2.1, hs.2.2.2.2.2.1, hs.2.2.2.2.2.2.1, hd hs.2.2.2.2.2.2.2.1, hp hs.2.2.2.2.2.2.2.2⟩

/-- A fold of writes keeps the canonical form. -/
theorem foldl_wf {α β : Type} [DecidableEq β] {d : Nat → β} {f : SMap β → α → SMap β} (hf : ∀ m x, SMap.wf d m = true → SMap.wf d (f m x) = true)
    {l : List α} {m : SMap β} (h : SMap.wf d m = true) : SMap.wf d (l.foldl f m) = true := by
  induction l generalizing m with
  | nil => exact h
  | cons x t ih => exact ih (hf m x h)

end Sys2Proof.Machine
end

