-- ==== Sys2Proof/Laws/KeepOps.lean ====
section
/-! SUPPORT. What the operations of Machine/Ops.lean may touch. -/

namespace Sys2Proof.Machine

open Sys2Proof

theorem State.setReg_agree {L s0 s a w} (hL : [.regs] ⊆ L) (h : Agree L s0 s) : Agree L s0 (State.setReg s a w) :=
  Agree.regs_write (hL (by decide)) h _ (fun hc => by
    rw [State.canonical_iff] at hc ⊢
    exact ⟨SMap.set_wf hc.1, hc.2⟩)

theorem State.setFld_agree {L s0 s f v} (hL : [.regs] ⊆ L) (h : Agree L s0 s) : Agree L s0 (State.setFld s f v) := by
  unfold State.setFld
  refine State.setReg_agree (sub hL (by decide)) ?_
  exact h

theorem State.bumpBy_agree {L s0 s f n} (hL : [.regs] ⊆ L) (h : Agree L s0 s) : Agree L s0 (State.bumpBy s f n) := by
  unfold State.bumpBy
  refine State.setFld_agree (sub hL (by decide)) ?_
  exact h

theorem State.bump_agree {L s0 s f} (hL : [.regs] ⊆ L) (h : Agree L s0 s) : Agree L s0 (State.bump s f) := by
  unfold State.bump
  refine State.bumpBy_agree (sub hL (by decide)) ?_
  exact h

theorem State.setWide_agree {L s0 s lo hi v} (hL : [.regs] ⊆ L) (h : Agree L s0 s) : Agree L s0 (State.setWide s lo hi v) := by
  unfold State.setWide
  refine State.setFld_agree (sub hL (by decide)) ?_
  refine State.setFld_agree (sub hL (by decide)) ?_
  exact h

theorem State.fresh_agree {L s0 s} (hL : [.freshCount] ⊆ L) (h : Agree L s0 s) : Agree L s0 (State.fresh s) :=
  Agree.fresh_write (hL (by decide)) h _ (Nat.le_succ _)

theorem State.setRegs_agree {L s0 ws} : ∀ {s a}, ([.regs] ⊆ L) → Agree L s0 s → Agree L s0 (State.setRegs s a ws) := by
  induction ws with
  | nil => intro s a _ h; exact h
  | cons w t ih => intro s a hL h; exact ih hL (State.setReg_agree hL h)

theorem State.report_agree {L s0 s seq sev} (hL : [.regs, .ras] ⊆ L) (h : Agree L s0 s) : Agree L s0 (State.report s seq sev) := by
  unfold State.report
  refine Agree.ite ?_ ?_
  · exact h
  · refine Agree.ite ?_ ?_
    · refine Agree.ras_write (mem_of hL (by decide)) ?_ _
      refine Agree.ite ?_ ?_
      · refine Agree.ras_write (mem_of hL (by decide)) ?_ _
        exact h
      · exact h
    · refine State.bump_agree (sub hL (by decide)) ?_
      refine Agree.ite ?_ ?_
      · refine Agree.ras_write (mem_of hL (by decide)) ?_ _
        exact h
      · exact h

theorem State.log_agree {L s0 s cls sev dom kind idx addr detail} (hL : [.regs, .ras] ⊆ L) (h : Agree L s0 s) : Agree L s0 (State.log s cls sev dom kind idx addr detail) := by
  unfold State.log
  refine State.report_agree (sub hL (by decide)) ?_
  refine State.bump_agree (sub hL (by decide)) ?_
  refine State.setRegs_agree (sub hL (by decide)) ?_
  exact h

theorem State.accessErr_agree {L s0 s} (hL : [.regs] ⊆ L) (h : Agree L s0 s) : Agree L s0 (State.accessErr s) := by
  unfold State.accessErr
  refine State.bump_agree (sub hL (by decide)) ?_
  exact h

theorem State.setPage_agree {L s0 s p v} (hL : [.pages] ⊆ L) (h : Agree L s0 s) : Agree L s0 (State.setPage s p v) :=
  Agree.pages_write (hL (by decide)) h _ (fun hc => by
    rw [State.canonical_iff] at hc ⊢
    exact ⟨hc.1, hc.2.1, hc.2.2.1, hc.2.2.2.1, hc.2.2.2.2.1, hc.2.2.2.2.2.1, SMap.set_wf hc.2.2.2.2.2.2.1, hc.2.2.2.2.2.2.2⟩)

theorem State.setColl_agree {L s0 s c v} (hL : [.colls] ⊆ L) (h : Agree L s0 s) : Agree L s0 (State.setColl s c v) :=
  Agree.colls_write (hL (by decide)) h _ (fun hc => by
    rw [State.canonical_iff] at hc ⊢
    exact ⟨hc.1, hc.2.1, hc.2.2.1, hc.2.2.2.1, SMap.set_wf hc.2.2.2.2.1, hc.2.2.2.2.2⟩)

theorem State.setPart_agree {L s0 s c p v} (hL : [.parts] ⊆ L) (h : Agree L s0 s) : Agree L s0 (State.setPart s c p v) :=
  Agree.parts_write (hL (by decide)) h _ (fun hc => by
    rw [State.canonical_iff] at hc ⊢
    exact ⟨hc.1, hc.2.1, hc.2.2.1, hc.2.2.2.1, hc.2.2.2.2.1, SMap.set_wf hc.2.2.2.2.2.1, hc.2.2.2.2.2.2⟩)

theorem State.takeFrame_agree {L s0 s p g st t} (he : State.takeFrame s p g st = some t) (hL : [.regs, .pages] ⊆ L) (h : Agree L s0 s) : Agree L s0 t := by
  unfold State.takeFrame at he
  try dsimp only at he
  split at he
  · obtain rfl := Option.some.inj he
    refine State.setPage_agree (sub hL (by decide)) ?_
    refine Agree.ite ?_ ?_
    · exact h
    · refine State.bump_agree (sub hL (by decide)) ?_
      exact h
  · cases he

theorem State.setDir_agree {L s0 s l e} (hL : [.link] ⊆ L) (h : Agree L s0 s) : Agree L s0 (State.setDir s l e) := by
  unfold State.setDir
  refine Agree.link_write (mem_of hL (by decide)) ?_ _
  exact h

theorem State.toLink_agree {L s0 s m} (hL : [.linkOut] ⊆ L) (h : Agree L s0 s) : Agree L s0 (State.toLink s m) := by
  unfold State.toLink
  refine Agree.linkOut_write (mem_of hL (by decide)) ?_ _
  exact h

theorem State.markPoison_agree {L s0 s l dom} (hL : [.regs, .mem] ⊆ L) (h : Agree L s0 s) : Agree L s0 (State.markPoison s l dom) := by
  unfold State.markPoison
  refine State.bump_agree (sub hL (by decide)) ?_
  refine Agree.mem_write (mem_of hL (by decide)) ?_ _ (fun hc => by first | exact State.canonical_mem hc MemSt.write_wf | exact State.canonical_mem hc MemSt.poisonLine_wf)
  exact h

theorem State.reclaim_agree {L s0 s l} (hL : [.regs, .mem, .ras, .link] ⊆ L) (h : Agree L s0 s) : Agree L s0 (State.reclaim s l) := by
  unfold State.reclaim
  refine Agree.ite ?_ ?_
  · exact h
  · refine Agree.ite ?_ ?_
    · refine State.setDir_agree (sub hL (by decide)) ?_
      exact h
    · refine Agree.ite ?_ ?_
      · refine State.setDir_agree (sub hL (by decide)) ?_
        exact h
      · refine Agree.ite ?_ ?_
        · refine State.log_agree (sub hL (by decide)) ?_
          refine Agree.link_write (mem_of hL (by decide)) ?_ _
          refine State.bump_agree (sub hL (by decide)) ?_
          refine State.markPoison_agree (sub hL (by decide)) ?_
          refine State.setDir_agree (sub hL (by decide)) ?_
          exact h
        · refine Agree.link_write (mem_of hL (by decide)) ?_ _
          refine State.bump_agree (sub hL (by decide)) ?_
          refine State.markPoison_agree (sub hL (by decide)) ?_
          refine State.setDir_agree (sub hL (by decide)) ?_
          exact h

theorem State.sendSnoops_agree {L s0 s l e r xs} (hL : [.linkOut, .link] ⊆ L) (h : Agree L s0 s) : Agree L s0 (State.sendSnoops s l e r xs) := by
  unfold State.sendSnoops
  refine Agree.fold ?_ ?_
  · intro t1 x1 h1
    show Agree L s0 _
    refine State.toLink_agree (sub hL (by decide)) ?_
    exact h1
  · refine State.setDir_agree (sub hL (by decide)) ?_
    exact h

theorem State.dirWrite_agree {L s0 s l mask} (hL : [.regs, .linkOut, .mem, .ras, .link] ⊆ L) (h : Agree L s0 s) : Agree L s0 (State.dirWrite s l mask) := by
  unfold State.dirWrite
  refine Agree.ite ?_ ?_
  · exact h
  · refine Agree.ite ?_ ?_
    · refine State.setDir_agree (sub hL (by decide)) ?_
      refine State.reclaim_agree (sub hL (by decide)) ?_
      exact h
    · refine Agree.ite ?_ ?_
      · refine State.setDir_agree (sub hL (by decide)) ?_
        refine State.reclaim_agree (sub hL (by decide)) ?_
        exact h
      · refine State.sendSnoops_agree (sub hL (by decide)) ?_
        refine State.reclaim_agree (sub hL (by decide)) ?_
        exact h

theorem State.cancelWriteback_agree {L s0 s p g} (hL : [.regs, .pages, .flash] ⊆ L) (h : Agree L s0 s) : Agree L s0 (State.cancelWriteback s p g) := by
  unfold State.cancelWriteback
  split
  · refine State.bump_agree (sub hL (by decide)) ?_
    refine Agree.ite ?_ ?_
    · refine State.bump_agree (sub hL (by decide)) ?_
      refine State.setPage_agree (sub hL (by decide)) ?_
      refine Agree.flash_write (mem_of hL (by decide)) ?_ _ (fun hc => State.canonical_flash hc id id)
      exact h
    · refine State.setPage_agree (sub hL (by decide)) ?_
      refine Agree.flash_write (mem_of hL (by decide)) ?_ _ (fun hc => State.canonical_flash hc id id)
      exact h
  · refine State.bump_agree (sub hL (by decide)) ?_
    refine State.setPage_agree (sub hL (by decide)) ?_
    exact h

theorem State.touchPage_agree {L s0 s p d} (hL : [.regs, .pages, .flash] ⊆ L) (h : Agree L s0 s) : Agree L s0 (State.touchPage s p d) := by
  unfold State.touchPage
  try dsimp only
  split
  · split
    · refine State.takeFrame_agree (by assumption) (sub hL (by decide)) ?_
      exact h
    · refine State.setPage_agree (sub hL (by decide)) ?_
      exact h
  · refine Agree.ite ?_ ?_
    · exact h
    · refine State.setPage_agree (sub hL (by decide)) ?_
      exact h
  · refine State.cancelWriteback_agree (sub hL (by decide)) ?_
    exact h
  · refine State.setPage_agree (sub hL (by decide)) ?_
    exact h
  · split
    · refine State.takeFrame_agree (by assumption) (sub hL (by decide)) ?_
      exact h
    · refine State.setPage_agree (sub hL (by decide)) ?_
      exact h

theorem State.touchSector_agree {L s0 s sec mask} (hL : [.flash] ⊆ L) (h : Agree L s0 s) : Agree L s0 (State.touchSector s sec mask) := by
  unfold State.touchSector
  refine Agree.flash_write (mem_of hL (by decide)) ?_ _ (fun hc => State.canonical_flash hc id id)
  exact h

theorem State.touchWrite_agree {L s0 s x} (hL : [.regs, .pages, .flash] ⊆ L) (h : Agree L s0 s) : Agree L s0 (State.touchWrite s x) := by
  unfold State.touchWrite
  refine Agree.ite ?_ ?_
  · refine State.touchPage_agree (sub hL (by decide)) ?_
    exact h
  · refine Agree.ite ?_ ?_
    · refine State.touchSector_agree (sub hL (by decide)) ?_
      exact h
    · exact h

theorem State.storeNb_agree {L s0 s a data dom nb} (hL : [.regs, .linkOut, .mem, .pages, .ras, .flash, .link] ⊆ L) (h : Agree L s0 s) : Agree L s0 (State.storeNb s a data dom nb) := by
  unfold State.storeNb
  refine Agree.ite ?_ ?_
  · refine Agree.flash_write (mem_of hL (by decide)) ?_ _ (fun hc => State.canonical_flash hc id id)
    exact h
  · refine Agree.mem_write (mem_of hL (by decide)) ?_ _ (fun hc => by first | exact State.canonical_mem hc MemSt.write_wf | exact State.canonical_mem hc MemSt.poisonLine_wf)
    refine Agree.fold ?_ ?_
    · intro t1 x1 h1
      show Agree L s0 _
      refine State.dirWrite_agree (sub hL (by decide)) ?_
      exact h1
    · refine Agree.fold ?_ ?_
      · intro t2 x2 h2
        show Agree L s0 _
        refine State.touchWrite_agree (sub hL (by decide)) ?_
        exact h2
      · exact h

theorem State.store_agree {L s0 s a data dom} (hL : [.regs, .linkOut, .mem, .pages, .ras, .flash, .link, .nb] ⊆ L) (h : Agree L s0 s) : Agree L s0 (State.store s a data dom) := by
  unfold State.store
  refine Agree.ite ?_ ?_
  · refine Agree.nb_write (mem_of hL (by decide)) ?_ _
    exact h
  · refine State.storeNb_agree (sub hL (by decide)) ?_
    exact h

theorem State.poison_agree {L s0 s l dom} (hL : [.regs, .linkOut, .mem, .pages, .ras, .flash, .link] ⊆ L) (h : Agree L s0 s) : Agree L s0 (State.poison s l dom) := by
  unfold State.poison
  refine State.markPoison_agree (sub hL (by decide)) ?_
  refine State.dirWrite_agree (sub hL (by decide)) ?_
  refine Agree.fold ?_ ?_
  · intro t1 x1 h1
    show Agree L s0 _
    refine State.touchWrite_agree (sub hL (by decide)) ?_
    exact h1
  · exact h

end Sys2Proof.Machine
end

