-- ==== Sys2Proof/Laws/KeepJobs.lean ====
section
/-! SUPPORT. What the operations of Machine/Jobs.lean may touch. -/

namespace Sys2Proof.Machine

open Sys2Proof

theorem State.setJobs_agree {L s0 s l} (hL : [.sched] ⊆ L) (h : Agree L s0 s) : Agree L s0 (State.setJobs s l) := by
  unfold State.setJobs
  refine Agree.sched_write (mem_of hL (by decide)) ?_ _
  exact h

theorem State.putJob_agree {L s0 s j} (hL : [.sched] ⊆ L) (h : Agree L s0 s) : Agree L s0 (State.putJob s j) := by
  unfold State.putJob
  refine State.setJobs_agree (sub hL (by decide)) ?_
  exact h

theorem State.doomJob_agree {L s0 s id st} (hL : [.sched] ⊆ L) (h : Agree L s0 s) : Agree L s0 (State.doomJob s id st) := by
  unfold State.doomJob
  split
  · refine State.putJob_agree (sub hL (by decide)) ?_
    exact h
  · exact h

theorem State.dropJob_agree {L s0 s id} (hL : [.sched] ⊆ L) (h : Agree L s0 s) : Agree L s0 (State.dropJob s id) := by
  unfold State.dropJob
  refine Agree.sched_write (mem_of hL (by decide)) ?_ _
  exact h

theorem State.setRing_agree {L s0 s d r v} (hL : [.rings] ⊆ L) (h : Agree L s0 s) : Agree L s0 (State.setRing s d r v) :=
  Agree.rings_write (hL (by decide)) h _ (fun hc => by
    rw [State.canonical_iff] at hc ⊢
    exact ⟨hc.1, hc.2.1, hc.2.2.1, SMap.set_wf hc.2.2.2.1, hc.2.2.2.2⟩)

theorem State.nodeLine_agree {L s0 s d r} (hL : [.regs, .linkOut, .mem, .pages, .ras, .flash, .link, .nb] ⊆ L) (h : Agree L s0 s) : Agree L s0 (State.nodeLine s d r) := by
  unfold State.nodeLine
  refine State.store_agree (sub hL (by decide)) ?_
  exact h

theorem State.postRecord_agree {L s0 s d r status ws} (hL : [.regs, .linkOut, .mem, .rings, .pages, .ras, .flash, .link, .nb] ⊆ L) (h : Agree L s0 s) : Agree L s0 (State.postRecord s d r status ws) := by
  unfold State.postRecord
  refine Agree.ite ?_ ?_
  · refine State.bump_agree (sub hL (by decide)) ?_
    refine State.bump_agree (sub hL (by decide)) ?_
    refine State.setFld_agree (sub hL (by decide)) ?_
    refine State.nodeLine_agree (sub hL (by decide)) ?_
    refine State.setRing_agree (sub hL (by decide)) ?_
    refine State.store_agree (sub hL (by decide)) ?_
    refine Agree.flash_write (mem_of hL (by decide)) ?_ _ (fun hc => State.canonical_flash hc id id)
    exact h
  · refine State.bump_agree (sub hL (by decide)) ?_
    refine State.setFld_agree (sub hL (by decide)) ?_
    refine State.nodeLine_agree (sub hL (by decide)) ?_
    refine State.setRing_agree (sub hL (by decide)) ?_
    refine State.store_agree (sub hL (by decide)) ?_
    refine Agree.flash_write (mem_of hL (by decide)) ?_ _ (fun hc => State.canonical_flash hc id id)
    exact h

theorem State.takeHead_agree {L s0 s d r n} (hL : [.regs, .linkOut, .mem, .rings, .pages, .ras, .flash, .link, .nb] ⊆ L) (h : Agree L s0 s) : Agree L s0 (State.takeHead s d r n) := by
  unfold State.takeHead
  refine State.nodeLine_agree (sub hL (by decide)) ?_
  refine Agree.ite ?_ ?_
  · refine State.bump_agree (sub hL (by decide)) ?_
    refine State.setFld_agree (sub hL (by decide)) ?_
    refine State.setRing_agree (sub hL (by decide)) ?_
    exact h
  · refine State.setFld_agree (sub hL (by decide)) ?_
    refine State.bump_agree (sub hL (by decide)) ?_
    refine State.setFld_agree (sub hL (by decide)) ?_
    refine State.setRing_agree (sub hL (by decide)) ?_
    exact h

theorem State.addJob_agree {L s0 s d r opcode tag w} (hL : [.sched] ⊆ L) (h : Agree L s0 s) : Agree L s0 (State.addJob s d r opcode tag w).1 := by
  unfold State.addJob
  refine Agree.sched_write (mem_of hL (by decide)) ?_ _
  exact h

theorem State.countEnd_agree {L s0 s dom tag st} (hL : [.regs, .ras] ⊆ L) (h : Agree L s0 s) : Agree L s0 (State.countEnd s dom tag st) := by
  unfold State.countEnd
  split
  · refine State.log_agree (sub hL (by decide)) ?_
    refine State.bump_agree (sub hL (by decide)) ?_
    exact h
  · refine State.bump_agree (sub hL (by decide)) ?_
    exact h
  · exact h

end Sys2Proof.Machine
end

