-- ==== Sys2Proof/Laws/KeepColls.lean ====
section
/-! SUPPORT. What the operations of Machine/Colls.lean may touch. -/

namespace Sys2Proof.Machine

open Sys2Proof

theorem State.putField_agree {L s0 s a lo width v dom} (hL : [.regs, .linkOut, .mem, .pages, .ras, .flash, .link, .nb] ⊆ L) (h : Agree L s0 s) : Agree L s0 (State.putField s a lo width v dom) := by
  unfold State.putField
  refine State.store_agree (sub hL (by decide)) ?_
  exact h

theorem State.setFilter_agree {L s0 s l o on} (hL : [.regs, .linkOut, .mem, .pages, .ras, .flash, .link, .nb] ⊆ L) (h : Agree L s0 s) : Agree L s0 (State.setFilter s l o on) := by
  unfold State.setFilter
  refine State.store_agree (sub hL (by decide)) ?_
  exact h

theorem State.misplaced_agree {L s0 s dom addr} (hL : [.regs, .sched, .ras] ⊆ L) (h : Agree L s0 s) : Agree L s0 (State.misplaced s dom addr) := by
  unfold State.misplaced
  refine Agree.ite ?_ ?_
  · refine State.accessErr_agree (sub hL (by decide)) ?_
    exact h
  · refine Agree.sched_write (mem_of hL (by decide)) ?_ _
    refine State.log_agree (sub hL (by decide)) ?_
    refine State.accessErr_agree (sub hL (by decide)) ?_
    exact h

theorem State.send_agree {L s0 s dst queue body} (hL : [.fabric] ⊆ L) (h : Agree L s0 s) : Agree L s0 (State.send s dst queue body) := by
  unfold State.send
  refine Agree.ite ?_ ?_
  · exact h
  · refine Agree.fabric_write (mem_of hL (by decide)) ?_ _
    exact h

end Sys2Proof.Machine
end

