-- ==== Sys2Proof/Laws/KeepSelect.lean ====
section
/-! SUPPORT. What the operations of Machine/Select.lean may touch. -/

namespace Sys2Proof.Machine

open Sys2Proof

theorem State.routeSkips_agree {L s0 dom l} : ∀ {s}, ([.regs, .sched, .ras] ⊆ L) → Agree L s0 s → Agree L s0 (State.routeSkips s dom l) := by
  induction l with
  | nil => intro s _ h; exact h
  | cons x t ih =>
    intro s hL h
    obtain ⟨a, n⟩ := x
    refine ih hL (Agree.ite ?_ ?_)
    · exact State.accessErr_agree (sub hL (by decide)) h
    · exact Agree.sched_write (mem_of hL (by decide)) (State.log_agree (sub hL (by decide)) (State.accessErr_agree (sub hL (by decide)) h)) _

end Sys2Proof.Machine
end

