-- ==== Sys2Proof/Laws/KeepBlocks.lean ====
section
/-! SUPPORT. What the operations of Machine/Blocks.lean may touch. -/

namespace Sys2Proof.Machine

open Sys2Proof

theorem State.setBlockState_agree {L s0 s e i v} (hL : [.regs] ⊆ L) (h : Agree L s0 s) : Agree L s0 (State.setBlockState s e i v) := by
  unfold State.setBlockState
  split
  · refine State.setFld_agree (sub hL (by decide)) ?_
    exact h
  · refine State.setFld_agree (sub hL (by decide)) ?_
    exact h
  · refine State.setFld_agree (sub hL (by decide)) ?_
    exact h
  · refine State.setFld_agree (sub hL (by decide)) ?_
    exact h
  · exact h

theorem State.sliceRun_agree {L s0 s e i} (hL : [.regs] ⊆ L) (h : Agree L s0 s) : Agree L s0 (State.sliceRun s e i) := by
  unfold State.sliceRun
  split
  · refine State.bump_agree (sub hL (by decide)) ?_
    exact h
  · refine State.bump_agree (sub hL (by decide)) ?_
    exact h
  · refine State.bump_agree (sub hL (by decide)) ?_
    exact h
  · exact h
  · exact h

theorem State.countOverrun_agree {L s0 s e i} (hL : [.regs] ⊆ L) (h : Agree L s0 s) : Agree L s0 (State.countOverrun s e i) := by
  unfold State.countOverrun
  split
  · refine State.bump_agree (sub hL (by decide)) ?_
    exact h
  · refine State.bump_agree (sub hL (by decide)) ?_
    exact h
  · refine State.bump_agree (sub hL (by decide)) ?_
    exact h
  · exact h
  · exact h

theorem State.countShareRefused_agree {L s0 s d needs} (hL : [.regs] ⊆ L) (h : Agree L s0 s) : Agree L s0 (State.countShareRefused s d needs) := by
  unfold State.countShareRefused
  refine Agree.ite ?_ ?_
  · refine State.bump_agree (sub hL (by decide)) ?_
    exact h
  · exact h

theorem State.endSlice_agree {L s0 s sid t b} (he : State.endSlice s sid = some (b, t)) (hL : [.regs, .sched] ⊆ L) (h : Agree L s0 s) : Agree L s0 t := by
  unfold State.endSlice at he
  try dsimp only at he
  split at he
  · cases he
  · obtain ⟨-, rfl⟩ := Prod.mk.inj (Option.some.inj he)
    refine State.sliceRun_agree (sub hL (by decide)) ?_
    refine Agree.sched_write (mem_of hL (by decide)) ?_ _
    exact h

theorem node_agree {L s0 s f t} (he : node s f = .next t) (hf : ∀ u, Agree L s0 u → Agree L s0 (f u)) (h : Agree L s0 s) :
    Agree L s0 t := by
  unfold node at he
  obtain rfl := Host.Outcome.next.inj he
  exact Agree.ite (hf s h) h

end Sys2Proof.Machine
end

