-- ==== Sys2Proof/Laws/KeepQuery.lean ====
section
/-! SUPPORT. What the operations of Machine/Query.lean may touch. -/

namespace Sys2Proof.Machine

open Sys2Proof

theorem State.putQuery_agree {L s0 s j q} (hL : [.sched] ⊆ L) (h : Agree L s0 s) : Agree L s0 (State.putQuery s j q) := by
  unfold State.putQuery
  refine State.putJob_agree (sub hL (by decide)) ?_
  exact h

theorem State.offered_agree {L s0 s t' n} (hL : [.sched] ⊆ L) (h : Agree L s0 s) : Agree L s0 (State.offered s t' n) := by
  unfold State.offered
  refine Agree.sched_write (mem_of hL (by decide)) ?_ _
  exact h

theorem State.countSelect_agree {L s0 s t' n r rerank} (hL : [.regs, .sched] ⊆ L) (h : Agree L s0 s) : Agree L s0 (State.countSelect s t' n r rerank) := by
  unfold State.countSelect
  refine Agree.ite ?_ ?_
  · refine State.bumpBy_agree (sub hL (by decide)) ?_
    refine State.bumpBy_agree (sub hL (by decide)) ?_
    refine State.bumpBy_agree (sub hL (by decide)) ?_
    refine State.offered_agree (sub hL (by decide)) ?_
    exact h
  · refine State.bumpBy_agree (sub hL (by decide)) ?_
    refine State.bumpBy_agree (sub hL (by decide)) ?_
    refine State.bumpBy_agree (sub hL (by decide)) ?_
    refine State.offered_agree (sub hL (by decide)) ?_
    exact h

theorem State.sendShares_agree {L s0 q e l} : ∀ {s}, ([.fabric] ⊆ L) → Agree L s0 s → Agree L s0 (State.sendShares s q e l) := by
  induction l with
  | nil => intro s _ h; exact h
  | cons x t ih =>
    intro s hL h
    unfold State.sendShares
    refine ih hL ?_
    refine Agree.ite ?_ ?_
    · exact Agree.fabric_write (mem_of hL (by decide)) h _
    · exact State.send_agree (sub hL (by decide)) h

theorem State.reissue_agree {L s0 s j q o moved esc} (hL : [.regs, .sched, .fabric] ⊆ L) (h : Agree L s0 s) : Agree L s0 (State.reissue s j q o moved esc) := by
  unfold State.reissue
  split
  · refine State.doomJob_agree (sub hL (by decide)) ?_
    exact h
  · refine Agree.ite ?_ ?_
    · refine State.doomJob_agree (sub hL (by decide)) ?_
      exact h
    · refine Agree.ite ?_ ?_
      · refine State.doomJob_agree (sub hL (by decide)) ?_
        exact h
      · refine State.sendShares_agree (sub hL (by decide)) ?_
        refine State.putQuery_agree (sub hL (by decide)) ?_
        refine Agree.ite ?_ ?_
        · refine State.bump_agree (sub hL (by decide)) ?_
          exact h
        · exact h

theorem State.receivePartial_agree {L s0 s m} (hL : [.regs, .sched, .fabric] ⊆ L) (h : Agree L s0 s) : Agree L s0 (State.receivePartial s m) := by
  unfold State.receivePartial
  split
  · exact h
  · split
    · exact h
    · refine Agree.ite ?_ ?_
      · refine Agree.ite ?_ ?_
        · refine State.reissue_agree (sub hL (by decide)) ?_
          exact h
        · exact h
      · refine State.putQuery_agree (sub hL (by decide)) ?_
        exact h

theorem State.returnPartial_agree {L s0 s m} (hL : [.regs, .sched, .fabric] ⊆ L) (h : Agree L s0 s) : Agree L s0 (State.returnPartial s m) := by
  unfold State.returnPartial
  refine Agree.ite ?_ ?_
  · refine State.receivePartial_agree (sub hL (by decide)) ?_
    refine Agree.ite ?_ ?_
    · refine State.bump_agree (sub hL (by decide)) ?_
      exact h
    · exact h
  · refine State.send_agree (sub hL (by decide)) ?_
    refine Agree.ite ?_ ?_
    · refine State.bump_agree (sub hL (by decide)) ?_
      exact h
    · exact h

theorem State.writeResults_agree {L s0 s j q} (hL : [.regs, .linkOut, .mem, .pages, .ras, .flash, .link, .nb] ⊆ L) (h : Agree L s0 s) : Agree L s0 (State.writeResults s j q) := by
  unfold State.writeResults
  refine State.store_agree (sub hL (by decide)) ?_
  exact h

theorem State.finishQuery_agree {L s0 s j q st} (hL : [.regs, .linkOut, .mem, .rings, .sched, .pages, .ras, .fabric, .flash, .link, .nb] ⊆ L) (h : Agree L s0 s) : Agree L s0 (State.finishQuery s j q st) := by
  unfold State.finishQuery
  try dsimp only
  split
  · refine State.returnPartial_agree (sub hL (by decide)) ?_
    refine State.dropJob_agree (sub hL (by decide)) ?_
    refine State.countEnd_agree (sub hL (by decide)) ?_
    exact h
  · refine State.dropJob_agree (sub hL (by decide)) ?_
    refine State.postRecord_agree (sub hL (by decide)) ?_
    refine Agree.ite ?_ ?_
    · refine State.writeResults_agree (sub hL (by decide)) ?_
      refine State.countEnd_agree (sub hL (by decide)) ?_
      exact h
    · refine State.countEnd_agree (sub hL (by decide)) ?_
      exact h

theorem State.deliverFinal_agree {L s0 s j q sel} (hL : [.regs, .linkOut, .mem, .rings, .sched, .pages, .ras, .fabric, .flash, .link, .nb] ⊆ L) (h : Agree L s0 s) : Agree L s0 (State.deliverFinal s j q sel) := by
  unfold State.deliverFinal
  refine Agree.ite ?_ ?_
  · refine State.putQuery_agree (sub hL (by decide)) ?_
    exact h
  · refine State.finishQuery_agree (sub hL (by decide)) ?_
    exact h

theorem State.refusalSigns_agree {L s0 s d c checks needs} (hL : [.regs, .sched, .ras] ⊆ L) (h : Agree L s0 s) : Agree L s0 (State.refusalSigns s d c checks needs) := by
  unfold State.refusalSigns
  refine Agree.ite ?_ ?_
  · refine State.log_agree (sub hL (by decide)) ?_
    exact h
  · refine Agree.ite ?_ ?_
    · refine State.misplaced_agree (sub hL (by decide)) ?_
      exact h
    · refine Agree.ite ?_ ?_
      · refine State.countShareRefused_agree (sub hL (by decide)) ?_
        exact h
      · exact h

theorem State.seatQuery_agree {L s0 s d r tag q counted t} (he : State.seatQuery s d r tag q counted = some t) (hL : [.freshCount, .regs, .linkOut, .mem, .rings, .sched, .pages, .ras, .flash, .link, .nb] ⊆ L) (h : Agree L s0 s) : Agree L s0 t := by
  unfold State.seatQuery at he
  try dsimp only at he
  split at he
  · cases he
  · split at he
    · obtain rfl := Option.some.inj he
      refine Agree.ite ?_ ?_
      · refine State.fresh_agree (sub hL (by decide)) ?_
        refine State.doomJob_agree (sub hL (by decide)) ?_
        refine State.addJob_agree (sub hL (by decide)) ?_
        refine State.takeHead_agree (sub hL (by decide)) ?_
        refine Agree.ite ?_ ?_
        · refine State.bump_agree (sub hL (by decide)) ?_
          exact h
        · exact h
      · refine State.fresh_agree (sub hL (by decide)) ?_
        refine State.addJob_agree (sub hL (by decide)) ?_
        refine State.takeHead_agree (sub hL (by decide)) ?_
        refine Agree.ite ?_ ?_
        · refine State.bump_agree (sub hL (by decide)) ?_
          exact h
        · exact h
    · cases he

theorem State.startSearch_agree {L s0 s d r c x t} (he : State.startSearch s d r c x = some t) (hL : [.freshCount, .regs, .linkOut, .mem, .rings, .sched, .pages, .ras, .flash, .link, .nb] ⊆ L) (h : Agree L s0 s) : Agree L s0 t := by
  unfold State.startSearch at he
  try dsimp only at he
  split at he
  · refine State.seatQuery_agree he (sub hL (by decide)) ?_
    exact h
  · refine State.seatQuery_agree he (sub hL (by decide)) ?_
    exact h

theorem State.takeSearch_agree {L s0 s d r t} (he : State.takeSearch s d r = some t) (hL : [.freshCount, .regs, .linkOut, .mem, .rings, .sched, .pages, .ras, .flash, .link, .nb] ⊆ L) (h : Agree L s0 s) : Agree L s0 t := by
  unfold State.takeSearch at he
  try dsimp only at he
  split at he
  · cases he
  · split at he
    · cases he
    · split at he
      · obtain rfl := Option.some.inj he
        refine State.postRecord_agree (sub hL (by decide)) ?_
        refine State.countEnd_agree (sub hL (by decide)) ?_
        refine State.takeHead_agree (sub hL (by decide)) ?_
        refine State.refusalSigns_agree (sub hL (by decide)) ?_
        exact h
      · refine State.startSearch_agree he (sub hL (by decide)) ?_
        exact h

theorem State.takeAbort_agree {L s0 s d r} (hL : [.regs, .linkOut, .mem, .rings, .sched, .pages, .ras, .flash, .link, .nb] ⊆ L) (h : Agree L s0 s) : Agree L s0 (State.takeAbort s d r) := by
  unfold State.takeAbort
  refine Agree.ite ?_ ?_
  · refine State.setJobs_agree (sub hL (by decide)) ?_
    refine State.takeHead_agree (sub hL (by decide)) ?_
    exact h
  · refine State.bump_agree (sub hL (by decide)) ?_
    refine State.takeHead_agree (sub hL (by decide)) ?_
    exact h

theorem State.tablesDone_agree {L s0 s j q} (hL : [.regs, .sched] ⊆ L) (h : Agree L s0 s) : Agree L s0 (State.tablesDone s j q) := by
  unfold State.tablesDone
  refine State.putQuery_agree (sub hL (by decide)) ?_
  refine State.bumpBy_agree (sub hL (by decide)) ?_
  exact h

theorem State.countTables_agree {L s0 s entries r} (hL : [.regs] ⊆ L) (h : Agree L s0 s) : Agree L s0 (State.countTables s entries r) := by
  unfold State.countTables
  refine State.bumpBy_agree (sub hL (by decide)) ?_
  refine State.bumpBy_agree (sub hL (by decide)) ?_
  exact h

theorem State.quantizeStep_agree {L s0 s j q} (hL : [.freshCount, .regs, .sched] ⊆ L) (h : Agree L s0 s) : Agree L s0 (State.quantizeStep s j q) := by
  unfold State.quantizeStep
  refine Agree.ite ?_ ?_
  · refine State.tablesDone_agree (sub hL (by decide)) ?_
    refine Agree.ite ?_ ?_
    · refine State.countTables_agree (sub hL (by decide)) ?_
      refine State.fresh_agree (sub hL (by decide)) ?_
      exact h
    · refine State.bumpBy_agree (sub hL (by decide)) ?_
      refine State.bump_agree (sub hL (by decide)) ?_
      refine State.fresh_agree (sub hL (by decide)) ?_
      exact h
  · refine Agree.ite ?_ ?_
    · refine State.putQuery_agree (sub hL (by decide)) ?_
      refine State.bump_agree (sub hL (by decide)) ?_
      refine State.countTables_agree (sub hL (by decide)) ?_
      refine State.fresh_agree (sub hL (by decide)) ?_
      exact h
    · refine State.tablesDone_agree (sub hL (by decide)) ?_
      refine Agree.ite ?_ ?_
      · refine State.bump_agree (sub hL (by decide)) ?_
        refine State.countTables_agree (sub hL (by decide)) ?_
        refine State.fresh_agree (sub hL (by decide)) ?_
        exact h
      · refine State.countTables_agree (sub hL (by decide)) ?_
        refine State.fresh_agree (sub hL (by decide)) ?_
        exact h

theorem State.rebuildStep_agree {L s0 s j q} (hL : [.freshCount, .regs, .sched] ⊆ L) (h : Agree L s0 s) : Agree L s0 (State.rebuildStep s j q) := by
  unfold State.rebuildStep
  refine State.tablesDone_agree (sub hL (by decide)) ?_
  refine State.countTables_agree (sub hL (by decide)) ?_
  refine State.fresh_agree (sub hL (by decide)) ?_
  exact h

theorem State.placeProbes_agree {L s0 s j q list localP} (hL : [.regs, .linkOut, .mem, .rings, .sched, .pages, .ras, .fabric, .flash, .link, .nb] ⊆ L) (h : Agree L s0 s) : Agree L s0 (State.placeProbes s j q list localP) := by
  unfold State.placeProbes
  refine Agree.ite ?_ ?_
  · refine State.putQuery_agree (sub hL (by decide)) ?_
    exact h
  · try dsimp only
    split
    · refine State.finishQuery_agree (sub hL (by decide)) ?_
      exact h
    · refine State.sendShares_agree (sub hL (by decide)) ?_
      refine State.putQuery_agree (sub hL (by decide)) ?_
      exact h

theorem State.routeProbes_agree {L s0 s j q list} (hL : [.regs, .linkOut, .mem, .rings, .sched, .pages, .ras, .fabric, .flash, .link, .nb] ⊆ L) (h : Agree L s0 s) : Agree L s0 (State.routeProbes s j q list) := by
  unfold State.routeProbes
  refine Agree.ite ?_ ?_
  · refine State.finishQuery_agree (sub hL (by decide)) ?_
    exact h
  · try dsimp only
    split
    · refine State.finishQuery_agree (sub hL (by decide)) ?_
      refine State.misplaced_agree (sub hL (by decide)) ?_
      exact h
    · refine State.placeProbes_agree (sub hL (by decide)) ?_
      exact h

theorem State.finishWalk_agree {L s0 s j q} (hL : [.freshCount, .regs, .linkOut, .mem, .rings, .sched, .pages, .ras, .fabric, .flash, .link, .nb] ⊆ L) (h : Agree L s0 s) : Agree L s0 (State.finishWalk s j q) := by
  unfold State.finishWalk
  refine Agree.ite ?_ ?_
  · refine State.doomJob_agree (sub hL (by decide)) ?_
    refine State.putQuery_agree (sub hL (by decide)) ?_
    refine State.routeSkips_agree (sub hL (by decide)) ?_
    refine State.fresh_agree (sub hL (by decide)) ?_
    exact h
  · refine State.routeProbes_agree (sub hL (by decide)) ?_
    refine Agree.ite ?_ ?_
    · refine State.bump_agree (sub hL (by decide)) ?_
      refine State.routeSkips_agree (sub hL (by decide)) ?_
      refine State.fresh_agree (sub hL (by decide)) ?_
      exact h
    · refine State.routeSkips_agree (sub hL (by decide)) ?_
      refine State.fresh_agree (sub hL (by decide)) ?_
      exact h

end Sys2Proof.Machine
end

