-- ==== Sys2Proof/Laws/KeepPasses.lean ====
section
/-! SUPPORT. What the operations of Machine/Passes.lean may touch. -/

namespace Sys2Proof.Machine

open Sys2Proof

theorem State.startPass_agree {L s0 s sketch ws} (hL : [.sched] ⊆ L) (h : Agree L s0 s) : Agree L s0 (State.startPass s sketch ws) := by
  unfold State.startPass
  split
  · exact h
  · refine Agree.fold ?_ ?_
    · intro t1 x1 h1
      show Agree L s0 _
      try dsimp only
      split
      · refine State.putQuery_agree (sub hL (by decide)) ?_
        exact h1
      · exact h1
    · refine Agree.sched_write (mem_of hL (by decide)) ?_ _
      exact h

theorem State.formPasses_agree {L s0 s sketch f} (hL : [.sched] ⊆ L) (h : Agree L s0 s) : Agree L s0 (State.formPasses s sketch f) := by
  unfold State.formPasses
  refine Agree.fold ?_ ?_
  · intro t1 x1 h1
    show Agree L s0 _
    refine State.startPass_agree (sub hL (by decide)) ?_
    exact h1
  · exact h

theorem State.takeScan_agree {L s0 s j q need x} (hL : [.regs, .sched] ⊆ L) (h : Agree L s0 s) : Agree L s0 (State.takeScan s j q need x) := by
  unfold State.takeScan
  refine Agree.ite ?_ ?_
  · refine State.doomJob_agree (sub hL (by decide)) ?_
    refine State.putQuery_agree (sub hL (by decide)) ?_
    refine State.bumpBy_agree (sub hL (by decide)) ?_
    exact h
  · refine State.putQuery_agree (sub hL (by decide)) ?_
    refine State.bumpBy_agree (sub hL (by decide)) ?_
    exact h

theorem State.tileRead_agree {L s0 s t' n} (hL : [.regs, .sched] ⊆ L) (h : Agree L s0 s) : Agree L s0 (State.tileRead s t' n) := by
  unfold State.tileRead
  refine State.setFld_agree (sub hL (by decide)) ?_
  refine Agree.sched_write (mem_of hL (by decide)) ?_ _
  exact h

theorem State.putPass_agree {L s0 s p} (hL : [.sched] ⊆ L) (h : Agree L s0 s) : Agree L s0 (State.putPass s p) := by
  unfold State.putPass
  refine Agree.sched_write (mem_of hL (by decide)) ?_ _
  exact h

theorem State.closePass_agree {L s0 s id} (hL : [.sched] ⊆ L) (h : Agree L s0 s) : Agree L s0 (State.closePass s id) := by
  unfold State.closePass
  split
  · exact h
  · refine Agree.ite ?_ ?_
    · exact h
    · refine Agree.fold ?_ ?_
      · intro t1 x1 h1
        show Agree L s0 _
        try dsimp only
        split
        · exact h1
        · refine Agree.ite ?_ ?_
          · refine State.putQuery_agree (sub hL (by decide)) ?_
            exact h1
          · refine State.putQuery_agree (sub hL (by decide)) ?_
            exact h1
      · refine Agree.sched_write (mem_of hL (by decide)) ?_ _
        exact h

theorem State.runCode_agree {L s0 s p l lo n} (hL : [.regs, .sched] ⊆ L) (h : Agree L s0 s) : Agree L s0 (State.runCode s p l lo n) := by
  unfold State.runCode
  refine Agree.fold ?_ ?_
  · intro t1 x1 h1
    show Agree L s0 _
    split
    · exact h1
    · split
      · refine State.takeScan_agree (sub hL (by decide)) ?_
        exact h1
      · exact h1
  · exact h

theorem State.runSide_agree {L s0 s p l slot lo n} (hL : [.regs, .sched] ⊆ L) (h : Agree L s0 s) : Agree L s0 (State.runSide s p l slot lo n) := by
  unfold State.runSide
  refine Agree.fold ?_ ?_
  · intro t1 x1 h1
    show Agree L s0 _
    split
    · exact h1
    · split
      · refine State.takeScan_agree (sub hL (by decide)) ?_
        exact h1
      · exact h1
  · exact h

theorem State.runSketch_agree {L s0 s p l lo n} (hL : [.sched] ⊆ L) (h : Agree L s0 s) : Agree L s0 (State.runSketch s p l lo n) := by
  unfold State.runSketch
  refine Agree.fold ?_ ?_
  · intro t1 x1 h1
    show Agree L s0 _
    split
    · exact h1
    · refine Agree.ite ?_ ?_
      · refine State.doomJob_agree (sub hL (by decide)) ?_
        refine State.putQuery_agree (sub hL (by decide)) ?_
        exact h1
      · refine State.putQuery_agree (sub hL (by decide)) ?_
        exact h1
  · exact h

theorem State.passSliceEnd_agree {L s0 s id} (hL : [.sched] ⊆ L) (h : Agree L s0 s) : Agree L s0 (State.passSliceEnd s id) := by
  unfold State.passSliceEnd
  split
  · refine State.closePass_agree (sub hL (by decide)) ?_
    refine State.putPass_agree (sub hL (by decide)) ?_
    exact h
  · exact h

theorem State.runSelect_agree {L s0 s j q n} (hL : [.regs, .linkOut, .mem, .rings, .sched, .pages, .ras, .fabric, .flash, .link, .nb] ⊆ L) (h : Agree L s0 s) : Agree L s0 (State.runSelect s j q n) := by
  unfold State.runSelect
  split
  · exact h
  · refine State.putQuery_agree (sub hL (by decide)) ?_
    refine State.countSelect_agree (sub hL (by decide)) ?_
    exact h
  · refine State.putQuery_agree (sub hL (by decide)) ?_
    refine State.offered_agree (sub hL (by decide)) ?_
    exact h
  · refine Agree.ite ?_ ?_
    · refine State.putQuery_agree (sub hL (by decide)) ?_
      exact h
    · refine State.putQuery_agree (sub hL (by decide)) ?_
      refine State.bumpBy_agree (sub hL (by decide)) ?_
      refine State.countSelect_agree (sub hL (by decide)) ?_
      exact h
  · refine Agree.ite ?_ ?_
    · refine State.putQuery_agree (sub hL (by decide)) ?_
      exact h
    · refine State.deliverFinal_agree (sub hL (by decide)) ?_
      refine State.bumpBy_agree (sub hL (by decide)) ?_
      refine State.countSelect_agree (sub hL (by decide)) ?_
      exact h

theorem State.issueReads_agree {L s0 s j q} (hL : [.sched] ⊆ L) (h : Agree L s0 s) : Agree L s0 (State.issueReads s j q) := by
  unfold State.issueReads
  refine Agree.ite ?_ ?_
  · refine State.putQuery_agree (sub hL (by decide)) ?_
    exact h
  · refine Agree.ite ?_ ?_
    · refine State.putQuery_agree (sub hL (by decide)) ?_
      exact h
    · exact h

theorem State.readLanded_agree {L s0 s j q i} (hL : [.sched] ⊆ L) (h : Agree L s0 s) : Agree L s0 (State.readLanded s j q i) := by
  unfold State.readLanded
  refine Agree.ite ?_ ?_
  · refine State.putQuery_agree (sub hL (by decide)) ?_
    exact h
  · exact h

theorem State.runRerank_agree {L s0 s j q n} (hL : [.freshCount, .sched] ⊆ L) (h : Agree L s0 s) : Agree L s0 (State.runRerank s j q n) := by
  unfold State.runRerank
  refine Agree.ite ?_ ?_
  · refine State.doomJob_agree (sub hL (by decide)) ?_
    exact h
  · refine State.fresh_agree (sub hL (by decide)) ?_
    refine State.putQuery_agree (sub hL (by decide)) ?_
    exact h

theorem State.runFanIn_agree {L s0 s j q n} (hL : [.regs, .linkOut, .mem, .rings, .sched, .pages, .ras, .fabric, .flash, .link, .nb] ⊆ L) (h : Agree L s0 s) : Agree L s0 (State.runFanIn s j q n) := by
  unfold State.runFanIn
  refine Agree.ite ?_ ?_
  · refine State.putQuery_agree (sub hL (by decide)) ?_
    exact h
  · refine State.finishQuery_agree (sub hL (by decide)) ?_
    refine State.bumpBy_agree (sub hL (by decide)) ?_
    refine State.countSelect_agree (sub hL (by decide)) ?_
    exact h

theorem State.tryShare_agree {L s0 s w} (hL : [.freshCount, .regs, .sched, .ras, .fabric] ⊆ L) (h : Agree L s0 s) : Agree L s0 (State.tryShare s w) := by
  unfold State.tryShare
  try dsimp only
  split
  · exact h
  · refine State.returnPartial_agree (sub hL (by decide)) ?_
    refine Agree.ite ?_ ?_
    · refine State.setFld_agree (sub hL (by decide)) ?_
      refine Agree.fabric_write (mem_of hL (by decide)) ?_ _
      exact h
    · refine Agree.fabric_write (mem_of hL (by decide)) ?_ _
      exact h
  · refine Agree.ite ?_ ?_
    · refine State.returnPartial_agree (sub hL (by decide)) ?_
      refine Agree.fabric_write (mem_of hL (by decide)) ?_ _
      exact h
    · split
      · refine State.returnPartial_agree (sub hL (by decide)) ?_
        refine Agree.ite ?_ ?_
        · refine State.misplaced_agree (sub hL (by decide)) ?_
          refine Agree.fabric_write (mem_of hL (by decide)) ?_ _
          exact h
        · refine Agree.ite ?_ ?_
          · refine State.misplaced_agree (sub hL (by decide)) ?_
            refine Agree.fabric_write (mem_of hL (by decide)) ?_ _
            exact h
          · refine Agree.ite ?_ ?_
            · refine State.countShareRefused_agree (sub hL (by decide)) ?_
              refine Agree.fabric_write (mem_of hL (by decide)) ?_ _
              exact h
            · refine Agree.fabric_write (mem_of hL (by decide)) ?_ _
              exact h
      · try dsimp only
        split
        · refine Agree.ite ?_ ?_
          · refine Agree.ite ?_ ?_
            · refine State.doomJob_agree (sub hL (by decide)) ?_
              refine State.fresh_agree (sub hL (by decide)) ?_
              refine State.setJobs_agree (sub hL (by decide)) ?_
              refine Agree.ite ?_ ?_
              · refine State.bump_agree (sub hL (by decide)) ?_
                refine Agree.ite ?_ ?_
                · refine State.bump_agree (sub hL (by decide)) ?_
                  refine State.addJob_agree (sub hL (by decide)) ?_
                  refine Agree.fabric_write (mem_of hL (by decide)) ?_ _
                  exact h
                · refine State.addJob_agree (sub hL (by decide)) ?_
                  refine Agree.fabric_write (mem_of hL (by decide)) ?_ _
                  exact h
              · refine Agree.ite ?_ ?_
                · refine State.bump_agree (sub hL (by decide)) ?_
                  refine State.addJob_agree (sub hL (by decide)) ?_
                  refine Agree.fabric_write (mem_of hL (by decide)) ?_ _
                  exact h
                · refine State.addJob_agree (sub hL (by decide)) ?_
                  refine Agree.fabric_write (mem_of hL (by decide)) ?_ _
                  exact h
            · refine State.fresh_agree (sub hL (by decide)) ?_
              refine State.setJobs_agree (sub hL (by decide)) ?_
              refine Agree.ite ?_ ?_
              · refine State.bump_agree (sub hL (by decide)) ?_
                refine Agree.ite ?_ ?_
                · refine State.bump_agree (sub hL (by decide)) ?_
                  refine State.addJob_agree (sub hL (by decide)) ?_
                  refine Agree.fabric_write (mem_of hL (by decide)) ?_ _
                  exact h
                · refine State.addJob_agree (sub hL (by decide)) ?_
                  refine Agree.fabric_write (mem_of hL (by decide)) ?_ _
                  exact h
              · refine Agree.ite ?_ ?_
                · refine State.bump_agree (sub hL (by decide)) ?_
                  refine State.addJob_agree (sub hL (by decide)) ?_
                  refine Agree.fabric_write (mem_of hL (by decide)) ?_ _
                  exact h
                · refine State.addJob_agree (sub hL (by decide)) ?_
                  refine Agree.fabric_write (mem_of hL (by decide)) ?_ _
                  exact h
          · refine Agree.ite ?_ ?_
            · refine State.returnPartial_agree (sub hL (by decide)) ?_
              refine Agree.fabric_write (mem_of hL (by decide)) ?_ _
              exact h
            · exact h
        · refine Agree.ite ?_ ?_
          · refine State.returnPartial_agree (sub hL (by decide)) ?_
            refine Agree.fabric_write (mem_of hL (by decide)) ?_ _
            exact h
          · exact h

theorem State.arriveShare_agree {L s0 s src m} (hL : [.freshCount, .regs, .sched, .ras, .fabric] ⊆ L) (h : Agree L s0 s) : Agree L s0 (State.arriveShare s src m) := by
  unfold State.arriveShare
  refine State.tryShare_agree (sub hL (by decide)) ?_
  refine Agree.fabric_write (mem_of hL (by decide)) ?_ _
  exact h

theorem State.tryShares_agree {L s0 s} (hL : [.freshCount, .regs, .sched, .ras, .fabric] ⊆ L) (h : Agree L s0 s) : Agree L s0 (State.tryShares s) := by
  unfold State.tryShares
  refine Agree.fold ?_ ?_
  · intro t1 x1 h1
    show Agree L s0 _
    refine State.tryShare_agree (sub hL (by decide)) ?_
    exact h1
  · exact h

end Sys2Proof.Machine
end

