-- ==== Sys2Proof/Laws/KeepUpdates.lean ====
section
/-! SUPPORT. What the operations of Machine/Updates.lean may touch. -/

namespace Sys2Proof.Machine

open Sys2Proof

theorem State.syncCounts_agree {L s0 s c p} (hL : [.regs, .linkOut, .mem, .pages, .ras, .flash, .link, .nb] ⊆ L) (h : Agree L s0 s) : Agree L s0 (State.syncCounts s c p) := by
  unfold State.syncCounts
  refine State.putField_agree (sub hL (by decide)) ?_
  refine State.putField_agree (sub hL (by decide)) ?_
  refine State.putField_agree (sub hL (by decide)) ?_
  exact h

theorem State.partFull_agree {L s0 s c p} (hL : [.regs, .linkOut, .mem, .pages, .ras, .flash, .link, .nb] ⊆ L) (h : Agree L s0 s) : Agree L s0 (State.partFull s c p) := by
  unfold State.partFull
  refine State.putField_agree (sub hL (by decide)) ?_
  exact h

theorem State.writeFull_agree {L s0 s sh c p o x dom} (hL : [.regs, .linkOut, .mem, .pages, .ras, .flash, .link, .nb] ⊆ L) (h : Agree L s0 s) : Agree L s0 (State.writeFull s sh c p o x dom) := by
  unfold State.writeFull
  refine Agree.ite ?_ ?_
  · exact h
  · refine Agree.ite ?_ ?_
    · refine State.bump_agree (sub hL (by decide)) ?_
      refine Agree.ite ?_ ?_
      · refine State.bump_agree (sub hL (by decide)) ?_
        refine State.store_agree (sub hL (by decide)) ?_
        exact h
      · refine State.store_agree (sub hL (by decide)) ?_
        exact h
    · refine Agree.ite ?_ ?_
      · refine State.bump_agree (sub hL (by decide)) ?_
        refine State.store_agree (sub hL (by decide)) ?_
        exact h
      · refine State.store_agree (sub hL (by decide)) ?_
        exact h

theorem State.refuseUpdate_agree {L s0 s d r x checks st} (hL : [.freshCount, .regs, .linkOut, .mem, .rings, .sched, .pages, .ras, .flash, .link, .nb] ⊆ L) (h : Agree L s0 s) : Agree L s0 (State.refuseUpdate s d r x checks st) := by
  unfold State.refuseUpdate
  refine State.postRecord_agree (sub hL (by decide)) ?_
  refine State.fresh_agree (sub hL (by decide)) ?_
  refine Agree.ite ?_ ?_
  · refine State.countShareRefused_agree (sub hL (by decide)) ?_
    refine Agree.ite ?_ ?_
    · refine State.bump_agree (sub hL (by decide)) ?_
      refine State.countEnd_agree (sub hL (by decide)) ?_
      exact h
    · refine State.countEnd_agree (sub hL (by decide)) ?_
      exact h
  · refine Agree.ite ?_ ?_
    · refine State.misplaced_agree (sub hL (by decide)) ?_
      refine Agree.ite ?_ ?_
      · refine State.bump_agree (sub hL (by decide)) ?_
        refine State.countEnd_agree (sub hL (by decide)) ?_
        exact h
      · refine State.countEnd_agree (sub hL (by decide)) ?_
        exact h
    · refine Agree.ite ?_ ?_
      · refine State.partFull_agree (sub hL (by decide)) ?_
        refine Agree.ite ?_ ?_
        · refine State.bump_agree (sub hL (by decide)) ?_
          refine State.countEnd_agree (sub hL (by decide)) ?_
          exact h
        · refine State.countEnd_agree (sub hL (by decide)) ?_
          exact h
      · refine Agree.ite ?_ ?_
        · refine State.bump_agree (sub hL (by decide)) ?_
          refine State.countEnd_agree (sub hL (by decide)) ?_
          exact h
        · refine State.countEnd_agree (sub hL (by decide)) ?_
          exact h

theorem State.prepare_agree {L s0 s d r chain x} (hL : [.regs, .linkOut, .mem, .sched, .parts, .pages, .ras, .flash, .link, .nb] ⊆ L) (h : Agree L s0 s) : Agree L s0 (State.prepare s d r chain x).1 := by
  unfold State.prepare
  refine Agree.iteFst ?_ ?_
  · refine State.addJob_agree (sub hL (by decide)) ?_
    exact h
  · refine State.addJob_agree (sub hL (by decide)) ?_
    refine Agree.ite ?_ ?_
    · refine State.store_agree (sub hL (by decide)) ?_
      refine Agree.ite ?_ ?_
      · refine State.partFull_agree (sub hL (by decide)) ?_
        refine State.syncCounts_agree (sub hL (by decide)) ?_
        refine State.setPart_agree (sub hL (by decide)) ?_
        exact h
      · refine State.syncCounts_agree (sub hL (by decide)) ?_
        refine State.setPart_agree (sub hL (by decide)) ?_
        exact h
    · refine State.writeFull_agree (sub hL (by decide)) ?_
      refine State.store_agree (sub hL (by decide)) ?_
      refine Agree.ite ?_ ?_
      · refine State.partFull_agree (sub hL (by decide)) ?_
        refine State.syncCounts_agree (sub hL (by decide)) ?_
        refine State.setPart_agree (sub hL (by decide)) ?_
        exact h
      · refine State.syncCounts_agree (sub hL (by decide)) ?_
        refine State.setPart_agree (sub hL (by decide)) ?_
        exact h

theorem State.takeUpdates_agree {L s0 s d r t} (he : State.takeUpdates s d r = some t) (hL : [.freshCount, .regs, .linkOut, .mem, .rings, .sched, .parts, .pages, .ras, .flash, .link, .nb] ⊆ L) (h : Agree L s0 s) : Agree L s0 t := by
  unfold State.takeUpdates at he
  try dsimp only at he
  split at he
  · cases he
  · split at he
    · cases he
    · split at he
      · obtain rfl := Option.some.inj he
        refine Agree.fold ?_ ?_
        · intro t1 x1 h1
          show Agree L s0 _
          refine State.refuseUpdate_agree (sub hL (by decide)) ?_
          refine State.takeHead_agree (sub hL (by decide)) ?_
          exact h1
        · exact h
      · obtain rfl := Option.some.inj he
        refine Agree.sched_write (mem_of hL (by decide)) ?_ _
        refine Agree.foldFst ?_ ?_
        · intro t2 x2 h2
          try dsimp only
          split
          · refine State.prepare_agree (sub hL (by decide)) ?_
            refine State.takeHead_agree (sub hL (by decide)) ?_
            exact h2
          · refine State.addJob_agree (sub hL (by decide)) ?_
            refine State.takeHead_agree (sub hL (by decide)) ?_
            exact h2
          · refine State.addJob_agree (sub hL (by decide)) ?_
            refine State.takeHead_agree (sub hL (by decide)) ?_
            exact h2
        · exact h

theorem State.runEncode_agree {L s0 s j u} (hL : [.freshCount, .regs, .linkOut, .mem, .sched, .pages, .ras, .flash, .link, .nb] ⊆ L) (h : Agree L s0 s) : Agree L s0 (State.runEncode s j u) := by
  unfold State.runEncode
  refine State.putJob_agree (sub hL (by decide)) ?_
  refine State.fresh_agree (sub hL (by decide)) ?_
  refine State.store_agree (sub hL (by decide)) ?_
  exact h

theorem State.addTomb_agree {L s0 s l o e} (hL : [.regs, .linkOut, .mem, .pages, .ras, .flash, .link, .nb] ⊆ L) (h : Agree L s0 s) : Agree L s0 (State.addTomb s l o e).1 := by
  unfold State.addTomb
  refine State.setFilter_agree (sub hL (by decide)) ?_
  refine State.store_agree (sub hL (by decide)) ?_
  exact h

theorem State.carrySide_agree {L s0 s old new i dom} (hL : [.regs, .linkOut, .mem, .pages, .ras, .flash, .link, .nb] ⊆ L) (h : Agree L s0 s) : Agree L s0 (State.carrySide s old new i dom).1 := by
  unfold State.carrySide
  refine State.store_agree (sub hL (by decide)) ?_
  exact h

theorem State.putCompact_agree {L s0 s j x} (hL : [.sched] ⊆ L) (h : Agree L s0 s) : Agree L s0 (State.putCompact s j x) := by
  unfold State.putCompact
  refine State.putJob_agree (sub hL (by decide)) ?_
  exact h

theorem State.commitInsert_agree {L s0 s j u eff} (hL : [.regs, .linkOut, .mem, .rings, .sched, .pages, .ras, .flash, .link, .nb] ⊆ L) (h : Agree L s0 s) : Agree L s0 (State.commitInsert s j u eff) := by
  unfold State.commitInsert
  refine State.postRecord_agree (sub hL (by decide)) ?_
  refine State.bump_agree (sub hL (by decide)) ?_
  try dsimp only
  split
  · refine State.putCompact_agree (sub hL (by decide)) ?_
    refine State.carrySide_agree (sub hL (by decide)) ?_
    refine State.store_agree (sub hL (by decide)) ?_
    exact h
  · refine State.store_agree (sub hL (by decide)) ?_
    exact h

theorem State.commitDelete_agree {L s0 s j u eff} (hL : [.freshCount, .regs, .linkOut, .mem, .rings, .sched, .parts, .pages, .ras, .flash, .link, .nb] ⊆ L) (h : Agree L s0 s) : Agree L s0 (State.commitDelete s j u eff) := by
  unfold State.commitDelete
  try dsimp only
  split
  · refine State.postRecord_agree (sub hL (by decide)) ?_
    refine State.fresh_agree (sub hL (by decide)) ?_
    exact h
  · refine State.postRecord_agree (sub hL (by decide)) ?_
    refine State.bump_agree (sub hL (by decide)) ?_
    refine State.fresh_agree (sub hL (by decide)) ?_
    try dsimp only
    split
    · refine State.putCompact_agree (sub hL (by decide)) ?_
      refine State.addTomb_agree (sub hL (by decide)) ?_
      refine State.syncCounts_agree (sub hL (by decide)) ?_
      refine State.setPart_agree (sub hL (by decide)) ?_
      refine State.addTomb_agree (sub hL (by decide)) ?_
      exact h
    · refine State.syncCounts_agree (sub hL (by decide)) ?_
      refine State.setPart_agree (sub hL (by decide)) ?_
      refine State.addTomb_agree (sub hL (by decide)) ?_
      exact h

theorem State.failUpdate_agree {L s0 s j u st} (hL : [.freshCount, .regs, .linkOut, .mem, .rings, .parts, .pages, .ras, .flash, .link, .nb] ⊆ L) (h : Agree L s0 s) : Agree L s0 (State.failUpdate s j u st) := by
  unfold State.failUpdate
  refine State.postRecord_agree (sub hL (by decide)) ?_
  refine State.countEnd_agree (sub hL (by decide)) ?_
  refine State.fresh_agree (sub hL (by decide)) ?_
  refine Agree.ite ?_ ?_
  · refine State.bump_agree (sub hL (by decide)) ?_
    refine Agree.ite ?_ ?_
    · refine State.setPart_agree (sub hL (by decide)) ?_
      exact h
    · exact h
  · refine Agree.ite ?_ ?_
    · refine State.setPart_agree (sub hL (by decide)) ?_
      exact h
    · exact h

theorem State.handVectors_agree {L s0 s} (hL : [.regs, .linkOut, .mem, .sched, .pages, .ras, .flash, .link, .nb] ⊆ L) (h : Agree L s0 s) : Agree L s0 (State.handVectors s) := by
  unfold State.handVectors
  refine Agree.fold ?_ ?_
  · intro t1 x1 h1
    show Agree L s0 _
    split
    · refine Agree.ite ?_ ?_
      · refine State.putJob_agree (sub hL (by decide)) ?_
        refine State.writeFull_agree (sub hL (by decide)) ?_
        exact h1
      · exact h1
    · exact h1
  · exact h

end Sys2Proof.Machine
end

