-- ==== Sys2Proof/Laws/KeepMaint.lean ====
section
/-! SUPPORT. What the operations of Machine/Maint.lean may touch. -/

namespace Sys2Proof.Machine

open Sys2Proof

theorem State.failMaint_agree {L s0 s d r tag st fold} (hL : [.freshCount, .regs, .linkOut, .mem, .rings, .pages, .ras, .flash, .link, .nb] ⊆ L) (h : Agree L s0 s) : Agree L s0 (State.failMaint s d r tag st fold) := by
  unfold State.failMaint
  refine State.setFld_agree (sub hL (by decide)) ?_
  refine State.setRing_agree (sub hL (by decide)) ?_
  refine State.postRecord_agree (sub hL (by decide)) ?_
  refine State.countEnd_agree (sub hL (by decide)) ?_
  refine State.fresh_agree (sub hL (by decide)) ?_
  exact h

theorem State.takeCompact_agree {L s0 s d r t} (he : State.takeCompact s d r = some t) (hL : [.freshCount, .regs, .linkOut, .mem, .rings, .sched, .parts, .pages, .ras, .flash, .link, .nb] ⊆ L) (h : Agree L s0 s) : Agree L s0 t := by
  unfold State.takeCompact at he
  try dsimp only at he
  split at he
  · cases he
  · split at he
    · obtain rfl := Option.some.inj he
      refine State.failMaint_agree (sub hL (by decide)) ?_
      refine Agree.ite ?_ ?_
      · refine State.takeHead_agree (sub hL (by decide)) ?_
        refine Agree.sched_write (mem_of hL (by decide)) ?_ _
        exact h
      · refine Agree.ite ?_ ?_
        · refine State.misplaced_agree (sub hL (by decide)) ?_
          refine State.takeHead_agree (sub hL (by decide)) ?_
          refine Agree.sched_write (mem_of hL (by decide)) ?_ _
          exact h
        · refine Agree.ite ?_ ?_
          · refine State.countShareRefused_agree (sub hL (by decide)) ?_
            refine State.takeHead_agree (sub hL (by decide)) ?_
            refine Agree.sched_write (mem_of hL (by decide)) ?_ _
            exact h
          · refine State.takeHead_agree (sub hL (by decide)) ?_
            refine Agree.sched_write (mem_of hL (by decide)) ?_ _
            exact h
    · obtain rfl := Option.some.inj he
      refine Agree.ite ?_ ?_
      · refine State.doomJob_agree (sub hL (by decide)) ?_
        refine State.addJob_agree (sub hL (by decide)) ?_
        refine State.setPart_agree (sub hL (by decide)) ?_
        refine State.takeHead_agree (sub hL (by decide)) ?_
        refine Agree.sched_write (mem_of hL (by decide)) ?_ _
        exact h
      · refine State.addJob_agree (sub hL (by decide)) ?_
        refine State.setPart_agree (sub hL (by decide)) ?_
        refine State.takeHead_agree (sub hL (by decide)) ?_
        refine Agree.sched_write (mem_of hL (by decide)) ?_ _
        exact h

theorem State.noteCompactWait_agree {L s0 s d r} (hL : [.sched] ⊆ L) (h : Agree L s0 s) : Agree L s0 (State.noteCompactWait s d r) := by
  unfold State.noteCompactWait
  refine Agree.ite ?_ ?_
  · exact h
  · refine Agree.sched_write (mem_of hL (by decide)) ?_ _
    exact h

theorem State.writeRecord_agree {L s0 s l o dom rec} (hL : [.regs, .linkOut, .mem, .pages, .ras, .flash, .link, .nb] ⊆ L) (h : Agree L s0 s) : Agree L s0 (State.writeRecord s l o dom rec) := by
  unfold State.writeRecord
  split
  · refine State.setFilter_agree (sub hL (by decide)) ?_
    refine State.store_agree (sub hL (by decide)) ?_
    exact h
  · refine State.setFilter_agree (sub hL (by decide)) ?_
    refine State.store_agree (sub hL (by decide)) ?_
    refine State.store_agree (sub hL (by decide)) ?_
    refine State.store_agree (sub hL (by decide)) ?_
    exact h

theorem State.foldOne_agree {L s0 s a b c d e f g i} (hL : [.regs, .linkOut, .mem, .pages, .ras, .flash, .link, .nb] ⊆ L) (h : Agree L s0 s) : Agree L s0 (State.foldOne s a b c d e f g i).1 := by
  unfold State.foldOne
  generalize (if i = true then none else _ : Option _) = y
  cases y with
  | some code => dsimp only; exact State.writeRecord_agree (sub hL (by decide)) h
  | none =>
    dsimp only
    split
    · dsimp only; exact State.writeRecord_agree (sub hL (by decide)) h
    · exact h

theorem State.runMainFold_agree {L s0 s j x lo n} (hL : [.regs, .linkOut, .mem, .sched, .pages, .ras, .flash, .link, .nb] ⊆ L) (h : Agree L s0 s) : Agree L s0 (State.runMainFold s j x lo n) := by
  unfold State.runMainFold
  have hr : Agree L s0 ((List.range n).foldl (fun (a : State × Compact) i =>
      let s := a.1
      let x := a.2
      let l := x.pinned
      let o := lo + i
      let bad := s.poisoned (l.codeAddr o) 64 || s.poisoned (l.sketchAddr o) 32 || s.poisoned (l.idAddr o) 8
      if s.idAt l o = nullIndex && !bad then (s.writeRecord x.new o j.dom none, x)
      else if x.gone o then (s.writeRecord x.new o j.dom none, { x with dropped := x.dropped ++ [o] })
      else s.foldOne j.dom x o l.cbSlot (l.codeAddr o) (s.read (l.sketchAddr o) 32) (s.idAt l o) bad) (s, x)).1 := by
    refine Agree.foldFst (p := (s, x)) (fun t y ht => ?_) h
    dsimp only
    split
    · dsimp only; exact State.writeRecord_agree (sub hL (by decide)) ht
    · split
      · dsimp only; exact State.writeRecord_agree (sub hL (by decide)) ht
      · exact State.foldOne_agree (sub hL (by decide)) ht
  refine Agree.ite (State.doomJob_agree (sub hL (by decide)) ?_) ?_
  · exact State.putCompact_agree (sub hL (by decide)) hr
  · exact State.putCompact_agree (sub hL (by decide)) hr

theorem State.runSideFold_agree {L s0 s j x lo n} (hL : [.regs, .linkOut, .mem, .sched, .pages, .ras, .flash, .link, .nb] ⊆ L) (h : Agree L s0 s) : Agree L s0 (State.runSideFold s j x lo n) := by
  unfold State.runSideFold
  refine Agree.ite ?_ ?_
  · refine State.doomJob_agree (sub hL (by decide)) ?_
    refine State.putCompact_agree (sub hL (by decide)) ?_
    refine Agree.foldFst ?_ ?_
    · intro t1 x1 h1
      refine Agree.iteFst ?_ ?_
      · refine Agree.iteFst ?_ ?_
        · exact h1
        · refine State.foldOne_agree (sub hL (by decide)) ?_
          exact h1
      · exact h1
    · exact h
  · refine State.putCompact_agree (sub hL (by decide)) ?_
    refine Agree.foldFst ?_ ?_
    · intro t2 x2 h2
      refine Agree.iteFst ?_ ?_
      · refine Agree.iteFst ?_ ?_
        · exact h2
        · refine State.foldOne_agree (sub hL (by decide)) ?_
          exact h2
      · exact h2
    · exact h

theorem State.writeDesc_agree {L s0 s c p l} (hL : [.regs, .linkOut, .mem, .pages, .ras, .flash, .link, .nb] ⊆ L) (h : Agree L s0 s) : Agree L s0 (State.writeDesc s c p l) := by
  unfold State.writeDesc
  refine State.syncCounts_agree (sub hL (by decide)) ?_
  refine State.putField_agree (sub hL (by decide)) ?_
  refine State.putField_agree (sub hL (by decide)) ?_
  refine State.putField_agree (sub hL (by decide)) ?_
  refine State.putField_agree (sub hL (by decide)) ?_
  refine State.putField_agree (sub hL (by decide)) ?_
  refine State.putField_agree (sub hL (by decide)) ?_
  refine State.putField_agree (sub hL (by decide)) ?_
  exact h

theorem State.fillHoles_agree {L s0 s l lo dom} (hL : [.regs, .linkOut, .mem, .pages, .ras, .flash, .link, .nb] ⊆ L) (h : Agree L s0 s) : Agree L s0 (State.fillHoles s l lo dom) := by
  unfold State.fillHoles
  refine State.store_agree (sub hL (by decide)) ?_
  refine Agree.fold ?_ ?_
  · intro t1 x1 h1
    show Agree L s0 _
    refine State.setFilter_agree (sub hL (by decide)) ?_
    exact h1
  · refine State.store_agree (sub hL (by decide)) ?_
    exact h

theorem State.swapLayout_agree {L s0 s j x} (hL : [.regs, .linkOut, .mem, .rings, .sched, .parts, .pages, .ras, .flash, .link, .nb] ⊆ L) (h : Agree L s0 s) : Agree L s0 (State.swapLayout s j x) := by
  unfold State.swapLayout
  refine State.dropJob_agree (sub hL (by decide)) ?_
  refine State.postRecord_agree (sub hL (by decide)) ?_
  refine State.writeDesc_agree (sub hL (by decide)) ?_
  refine State.fillHoles_agree (sub hL (by decide)) ?_
  refine State.setPart_agree (sub hL (by decide)) ?_
  exact h

theorem State.layoutSwaps_agree {L s0 s f} (hL : [.regs, .linkOut, .mem, .rings, .sched, .parts, .pages, .ras, .flash, .link, .nb] ⊆ L) (h : Agree L s0 s) : Agree L s0 (State.layoutSwaps s f) := by
  unfold State.layoutSwaps
  refine Agree.fold ?_ ?_
  · intro t1 x1 h1
    show Agree L s0 _
    split
    · refine Agree.ite ?_ ?_
      · refine State.swapLayout_agree (sub hL (by decide)) ?_
        exact h1
      · exact h1
    · exact h1
  · exact h

theorem State.releaseLayouts_agree {L s0 s c p} (hL : [.regs, .linkOut, .mem, .rings, .parts, .pages, .ras, .flash, .link, .nb] ⊆ L) (h : Agree L s0 s) : Agree L s0 (State.releaseLayouts s c p) := by
  unfold State.releaseLayouts
  refine Agree.ite ?_ ?_
  · exact h
  · refine Agree.fold ?_ ?_
    · intro t1 x1 h1
      show Agree L s0 _
      refine Agree.ite ?_ ?_
      · try dsimp only
        split
        · refine State.postRecord_agree (sub hL (by decide)) ?_
          refine State.setPart_agree (sub hL (by decide)) ?_
          exact h1
        · refine State.setPart_agree (sub hL (by decide)) ?_
          exact h1
      · exact h1
    · exact h

theorem State.markRequest_agree {L s0 s c table} (hL : [.sched] ⊆ L) (h : Agree L s0 s) : Agree L s0 (State.markRequest s c table) := by
  unfold State.markRequest
  refine Agree.sched_write (mem_of hL (by decide)) ?_ _
  exact h

theorem State.setSlot_agree {L s0 s c table slot f} (hL : [.colls] ⊆ L) (h : Agree L s0 s) : Agree L s0 (State.setSlot s c table slot f) := by
  unfold State.setSlot
  refine State.setColl_agree (sub hL (by decide)) ?_
  exact h

theorem State.takeVersion_agree {L s0 s d r} (hL : [.freshCount, .regs, .linkOut, .mem, .rings, .sched, .colls, .pages, .ras, .flash, .link, .nb] ⊆ L) (h : Agree L s0 s) : Agree L s0 (State.takeVersion s d r) := by
  unfold State.takeVersion
  try dsimp only
  split
  · refine State.failMaint_agree (sub hL (by decide)) ?_
    refine Agree.ite ?_ ?_
    · refine State.misplaced_agree (sub hL (by decide)) ?_
      refine State.markRequest_agree (sub hL (by decide)) ?_
      refine State.takeHead_agree (sub hL (by decide)) ?_
      exact h
    · refine State.markRequest_agree (sub hL (by decide)) ?_
      refine State.takeHead_agree (sub hL (by decide)) ?_
      exact h
  · refine State.addJob_agree (sub hL (by decide)) ?_
    refine State.setSlot_agree (sub hL (by decide)) ?_
    refine State.store_agree (sub hL (by decide)) ?_
    refine State.markRequest_agree (sub hL (by decide)) ?_
    refine State.takeHead_agree (sub hL (by decide)) ?_
    exact h

theorem State.makeCurrent_agree {L s0 s j c table slot} (hL : [.regs, .linkOut, .mem, .rings, .sched, .colls, .pages, .ras, .flash, .link, .nb] ⊆ L) (h : Agree L s0 s) : Agree L s0 (State.makeCurrent s j c table slot) := by
  unfold State.makeCurrent
  refine Agree.ite ?_ ?_
  · refine State.dropJob_agree (sub hL (by decide)) ?_
    refine State.postRecord_agree (sub hL (by decide)) ?_
    refine State.setColl_agree (sub hL (by decide)) ?_
    refine State.setSlot_agree (sub hL (by decide)) ?_
    refine State.setSlot_agree (sub hL (by decide)) ?_
    exact h
  · refine State.setRing_agree (sub hL (by decide)) ?_
    refine State.dropJob_agree (sub hL (by decide)) ?_
    refine State.postRecord_agree (sub hL (by decide)) ?_
    refine State.setColl_agree (sub hL (by decide)) ?_
    refine State.setSlot_agree (sub hL (by decide)) ?_
    refine State.setSlot_agree (sub hL (by decide)) ?_
    exact h

theorem State.versionSwaps_agree {L s0 s f} (hL : [.regs, .linkOut, .mem, .rings, .sched, .colls, .pages, .ras, .flash, .link, .nb] ⊆ L) (h : Agree L s0 s) : Agree L s0 (State.versionSwaps s f) := by
  unfold State.versionSwaps
  refine Agree.fold ?_ ?_
  · intro t1 x1 h1
    show Agree L s0 _
    split
    · refine Agree.ite ?_ ?_
      · exact h1
      · split
        · refine Agree.ite ?_ ?_
          · refine State.makeCurrent_agree (sub hL (by decide)) ?_
            exact h1
          · exact h1
        · refine Agree.ite ?_ ?_
          · refine State.makeCurrent_agree (sub hL (by decide)) ?_
            exact h1
          · exact h1
        · exact h1
    · exact h1
  · exact h

theorem State.releaseSlot_agree {L s0 s c table slot} (hL : [.regs, .linkOut, .mem, .rings, .colls, .pages, .ras, .flash, .link, .nb] ⊆ L) (h : Agree L s0 s) : Agree L s0 (State.releaseSlot s c table slot) := by
  unfold State.releaseSlot
  refine Agree.ite ?_ ?_
  · try dsimp only
    split
    · refine State.postRecord_agree (sub hL (by decide)) ?_
      refine State.setSlot_agree (sub hL (by decide)) ?_
      exact h
    · refine State.setSlot_agree (sub hL (by decide)) ?_
      exact h
  · exact h

theorem State.releaseSlots_agree {L s0 s c} (hL : [.regs, .linkOut, .mem, .rings, .colls, .pages, .ras, .flash, .link, .nb] ⊆ L) (h : Agree L s0 s) : Agree L s0 (State.releaseSlots s c) := by
  unfold State.releaseSlots
  refine State.releaseSlot_agree (sub hL (by decide)) ?_
  refine State.releaseSlot_agree (sub hL (by decide)) ?_
  refine State.releaseSlot_agree (sub hL (by decide)) ?_
  refine State.releaseSlot_agree (sub hL (by decide)) ?_
  exact h

theorem State.takeRouteEdit_agree {L s0 s d r} (hL : [.freshCount, .regs, .linkOut, .mem, .rings, .sched, .colls, .pages, .ras, .flash, .link, .nb] ⊆ L) (h : Agree L s0 s) : Agree L s0 (State.takeRouteEdit s d r) := by
  unfold State.takeRouteEdit
  try dsimp only
  split
  · refine State.failMaint_agree (sub hL (by decide)) ?_
    refine Agree.ite ?_ ?_
    · refine State.misplaced_agree (sub hL (by decide)) ?_
      refine State.markRequest_agree (sub hL (by decide)) ?_
      refine State.takeHead_agree (sub hL (by decide)) ?_
      exact h
    · refine Agree.ite ?_ ?_
      · refine State.countShareRefused_agree (sub hL (by decide)) ?_
        refine State.markRequest_agree (sub hL (by decide)) ?_
        refine State.takeHead_agree (sub hL (by decide)) ?_
        exact h
      · refine State.markRequest_agree (sub hL (by decide)) ?_
        refine State.takeHead_agree (sub hL (by decide)) ?_
        exact h
  · refine State.addJob_agree (sub hL (by decide)) ?_
    refine State.setSlot_agree (sub hL (by decide)) ?_
    refine State.store_agree (sub hL (by decide)) ?_
    refine State.markRequest_agree (sub hL (by decide)) ?_
    refine State.takeHead_agree (sub hL (by decide)) ?_
    exact h

theorem State.writeRoute_agree {L s0 s g p dom r} (hL : [.regs, .linkOut, .mem, .pages, .ras, .flash, .link, .nb] ⊆ L) (h : Agree L s0 s) : Agree L s0 (State.writeRoute s g p dom r) := by
  unfold State.writeRoute
  refine State.store_agree (sub hL (by decide)) ?_
  refine State.putField_agree (sub hL (by decide)) ?_
  refine State.putField_agree (sub hL (by decide)) ?_
  refine State.putField_agree (sub hL (by decide)) ?_
  exact h

theorem State.finishRouteEdit_agree {L s0 s j x} (hL : [.freshCount, .regs, .linkOut, .mem, .sched, .pages, .ras, .flash, .link, .nb] ⊆ L) (h : Agree L s0 s) : Agree L s0 (State.finishRouteEdit s j x) := by
  unfold State.finishRouteEdit
  refine Agree.ite ?_ ?_
  · refine State.doomJob_agree (sub hL (by decide)) ?_
    refine State.fresh_agree (sub hL (by decide)) ?_
    refine State.putJob_agree (sub hL (by decide)) ?_
    refine Agree.fold ?_ ?_
    · intro t1 x1 h1
      show Agree L s0 _
      refine State.writeRoute_agree (sub hL (by decide)) ?_
      exact h1
    · refine State.store_agree (sub hL (by decide)) ?_
      refine State.routeSkips_agree (sub hL (by decide)) ?_
      exact h
  · refine State.fresh_agree (sub hL (by decide)) ?_
    refine State.putJob_agree (sub hL (by decide)) ?_
    refine Agree.fold ?_ ?_
    · intro t2 x2 h2
      show Agree L s0 _
      refine State.writeRoute_agree (sub hL (by decide)) ?_
      exact h2
    · refine State.store_agree (sub hL (by decide)) ?_
      refine State.routeSkips_agree (sub hL (by decide)) ?_
      exact h

theorem State.compareLocked_agree {L s0 s c} (hL : [.regs, .colls, .ras] ⊆ L) (h : Agree L s0 s) : Agree L s0 (State.compareLocked s c) := by
  unfold State.compareLocked
  refine State.setColl_agree (sub hL (by decide)) ?_
  refine Agree.fold ?_ ?_
  · intro t1 x1 h1
    show Agree L s0 _
    refine State.log_agree (sub hL (by decide)) ?_
    refine State.accessErr_agree (sub hL (by decide)) ?_
    exact h1
  · exact h

theorem State.readColl_agree {L s0 s c} (hL : [.regs, .colls, .ras] ⊆ L) (h : Agree L s0 s) : Agree L s0 (State.readColl s c) := by
  unfold State.readColl
  refine Agree.ite ?_ ?_
  · exact h
  · refine Agree.ite ?_ ?_
    · refine State.setColl_agree (sub hL (by decide)) ?_
      exact h
    · refine Agree.ite ?_ ?_
      · refine State.compareLocked_agree (sub hL (by decide)) ?_
        refine State.setColl_agree (sub hL (by decide)) ?_
        exact h
      · refine State.setColl_agree (sub hL (by decide)) ?_
        exact h

theorem State.buildPart_agree {L s0 s c p} (hL : [.parts] ⊆ L) (h : Agree L s0 s) : Agree L s0 (State.buildPart s c p) := by
  unfold State.buildPart
  refine State.setPart_agree (sub hL (by decide)) ?_
  exact h

theorem State.readParts_agree {L s0 s c} (hL : [.parts] ⊆ L) (h : Agree L s0 s) : Agree L s0 (State.readParts s c) := by
  unfold State.readParts
  refine Agree.ite ?_ ?_
  · refine Agree.fold ?_ ?_
    · intro t1 x1 h1
      show Agree L s0 _
      refine Agree.ite ?_ ?_
      · exact h1
      · refine Agree.ite ?_ ?_
        · refine Agree.ite ?_ ?_
          · exact h1
          · refine State.buildPart_agree (sub hL (by decide)) ?_
            exact h1
        · refine Agree.ite ?_ ?_
          · refine State.setPart_agree (sub hL (by decide)) ?_
            exact h1
          · exact h1
    · exact h
  · exact h

theorem State.readCollections_agree {L s0 s} (hL : [.regs, .colls, .parts, .ras] ⊆ L) (h : Agree L s0 s) : Agree L s0 (State.readCollections s) := by
  unfold State.readCollections
  refine Agree.fold ?_ ?_
  · intro t1 x1 h1
    show Agree L s0 _
    refine State.readParts_agree (sub hL (by decide)) ?_
    refine State.readColl_agree (sub hL (by decide)) ?_
    exact h1
  · exact h

end Sys2Proof.Machine
end

