-- ==== Sys2Proof/Laws/KeepFlash.lean ====
section
/-! SUPPORT. What the operations of Machine/Flash.lean may touch. -/

namespace Sys2Proof.Machine

open Sys2Proof

theorem State.setFlash_agree {L s0 s f} (hL : [.flash] ⊆ L) (hf : f.dur = s.flash.dur ∧ f.durPoison = s.flash.durPoison) (h : Agree L s0 s) :
    Agree L s0 (State.setFlash s f) :=
  Agree.flash_write (hL (by decide)) h _ (fun hc => State.canonical_flash hc (fun hd => by rw [hf.1]; exact hd) (fun hp => by rw [hf.2]; exact hp))

theorem State.setDurable_agree {L s0 s f} (hL : [.flash] ⊆ L) (hd : SMap.wf byteDefault s.flash.dur = true → SMap.wf byteDefault f.dur = true)
    (hp : SMap.wf poisonDefault s.flash.durPoison = true → SMap.wf poisonDefault f.durPoison = true) (h : Agree L s0 s) :
    Agree L s0 (State.setFlash s f) :=
  Agree.flash_write (hL (by decide)) h _ (fun hc => State.canonical_flash hc hd hp)

theorem State.fetchPage_agree {L s0 s p} (hL : [.regs, .pages] ⊆ L) (h : Agree L s0 s) : Agree L s0 (State.fetchPage s p) := by
  unfold State.fetchPage
  refine Agree.ite ?_ ?_
  · refine Agree.getD (fun _ ho => ?_) ?_
    · refine State.takeFrame_agree ho (sub hL (by decide)) ?_
      exact h
    · exact h
  · exact h

theorem State.poisonSector_agree {L s0 s sec} (hL : [.regs, .mem, .ras] ⊆ L) (h : Agree L s0 s) : Agree L s0 (State.poisonSector s sec) := by
  unfold State.poisonSector
  refine State.log_agree (sub hL (by decide)) ?_
  refine Agree.fold ?_ ?_
  · intro t1 x1 h1
    show Agree L s0 _
    refine State.markPoison_agree (sub hL (by decide)) ?_
    exact h1
  · exact h

theorem State.landPage_agree {L s0 s p bad} (hL : [.regs, .mem, .pages, .ras, .flash] ⊆ L) (h : Agree L s0 s) : Agree L s0 (State.landPage s p bad) := by
  unfold State.landPage
  refine Agree.ite ?_ ?_
  · refine Agree.fold ?_ ?_
    · intro t1 x1 h1
      show Agree L s0 _
      refine State.poisonSector_agree (sub hL (by decide)) ?_
      exact h1
    · refine State.setFlash_agree (sub hL (by decide)) ⟨rfl, rfl⟩ ?_
      refine State.bump_agree (sub hL (by decide)) ?_
      refine State.setPage_agree (sub hL (by decide)) ?_
      refine State.setFlash_agree (sub hL (by decide)) ⟨rfl, rfl⟩ ?_
      exact h
  · refine Agree.ite ?_ ?_
    · refine Agree.fold ?_ ?_
      · intro t2 x2 h2
        show Agree L s0 _
        refine State.poisonSector_agree (sub hL (by decide)) ?_
        exact h2
      · refine State.bump_agree (sub hL (by decide)) ?_
        refine State.setFlash_agree (sub hL (by decide)) ⟨rfl, rfl⟩ ?_
        refine State.setFlash_agree (sub hL (by decide)) ⟨rfl, rfl⟩ ?_
        exact h
    · refine State.setFlash_agree (sub hL (by decide)) ⟨rfl, rfl⟩ ?_
      exact h

theorem State.reread_agree {L s0 s p block ok} (hL : [.regs, .mem, .ras, .flash] ⊆ L) (h : Agree L s0 s) : Agree L s0 (State.reread s p block ok) := by
  unfold State.reread
  refine Agree.ite ?_ ?_
  · refine Agree.ite ?_ ?_
    · refine State.bump_agree (sub hL (by decide)) ?_
      refine State.setFlash_agree (sub hL (by decide)) ⟨rfl, rfl⟩ ?_
      exact h
    · refine State.log_agree (sub hL (by decide)) ?_
      refine Agree.fold ?_ ?_
      · intro t1 x1 h1
        show Agree L s0 _
        refine State.markPoison_agree (sub hL (by decide)) ?_
        exact h1
      · refine State.bump_agree (sub hL (by decide)) ?_
        refine State.setFlash_agree (sub hL (by decide)) ⟨rfl, rfl⟩ ?_
        exact h
  · exact h

theorem State.startRun_agree {L s0 s kind set sectors dirty coded each} (hL : [.flash] ⊆ L) (h : Agree L s0 s) : Agree L s0 (State.startRun s kind set sectors dirty coded each).1 := by
  unfold State.startRun
  refine State.setFlash_agree (sub hL (by decide)) ⟨rfl, rfl⟩ ?_
  exact h

theorem State.setSb_agree {L s0 s n v} (hL : [.flash] ⊆ L) (h : Agree L s0 s) : Agree L s0 (State.setSb s n v) := by
  unfold State.setSb
  refine State.setFlash_agree (sub hL (by decide)) ⟨rfl, rfl⟩ ?_
  exact h

theorem State.placeIn_agree {L s0 s n set sectors} (hL : [.flash] ⊆ L) (h : Agree L s0 s) : Agree L s0 (State.placeIn s n set sectors) := by
  unfold State.placeIn
  refine State.setSb_agree (sub hL (by decide)) ?_
  refine State.setFlash_agree (sub hL (by decide)) ⟨rfl, rfl⟩ ?_
  exact h

theorem State.durable_agree {L s0 s r} (hL : [.flash] ⊆ L) (h : Agree L s0 s) : Agree L s0 (State.durable s r) :=
  State.setDurable_agree (sub hL (by decide)) (fun hd => foldl_wf (fun _ _ hx => SMap.set_wf hx) (SMap.filter_wf hd))
    (fun hp => foldl_wf (fun _ _ hx => SMap.set_wf hx) (SMap.filter_wf hp)) h

theorem State.countBlock_agree {L s0 s e} (hL : [.regs] ⊆ L) (h : Agree L s0 s) : Agree L s0 (State.countBlock s e) := by
  unfold State.countBlock
  try dsimp only
  split
  · refine State.bump_agree (sub hL (by decide)) ?_
    refine Agree.ite ?_ ?_
    · refine State.bump_agree (sub hL (by decide)) ?_
      refine State.bumpBy_agree (sub hL (by decide)) ?_
      exact h
    · refine State.bumpBy_agree (sub hL (by decide)) ?_
      exact h
  · refine State.bump_agree (sub hL (by decide)) ?_
    refine Agree.ite ?_ ?_
    · refine State.bump_agree (sub hL (by decide)) ?_
      refine State.bumpBy_agree (sub hL (by decide)) ?_
      exact h
    · refine State.bumpBy_agree (sub hL (by decide)) ?_
      exact h
  · refine State.bump_agree (sub hL (by decide)) ?_
    refine Agree.ite ?_ ?_
    · refine State.bump_agree (sub hL (by decide)) ?_
      refine State.bumpBy_agree (sub hL (by decide)) ?_
      exact h
    · refine State.bumpBy_agree (sub hL (by decide)) ?_
      exact h
  · refine Agree.ite ?_ ?_
    · refine State.bump_agree (sub hL (by decide)) ?_
      refine State.bumpBy_agree (sub hL (by decide)) ?_
      exact h
    · refine State.bumpBy_agree (sub hL (by decide)) ?_
      exact h

theorem State.codeGroup_agree {L s0 s p} (hL : [.regs] ⊆ L) (h : Agree L s0 s) : Agree L s0 (State.codeGroup s p).1 := by
  unfold State.codeGroup
  refine Agree.iteFst ?_ ?_
  · exact h
  · refine Agree.iteFst ?_ ?_
    · refine State.bump_agree (sub hL (by decide)) ?_
      exact h
    · refine Agree.iteFst ?_ ?_
      · exact h
      · refine Agree.iteFst ?_ ?_
        · refine State.bump_agree (sub hL (by decide)) ?_
          exact h
        · refine Agree.fold ?_ ?_
          · intro t1 x1 h1
            show Agree L s0 _
            refine State.countBlock_agree (sub hL (by decide)) ?_
            exact h1
          · refine State.bumpBy_agree (sub hL (by decide)) ?_
            exact h

theorem State.writeOut_agree {L s0 s p sync} (hL : [.freshCount, .regs, .pages, .flash] ⊆ L) (h : Agree L s0 s) : Agree L s0 (State.writeOut s p sync).1 := by
  unfold State.writeOut
  refine State.startRun_agree (sub hL (by decide)) ?_
  refine State.fresh_agree (sub hL (by decide)) ?_
  refine State.setPage_agree (sub hL (by decide)) ?_
  refine State.codeGroup_agree (sub hL (by decide)) ?_
  exact h

theorem State.recallLine_agree {L s0 s l} (hL : [.regs, .linkOut, .mem, .ras, .link] ⊆ L) (h : Agree L s0 s) : Agree L s0 (State.recallLine s l) := by
  unfold State.recallLine
  refine Agree.ite ?_ ?_
  · refine State.reclaim_agree (sub hL (by decide)) ?_
    exact h
  · refine Agree.ite ?_ ?_
    · refine State.setDir_agree (sub hL (by decide)) ?_
      refine State.reclaim_agree (sub hL (by decide)) ?_
      exact h
    · refine State.sendSnoops_agree (sub hL (by decide)) ?_
      refine State.reclaim_agree (sub hL (by decide)) ?_
      exact h

theorem State.recallPage_agree {L s0 s p} (hL : [.regs, .linkOut, .mem, .ras, .link] ⊆ L) (h : Agree L s0 s) : Agree L s0 (State.recallPage s p).1 := by
  unfold State.recallPage
  refine Agree.fold ?_ ?_
  · intro t1 x1 h1
    show Agree L s0 _
    refine State.recallLine_agree (sub hL (by decide)) ?_
    exact h1
  · exact h

theorem State.beginEvict_agree {L s0 s p} (hL : [.freshCount, .regs, .pages, .flash] ⊆ L) (h : Agree L s0 s) : Agree L s0 (State.beginEvict s p) := by
  unfold State.beginEvict
  refine Agree.ite ?_ ?_
  · refine State.setPage_agree (sub hL (by decide)) ?_
    exact h
  · refine Agree.ite ?_ ?_
    · refine State.setFld_agree (sub hL (by decide)) ?_
      exact h
    · refine State.writeOut_agree (sub hL (by decide)) ?_
      exact h

theorem State.evictPage_agree {L s0 s p} (hL : [.freshCount, .regs, .linkOut, .mem, .pages, .ras, .flash, .link] ⊆ L) (h : Agree L s0 s) : Agree L s0 (State.evictPage s p) := by
  unfold State.evictPage
  refine Agree.ite ?_ ?_
  · refine State.beginEvict_agree (sub hL (by decide)) ?_
    refine State.recallPage_agree (sub hL (by decide)) ?_
    exact h
  · refine State.setFlash_agree (sub hL (by decide)) ⟨rfl, rfl⟩ ?_
    refine State.recallPage_agree (sub hL (by decide)) ?_
    exact h

theorem State.evictWaiting_agree {L s0 s} (hL : [.freshCount, .regs, .linkOut, .mem, .pages, .ras, .flash, .link] ⊆ L) (h : Agree L s0 s) : Agree L s0 (State.evictWaiting s) := by
  unfold State.evictWaiting
  refine Agree.fold ?_ ?_
  · intro t1 x1 h1
    show Agree L s0 _
    refine Agree.ite ?_ ?_
    · refine State.evictPage_agree (sub hL (by decide)) ?_
      exact h1
    · exact h1
  · refine State.setFlash_agree (sub hL (by decide)) ⟨rfl, rfl⟩ ?_
    exact h

theorem State.evictLoop_agree {L s0 fuel} : ∀ {s}, ([.freshCount, .regs, .linkOut, .mem, .pages, .ras, .flash, .link] ⊆ L) → Agree L s0 s → Agree L s0 (State.evictLoop s fuel) := by
  induction fuel with
  | zero => intro s _ h; exact h
  | succ n ih =>
    intro s hL h
    unfold State.evictLoop
    refine Agree.ite h ?_
    split
    · refine Agree.ite ?_ (ih hL (State.fresh_agree (sub hL (by decide)) ?_))
      · exact State.evictPage_agree (sub hL (by decide)) h
      · exact State.evictPage_agree (sub hL (by decide)) h
    · exact h

theorem State.migrate_agree {L s0 s} (hL : [.freshCount, .regs, .linkOut, .mem, .pages, .ras, .flash, .link] ⊆ L) (h : Agree L s0 s) : Agree L s0 (State.migrate s) := by
  unfold State.migrate
  refine Agree.fold ?_ ?_
  · intro t1 x1 h1
    show Agree L s0 _
    refine Agree.ite ?_ ?_
    · refine State.fetchPage_agree (sub hL (by decide)) ?_
      exact h1
    · exact h1
  · refine Agree.ite ?_ ?_
    · refine State.evictLoop_agree (sub hL (by decide)) ?_
      refine Agree.fold ?_ ?_
      · intro t2 x2 h2
        show Agree L s0 _
        refine State.setPage_agree (sub hL (by decide)) ?_
        exact h2
      · refine State.setFlash_agree (sub hL (by decide)) ⟨rfl, rfl⟩ ?_
        exact h
    · refine Agree.fold ?_ ?_
      · intro t3 x3 h3
        show Agree L s0 _
        refine State.setPage_agree (sub hL (by decide)) ?_
        exact h3
      · refine State.setFlash_agree (sub hL (by decide)) ⟨rfl, rfl⟩ ?_
        exact h

theorem State.takePoison_agree {L s0 s l} (hL : [.mem] ⊆ L) (h : Agree L s0 s) : Agree L s0 (State.takePoison s l) := by
  refine Agree.mem_write (mem_of hL (by decide)) h _ (fun hc => State.canonical_mem hc ?_)
  have key : ∀ (ls : List Nat) (m : MemSt), Memory.wf m = true →
      Memory.wf (ls.foldl (fun m l => m.poisonLine l (SMap.get metaDefault m.meta_ l % 256)) m) = true := by
    intro ls
    induction ls with
    | nil => intro m hm; exact hm
    | cons x t ih => intro m hm; exact ih _ (MemSt.poisonLine_wf hm)
  exact key _ _

theorem State.leaveWriting_agree {L s0 s p} (hL : [.regs, .mem, .pages] ⊆ L) (h : Agree L s0 s) : Agree L s0 (State.leaveWriting s p) := by
  unfold State.leaveWriting
  refine Agree.ite ?_ ?_
  · refine State.bump_agree (sub hL (by decide)) ?_
    refine State.setPage_agree (sub hL (by decide)) ?_
    refine State.takePoison_agree (sub hL (by decide)) ?_
    exact h
  · exact h

theorem State.countAccess_agree {L s0 s p} (hL : [.pages] ⊆ L) (h : Agree L s0 s) : Agree L s0 (State.countAccess s p) := by
  unfold State.countAccess
  refine Agree.ite ?_ ?_
  · exact h
  · refine State.setPage_agree (sub hL (by decide)) ?_
    exact h

theorem State.sampleAccess_agree {L s0 s a} (hL : [.pages, .flash] ⊆ L) (h : Agree L s0 s) : Agree L s0 (State.sampleAccess s a) := by
  unfold State.sampleAccess
  refine Agree.ite ?_ ?_
  · refine State.countAccess_agree (sub hL (by decide)) ?_
    refine State.setFlash_agree (sub hL (by decide)) ⟨rfl, rfl⟩ ?_
    exact h
  · refine State.setFlash_agree (sub hL (by decide)) ⟨rfl, rfl⟩ ?_
    exact h

theorem State.finishHint_agree {L s0 s j st done} (hL : [.regs, .linkOut, .mem, .rings, .sched, .pages, .ras, .flash, .link, .nb] ⊆ L) (h : Agree L s0 s) : Agree L s0 (State.finishHint s j st done) := by
  unfold State.finishHint
  refine State.dropJob_agree (sub hL (by decide)) ?_
  refine State.postRecord_agree (sub hL (by decide)) ?_
  refine State.countEnd_agree (sub hL (by decide)) ?_
  exact h

theorem State.flushSector_agree {L s0 s sec} (hL : [.flash] ⊆ L) (h : Agree L s0 s) : Agree L s0 (State.flushSector s sec).1 := by
  unfold State.flushSector
  refine State.startRun_agree (sub hL (by decide)) ?_
  refine State.setFlash_agree (sub hL (by decide)) ⟨rfl, rfl⟩ ?_
  exact h

theorem State.syncStart_agree {L s0 s h'} (hL : [.freshCount, .regs, .linkOut, .mem, .pages, .ras, .flash, .link] ⊆ L) (h : Agree L s0 s) : Agree L s0 (State.syncStart s h').1 := by
  unfold State.syncStart
  refine Agree.foldFst ?_ ?_
  · intro t1 x1 h1
    refine Agree.iteFst ?_ ?_
    · refine State.flushSector_agree (sub hL (by decide)) ?_
      exact h1
    · refine Agree.iteFst ?_ ?_
      · refine State.recallPage_agree (sub hL (by decide)) ?_
        exact h1
      · refine Agree.iteFst ?_ ?_
        · refine State.writeOut_agree (sub hL (by decide)) ?_
          refine State.recallPage_agree (sub hL (by decide)) ?_
          exact h1
        · refine State.recallPage_agree (sub hL (by decide)) ?_
          exact h1
  · exact h

theorem State.driveHint_agree {L s0 s j h'} (hL : [.freshCount, .regs, .linkOut, .mem, .rings, .sched, .pages, .ras, .flash, .link, .nb] ⊆ L) (h : Agree L s0 s) : Agree L s0 (State.driveHint s j h') := by
  unfold State.driveHint
  try dsimp only
  split
  · refine Agree.ite ?_ ?_
    · refine State.finishHint_agree (sub hL (by decide)) ?_
      refine Agree.fold ?_ ?_
      · intro t1 x1 h1
        show Agree L s0 _
        refine State.fetchPage_agree (sub hL (by decide)) ?_
        exact h1
      · exact h
    · refine Agree.fold ?_ ?_
      · intro t2 x2 h2
        show Agree L s0 _
        refine State.fetchPage_agree (sub hL (by decide)) ?_
        exact h2
      · exact h
  · refine Agree.ite ?_ ?_
    · refine State.finishHint_agree (sub hL (by decide)) ?_
      refine Agree.fold ?_ ?_
      · intro t3 x3 h3
        show Agree L s0 _
        refine Agree.ite ?_ ?_
        · refine Agree.ite ?_ ?_
          · refine State.cancelWriteback_agree (sub hL (by decide)) ?_
            refine State.fetchPage_agree (sub hL (by decide)) ?_
            exact h3
          · refine State.setPage_agree (sub hL (by decide)) ?_
            refine State.fetchPage_agree (sub hL (by decide)) ?_
            exact h3
        · refine State.fetchPage_agree (sub hL (by decide)) ?_
          exact h3
      · exact h
    · refine Agree.fold ?_ ?_
      · intro t4 x4 h4
        show Agree L s0 _
        refine Agree.ite ?_ ?_
        · refine Agree.ite ?_ ?_
          · refine State.cancelWriteback_agree (sub hL (by decide)) ?_
            refine State.fetchPage_agree (sub hL (by decide)) ?_
            exact h4
          · refine State.setPage_agree (sub hL (by decide)) ?_
            refine State.fetchPage_agree (sub hL (by decide)) ?_
            exact h4
        · refine State.fetchPage_agree (sub hL (by decide)) ?_
          exact h4
      · exact h
  · refine Agree.ite ?_ ?_
    · refine State.finishHint_agree (sub hL (by decide)) ?_
      refine State.putJob_agree (sub hL (by decide)) ?_
      refine State.syncStart_agree (sub hL (by decide)) ?_
      exact h
    · refine State.putJob_agree (sub hL (by decide)) ?_
      refine State.syncStart_agree (sub hL (by decide)) ?_
      exact h
  · exact h

theorem State.driveHints_agree {L s0 s} (hL : [.freshCount, .regs, .linkOut, .mem, .rings, .sched, .pages, .ras, .flash, .link, .nb] ⊆ L) (h : Agree L s0 s) : Agree L s0 (State.driveHints s) := by
  unfold State.driveHints
  refine Agree.fold ?_ ?_
  · intro t1 x1 h1
    show Agree L s0 _
    split
    · split
      · refine Agree.ite ?_ ?_
        · refine State.driveHint_agree (sub hL (by decide)) ?_
          exact h1
        · exact h1
      · exact h1
    · exact h1
  · exact h

theorem State.wipe_agree {L s0 s f ps k} (hL : [.mem, .pages, .flash] ⊆ L) (h : Agree L s0 s) : Agree L s0 (State.wipe s f ps k) := by
  unfold State.wipe
  refine Agree.fold (fun t x ht => State.setPage_agree (sub hL (by decide)) ht) ?_
  refine Agree.mem_write (mem_of hL (by decide)) ?_ _ (fun hc => State.canonical_mem hc (fun hm => ?_))
  · exact State.setDurable_agree (sub hL (by decide)) SMap.filter_wf SMap.filter_wf h
  · have hm := Memory.wf_iff.mp hm
    exact Memory.wf_iff.mpr ⟨SMap.filter_wf hm.1, SMap.filter_wf hm.2.1, SMap.filter_wf hm.2.2⟩

theorem State.applyDiscard_agree {L s0 s j h'} (hL : [.regs, .linkOut, .mem, .rings, .sched, .pages, .ras, .flash, .link, .nb] ⊆ L) (h : Agree L s0 s) : Agree L s0 (State.applyDiscard s j h') := by
  unfold State.applyDiscard
  refine Agree.ite ?_ ?_
  · refine State.finishHint_agree (sub hL (by decide)) ?_
    refine State.wipe_agree (sub hL (by decide)) ?_
    exact h
  · refine Agree.ite ?_ ?_
    · refine State.finishHint_agree (sub hL (by decide)) ?_
      exact h
    · refine Agree.ite ?_ ?_
      · refine Agree.foldFst ?_ ?_
        · intro t1 x1 h1
          refine State.recallPage_agree (sub hL (by decide)) ?_
          exact h1
        · exact h
      · refine State.finishHint_agree (sub hL (by decide)) ?_
        refine State.wipe_agree (sub hL (by decide)) ?_
        refine Agree.foldFst ?_ ?_
        · intro t2 x2 h2
          refine State.recallPage_agree (sub hL (by decide)) ?_
          exact h2
        · exact h

theorem State.applyDiscards_agree {L s0 s} (hL : [.regs, .linkOut, .mem, .rings, .sched, .pages, .ras, .flash, .link, .nb] ⊆ L) (h : Agree L s0 s) : Agree L s0 (State.applyDiscards s) := by
  unfold State.applyDiscards
  refine Agree.fold ?_ ?_
  · intro t1 x1 h1
    show Agree L s0 _
    split
    · split
      · refine Agree.ite ?_ ?_
        · refine State.applyDiscard_agree (sub hL (by decide)) ?_
          exact h1
        · exact h1
      · exact h1
    · exact h1
  · exact h

theorem State.takeHint_agree {L s0 s d r} (hL : [.freshCount, .regs, .linkOut, .mem, .rings, .sched, .pages, .ras, .flash, .link, .nb] ⊆ L) (h : Agree L s0 s) : Agree L s0 (State.takeHint s d r) := by
  unfold State.takeHint
  try dsimp only
  split
  · refine State.postRecord_agree (sub hL (by decide)) ?_
    refine State.countEnd_agree (sub hL (by decide)) ?_
    refine State.takeHead_agree (sub hL (by decide)) ?_
    exact h
  · try dsimp only
    split
    · try dsimp only
      split
      · refine State.driveHint_agree (sub hL (by decide)) ?_
        refine State.addJob_agree (sub hL (by decide)) ?_
        refine Agree.fold ?_ ?_
        · intro t1 x1 h1
          show Agree L s0 _
          refine State.setPage_agree (sub hL (by decide)) ?_
          exact h1
        · refine State.takeHead_agree (sub hL (by decide)) ?_
          exact h
      · refine State.addJob_agree (sub hL (by decide)) ?_
        refine Agree.fold ?_ ?_
        · intro t2 x2 h2
          show Agree L s0 _
          refine State.setPage_agree (sub hL (by decide)) ?_
          exact h2
        · refine State.takeHead_agree (sub hL (by decide)) ?_
          exact h
    · refine State.postRecord_agree (sub hL (by decide)) ?_
      refine Agree.fold ?_ ?_
      · intro t3 x3 h3
        show Agree L s0 _
        refine State.setPage_agree (sub hL (by decide)) ?_
        exact h3
      · refine State.takeHead_agree (sub hL (by decide)) ?_
        exact h
    · try dsimp only
      split
      · refine State.driveHint_agree (sub hL (by decide)) ?_
        refine State.addJob_agree (sub hL (by decide)) ?_
        refine Agree.fold ?_ ?_
        · intro t4 x4 h4
          show Agree L s0 _
          refine Agree.ite ?_ ?_
          · refine Agree.getD (fun _ ho => ?_) ?_
            · refine State.takeFrame_agree ho (sub hL (by decide)) ?_
              exact h4
            · exact h4
          · exact h4
        · refine State.takeHead_agree (sub hL (by decide)) ?_
          exact h
      · refine State.addJob_agree (sub hL (by decide)) ?_
        refine Agree.fold ?_ ?_
        · intro t5 x5 h5
          show Agree L s0 _
          refine Agree.ite ?_ ?_
          · refine Agree.getD (fun _ ho => ?_) ?_
            · refine State.takeFrame_agree ho (sub hL (by decide)) ?_
              exact h5
            · exact h5
          · exact h5
        · refine State.takeHead_agree (sub hL (by decide)) ?_
          exact h
    · refine State.postRecord_agree (sub hL (by decide)) ?_
      refine Agree.fold ?_ ?_
      · intro t6 x6 h6
        show Agree L s0 _
        refine State.setPage_agree (sub hL (by decide)) ?_
        exact h6
      · refine State.takeHead_agree (sub hL (by decide)) ?_
        exact h
    · try dsimp only
      split
      · refine State.driveHint_agree (sub hL (by decide)) ?_
        refine State.addJob_agree (sub hL (by decide)) ?_
        refine State.takeHead_agree (sub hL (by decide)) ?_
        exact h
      · refine State.addJob_agree (sub hL (by decide)) ?_
        refine State.takeHead_agree (sub hL (by decide)) ?_
        exact h
    · refine State.addJob_agree (sub hL (by decide)) ?_
      refine State.takeHead_agree (sub hL (by decide)) ?_
      exact h
    · refine State.postRecord_agree (sub hL (by decide)) ?_
      refine Agree.ite ?_ ?_
      · refine State.setFlash_agree (sub hL (by decide)) ⟨rfl, rfl⟩ ?_
        refine State.takeHead_agree (sub hL (by decide)) ?_
        exact h
      · refine Agree.fold ?_ ?_
        · intro t7 x7 h7
          show Agree L s0 _
          refine State.setPage_agree (sub hL (by decide)) ?_
          exact h7
        · refine State.takeHead_agree (sub hL (by decide)) ?_
          exact h

theorem State.relocate_agree {L s0 s n sectors t} (he : State.relocate s n sectors = some t) (hL : [.flash] ⊆ L) (h : Agree L s0 s) : Agree L s0 t := by
  unfold State.relocate at he
  try dsimp only at he
  split at he
  · obtain rfl := Option.some.inj he
    exact h
  · split at he
    · cases he
    · obtain rfl := Option.some.inj he
      refine State.placeIn_agree (sub hL (by decide)) ?_
      refine State.setFlash_agree (sub hL (by decide)) ⟨rfl, rfl⟩ ?_
      exact h

theorem State.countErases_agree {L s0 s shank} (hL : [.regs] ⊆ L) (h : Agree L s0 s) : Agree L s0 (State.countErases s shank) := by
  unfold State.countErases
  refine Agree.fold ?_ ?_
  · intro t1 x1 h1
    show Agree L s0 _
    refine State.setFld_agree (sub hL (by decide)) ?_
    refine State.setFld_agree (sub hL (by decide)) ?_
    exact h1
  · exact h

theorem State.collect_agree {L s0 s n} (hL : [.regs, .flash] ⊆ L) (h : Agree L s0 s) : Agree L s0 (State.collect s n) := by
  unfold State.collect
  split
  · exact h
  · refine State.countErases_agree (sub hL (by decide)) ?_
    refine State.setSb_agree (sub hL (by decide)) ?_
    refine State.relocate_agree (by assumption) (sub hL (by decide)) ?_
    exact h

theorem State.verifySb_agree {L s0 s n weak rebuilt} (hL : [.regs, .flash] ⊆ L) (h : Agree L s0 s) : Agree L s0 (State.verifySb s n weak rebuilt) := by
  unfold State.verifySb
  refine Agree.ite ?_ ?_
  · try dsimp only
    split
    · refine State.setSb_agree (sub hL (by decide)) ?_
      exact h
    · refine State.bumpBy_agree (sub hL (by decide)) ?_
      refine State.setSb_agree (sub hL (by decide)) ?_
      refine State.relocate_agree (by assumption) (sub hL (by decide)) ?_
      refine State.setSb_agree (sub hL (by decide)) ?_
      exact h
  · exact h

theorem State.garbage_agree {L s0 s shank} (hL : [.freshCount, .regs, .flash] ⊆ L) (h : Agree L s0 s) : Agree L s0 (State.garbage s shank) := by
  unfold State.garbage
  refine Agree.ite ?_ ?_
  · split
    · refine State.collect_agree (sub hL (by decide)) ?_
      refine State.fresh_agree (sub hL (by decide)) ?_
      exact h
    · exact h
  · exact h

theorem State.wear_agree {L s0 s shank} (hL : [.regs, .flash] ⊆ L) (h : Agree L s0 s) : Agree L s0 (State.wear s shank) := by
  unfold State.wear
  refine Agree.ite ?_ ?_
  · try dsimp only
    split
    · refine State.collect_agree (sub hL (by decide)) ?_
      exact h
    · exact h
  · exact h

theorem State.readDisturb_agree {L s0 s n} (hL : [.regs, .flash] ⊆ L) (h : Agree L s0 s) : Agree L s0 (State.readDisturb s n) := by
  unfold State.readDisturb
  refine Agree.ite ?_ ?_
  · refine State.collect_agree (sub hL (by decide)) ?_
    exact h
  · exact h

theorem State.patrol_agree {L s0 s n soft} (hL : [.regs, .flash] ⊆ L) (h : Agree L s0 s) : Agree L s0 (State.patrol s n soft) := by
  unfold State.patrol
  refine Agree.ite ?_ ?_
  · refine State.collect_agree (sub hL (by decide)) ?_
    exact h
  · exact h

theorem State.programFail_agree {L s0 s n ch erase} (hL : [.regs] ⊆ L) (h : Agree L s0 s) : Agree L s0 (State.programFail s n ch erase) := by
  unfold State.programFail
  refine Agree.ite ?_ ?_
  · refine State.setFld_agree (sub hL (by decide)) ?_
    refine State.bump_agree (sub hL (by decide)) ?_
    refine State.bump_agree (sub hL (by decide)) ?_
    exact h
  · exact h

theorem State.countRead_agree {L s0 s ch step retries} (hL : [.regs] ⊆ L) (h : Agree L s0 s) : Agree L s0 (State.countRead s ch step retries) := by
  unfold State.countRead
  refine Agree.ite ?_ ?_
  · refine State.bump_agree (sub hL (by decide)) ?_
    refine Agree.ite ?_ ?_
    · refine State.bump_agree (sub hL (by decide)) ?_
      refine Agree.ite ?_ ?_
      · refine State.bump_agree (sub hL (by decide)) ?_
        refine Agree.ite ?_ ?_
        · refine State.bumpBy_agree (sub hL (by decide)) ?_
          refine State.bumpBy_agree (sub hL (by decide)) ?_
          exact h
        · refine State.bumpBy_agree (sub hL (by decide)) ?_
          exact h
      · refine Agree.ite ?_ ?_
        · refine State.bumpBy_agree (sub hL (by decide)) ?_
          refine State.bumpBy_agree (sub hL (by decide)) ?_
          exact h
        · refine State.bumpBy_agree (sub hL (by decide)) ?_
          exact h
    · refine Agree.ite ?_ ?_
      · refine State.bump_agree (sub hL (by decide)) ?_
        refine Agree.ite ?_ ?_
        · refine State.bumpBy_agree (sub hL (by decide)) ?_
          refine State.bumpBy_agree (sub hL (by decide)) ?_
          exact h
        · refine State.bumpBy_agree (sub hL (by decide)) ?_
          exact h
      · refine Agree.ite ?_ ?_
        · refine State.bumpBy_agree (sub hL (by decide)) ?_
          refine State.bumpBy_agree (sub hL (by decide)) ?_
          exact h
        · refine State.bumpBy_agree (sub hL (by decide)) ?_
          exact h
  · refine Agree.ite ?_ ?_
    · refine State.bump_agree (sub hL (by decide)) ?_
      refine Agree.ite ?_ ?_
      · refine State.bump_agree (sub hL (by decide)) ?_
        refine Agree.ite ?_ ?_
        · refine State.bumpBy_agree (sub hL (by decide)) ?_
          refine State.bumpBy_agree (sub hL (by decide)) ?_
          exact h
        · refine State.bumpBy_agree (sub hL (by decide)) ?_
          exact h
      · refine Agree.ite ?_ ?_
        · refine State.bumpBy_agree (sub hL (by decide)) ?_
          refine State.bumpBy_agree (sub hL (by decide)) ?_
          exact h
        · refine State.bumpBy_agree (sub hL (by decide)) ?_
          exact h
    · refine Agree.ite ?_ ?_
      · refine State.bump_agree (sub hL (by decide)) ?_
        refine Agree.ite ?_ ?_
        · refine State.bumpBy_agree (sub hL (by decide)) ?_
          refine State.bumpBy_agree (sub hL (by decide)) ?_
          exact h
        · refine State.bumpBy_agree (sub hL (by decide)) ?_
          exact h
      · refine Agree.ite ?_ ?_
        · refine State.bumpBy_agree (sub hL (by decide)) ?_
          refine State.bumpBy_agree (sub hL (by decide)) ?_
          exact h
        · refine State.bumpBy_agree (sub hL (by decide)) ?_
          exact h

theorem State.planeRead_agree {L s0 s job cand ch step retries} (hL : [.regs, .mem, .sched, .ras, .flash] ⊆ L) (h : Agree L s0 s) : Agree L s0 (State.planeRead s job cand ch step retries) := by
  unfold State.planeRead
  split
  · refine State.readLanded_agree (sub hL (by decide)) ?_
    refine Agree.ite ?_ ?_
    · refine State.poisonSector_agree (sub hL (by decide)) ?_
      refine State.setFlash_agree (sub hL (by decide)) ⟨rfl, rfl⟩ ?_
      refine State.countRead_agree (sub hL (by decide)) ?_
      exact h
    · refine State.setFlash_agree (sub hL (by decide)) ⟨rfl, rfl⟩ ?_
      refine State.countRead_agree (sub hL (by decide)) ?_
      exact h
  · exact h

theorem State.adjust_agree {L s0 s ch lun bin up} (hL : [.flash] ⊆ L) (h : Agree L s0 s) : Agree L s0 (State.adjust s ch lun bin up) := by
  unfold State.adjust
  refine Agree.ite ?_ ?_
  · refine State.setFlash_agree (sub hL (by decide)) ⟨rfl, rfl⟩ ?_
    exact h
  · exact h

theorem State.wbFlush_agree {L s0 s sec} (hL : [.regs, .linkOut, .mem, .sched, .pages, .ras, .flash, .link, .nb] ⊆ L) (h : Agree L s0 s) : Agree L s0 (State.wbFlush s sec) := by
  unfold State.wbFlush
  split
  · refine Agree.ite ?_ ?_
    · refine State.handVectors_agree (sub hL (by decide)) ?_
      refine State.flushSector_agree (sub hL (by decide)) ?_
      exact h
    · exact h
  · exact h

theorem State.journal_agree {L s0 s x} (hL : [.flash] ⊆ L) (h : Agree L s0 s) : Agree L s0 (State.journal s x) := by
  unfold State.journal
  refine State.setFlash_agree (sub hL (by decide)) ⟨rfl, rfl⟩ ?_
  exact h

theorem State.journalFlush_agree {L s0 s} (hL : [.flash] ⊆ L) (h : Agree L s0 s) : Agree L s0 (State.journalFlush s) := by
  unfold State.journalFlush
  refine Agree.ite ?_ ?_
  · refine State.setFlash_agree (sub hL (by decide)) ⟨rfl, rfl⟩ ?_
    refine State.startRun_agree (sub hL (by decide)) ?_
    exact h
  · exact h

theorem State.mapRebuild_agree {L s0 s sbTotal userGb} (hL : [.regs, .flash] ⊆ L) (h : Agree L s0 s) : Agree L s0 (State.mapRebuild s sbTotal userGb) := by
  unfold State.mapRebuild
  refine State.setFlash_agree (sub hL (by decide)) ⟨rfl, rfl⟩ ?_
  refine State.setFld_agree (sub hL (by decide)) ?_
  refine State.setFld_agree (sub hL (by decide)) ?_
  refine State.setFld_agree (sub hL (by decide)) ?_
  refine State.setFld_agree (sub hL (by decide)) ?_
  exact h

theorem State.resumeSeq_agree {L s0 s} (hL : [.flash] ⊆ L) (h : Agree L s0 s) : Agree L s0 (State.resumeSeq s) := by
  unfold State.resumeSeq
  refine Agree.ite ?_ ?_
  · exact h
  · refine State.setFlash_agree (sub hL (by decide)) ⟨rfl, rfl⟩ ?_
    exact h

theorem State.vectorRepair_agree {L s0 s} (hL : [.regs, .linkOut, .mem, .pages, .ras, .flash, .link, .nb] ⊆ L) (h : Agree L s0 s) : Agree L s0 (State.vectorRepair s) := by
  unfold State.vectorRepair
  refine Agree.ite ?_ ?_
  · exact h
  · refine Agree.fold ?_ ?_
    · intro t1 x1 h1
      show Agree L s0 _
      refine Agree.ite ?_ ?_
      · refine State.bump_agree (sub hL (by decide)) ?_
        refine State.writeFull_agree (sub hL (by decide)) ?_
        exact h1
      · exact h1
    · refine State.setFlash_agree (sub hL (by decide)) ⟨rfl, rfl⟩ ?_
      refine State.resumeSeq_agree (sub hL (by decide)) ?_
      exact h

theorem State.setReady_agree {L s0 s set torn bad} (hL : [.regs, .linkOut, .mem, .pages, .ras, .flash, .link, .nb] ⊆ L) (h : Agree L s0 s) : Agree L s0 (State.setReady s set torn bad) := by
  unfold State.setReady
  refine Agree.ite ?_ ?_
  · refine State.vectorRepair_agree (sub hL (by decide)) ?_
    refine Agree.ite ?_ ?_
    · refine State.setFld_agree (sub hL (by decide)) ?_
      refine State.setFld_agree (sub hL (by decide)) ?_
      refine State.resumeSeq_agree (sub hL (by decide)) ?_
      refine Agree.fold ?_ ?_
      · intro t1 x1 h1
        show Agree L s0 _
        refine State.poisonSector_agree (sub hL (by decide)) ?_
        exact h1
      · refine State.bumpBy_agree (sub hL (by decide)) ?_
        refine State.setFld_agree (sub hL (by decide)) ?_
        refine State.setFlash_agree (sub hL (by decide)) ⟨rfl, rfl⟩ ?_
        exact h
    · refine Agree.fold ?_ ?_
      · intro t2 x2 h2
        show Agree L s0 _
        refine State.poisonSector_agree (sub hL (by decide)) ?_
        exact h2
      · refine State.bumpBy_agree (sub hL (by decide)) ?_
        refine State.setFld_agree (sub hL (by decide)) ?_
        refine State.setFlash_agree (sub hL (by decide)) ⟨rfl, rfl⟩ ?_
        exact h
  · exact h

theorem State.loseMemory_agree {L s0 s} (hL : [.mem, .pages, .flash] ⊆ L) (h : Agree L s0 s) : Agree L s0 (State.loseMemory s) := by
  refine Agree.mem_pages_flash_write (mem_of hL (by decide)) (mem_of hL (by decide)) (mem_of hL (by decide)) h _ _ _ (fun hc => ?_)
  rw [State.canonical_iff] at hc ⊢
  refine ⟨hc.1, hc.2.1, Memory.wf_iff.mpr ⟨hc.2.2.2.2.2.2.2.1, hc.2.2.2.2.2.2.2.2, rfl⟩, hc.2.2.2.1, hc.2.2.2.2.1, hc.2.2.2.2.2.1, ?_,
    hc.2.2.2.2.2.2.2.1, hc.2.2.2.2.2.2.2.2⟩
  refine foldl_wf (fun m x hm => ?_) rfl
  split
  · exact hm
  · exact SMap.set_wf hm

theorem State.journalUpdate_agree {L s0 s u eff} (hL : [.flash] ⊆ L) (h : Agree L s0 s) : Agree L s0 (State.journalUpdate s u eff) := by
  unfold State.journalUpdate
  refine State.journal_agree (sub hL (by decide)) ?_
  exact h

theorem State.commitBatch_agree {L s0 s} (hL : [.freshCount, .regs, .linkOut, .mem, .rings, .sched, .parts, .pages, .ras, .flash, .link, .nb] ⊆ L) (h : Agree L s0 s) : Agree L s0 (State.commitBatch s) := by
  unfold State.commitBatch
  try dsimp only
  split
  · refine State.handVectors_agree (sub hL (by decide)) ?_
    exact h
  · refine Agree.ite ?_ ?_
    · refine State.handVectors_agree (sub hL (by decide)) ?_
      exact h
    · refine Agree.fold ?_ ?_
      · intro t1 x1 h1
        show Agree L s0 _
        refine State.dropJob_agree (sub hL (by decide)) ?_
        refine Agree.ite ?_ ?_
        · refine Agree.ite ?_ ?_
          · refine State.commitInsert_agree (sub hL (by decide)) ?_
            refine Agree.ite ?_ ?_
            · refine State.journalUpdate_agree (sub hL (by decide)) ?_
              exact h1
            · exact h1
          · refine State.commitDelete_agree (sub hL (by decide)) ?_
            refine Agree.ite ?_ ?_
            · refine State.journalUpdate_agree (sub hL (by decide)) ?_
              exact h1
            · exact h1
        · refine State.failUpdate_agree (sub hL (by decide)) ?_
          refine Agree.ite ?_ ?_
          · refine State.journalUpdate_agree (sub hL (by decide)) ?_
            exact h1
          · exact h1
      · refine Agree.ite ?_ ?_
        · refine State.bump_agree (sub hL (by decide)) ?_
          refine Agree.sched_write (mem_of hL (by decide)) ?_ _
          refine State.handVectors_agree (sub hL (by decide)) ?_
          exact h
        · refine Agree.sched_write (mem_of hL (by decide)) ?_ _
          refine State.handVectors_agree (sub hL (by decide)) ?_
          exact h

end Sys2Proof.Machine
end

