-- ==== Sys2Proof/Laws/KeepEngine.lean ====
section
/-! SUPPORT. What the operations of Machine/Engine.lean may touch. -/

namespace Sys2Proof.Machine

open Sys2Proof

theorem State.outBlock_agree {L s0 s f tiled base rowLen row col dom l} (hL : [.regs, .linkOut, .mem, .pages, .ras, .flash, .link, .nb] ⊆ L) (h : Agree L s0 s) : Agree L s0 (State.outBlock s f tiled base rowLen row col dom l).1 := by
  unfold State.outBlock
  refine Agree.ite ?_ ?_
  · refine State.bump_agree (sub hL (by decide)) ?_
    refine Agree.ite ?_ ?_
    · refine State.bump_agree (sub hL (by decide)) ?_
      refine Agree.ite ?_ ?_
      · refine Agree.ite ?_ ?_
        · refine State.store_agree (sub hL (by decide)) ?_
          exact h
        · refine State.store_agree (sub hL (by decide)) ?_
          refine State.store_agree (sub hL (by decide)) ?_
          exact h
      · refine State.store_agree (sub hL (by decide)) ?_
        exact h
    · refine Agree.ite ?_ ?_
      · refine Agree.ite ?_ ?_
        · refine State.store_agree (sub hL (by decide)) ?_
          exact h
        · refine State.store_agree (sub hL (by decide)) ?_
          refine State.store_agree (sub hL (by decide)) ?_
          exact h
      · refine State.store_agree (sub hL (by decide)) ?_
        exact h
  · refine Agree.ite ?_ ?_
    · refine State.bump_agree (sub hL (by decide)) ?_
      refine Agree.ite ?_ ?_
      · refine Agree.ite ?_ ?_
        · refine State.store_agree (sub hL (by decide)) ?_
          exact h
        · refine State.store_agree (sub hL (by decide)) ?_
          refine State.store_agree (sub hL (by decide)) ?_
          exact h
      · refine State.store_agree (sub hL (by decide)) ?_
        exact h
    · refine Agree.ite ?_ ?_
      · refine Agree.ite ?_ ?_
        · refine State.store_agree (sub hL (by decide)) ?_
          exact h
        · refine State.store_agree (sub hL (by decide)) ?_
          refine State.store_agree (sub hL (by decide)) ?_
          exact h
      · refine State.store_agree (sub hL (by decide)) ?_
        exact h

theorem State.takeEngine_agree {L s0 s d r t} (he : State.takeEngine s d r = some t) (hL : [.regs, .linkOut, .mem, .rings, .sched, .pages, .ras, .flash, .link, .nb] ⊆ L) (h : Agree L s0 s) : Agree L s0 t := by
  unfold State.takeEngine at he
  try dsimp only at he
  split at he
  · cases he
  · split at he
    · cases he
    · obtain rfl := Option.some.inj he
      refine Agree.fold ?_ ?_
      · intro t1 x1 h1
        show Agree L s0 _
        try dsimp only
        split
        · refine State.postRecord_agree (sub hL (by decide)) ?_
          refine State.countEnd_agree (sub hL (by decide)) ?_
          refine Agree.ite ?_ ?_
          · refine State.countShareRefused_agree (sub hL (by decide)) ?_
            refine State.takeHead_agree (sub hL (by decide)) ?_
            exact h1
          · refine State.takeHead_agree (sub hL (by decide)) ?_
            exact h1
        · refine State.addJob_agree (sub hL (by decide)) ?_
          refine State.takeHead_agree (sub hL (by decide)) ?_
          exact h1
      · exact h

theorem State.postChain_agree {L s0 l} : ∀ {s}, ([.regs, .linkOut, .mem, .rings, .sched, .pages, .ras, .flash, .link, .nb] ⊆ L) → Agree L s0 s → Agree L s0 (State.postChain s l) := by
  induction l with
  | nil => intro s _ h; exact h
  | cons x t ih =>
    intro s hL h
    obtain ⟨j, n⟩ := x
    unfold State.postChain
    split
    · exact ih hL (State.dropJob_agree (sub hL (by decide)) (State.postRecord_agree (sub hL (by decide)) (State.countEnd_agree (sub hL (by decide)) h)))
    · exact h

theorem State.endEngine_agree {L s0 s j e st} (hL : [.regs, .linkOut, .mem, .rings, .sched, .pages, .ras, .flash, .link, .nb] ⊆ L) (h : Agree L s0 s) : Agree L s0 (State.endEngine s j e st) := by
  unfold State.endEngine
  refine State.postChain_agree (sub hL (by decide)) ?_
  refine Agree.fold ?_ ?_
  · intro t1 x1 h1
    show Agree L s0 _
    refine Agree.ite ?_ ?_
    · refine State.putJob_agree (sub hL (by decide)) ?_
      exact h1
    · exact h1
  · exact h

theorem State.runGemm_agree {L s0 s core j e g row0 rows k0 kn} (hL : [.freshCount, .regs, .linkOut, .mem, .rings, .sched, .pages, .ras, .flash, .link, .nb] ⊆ L) (h : Agree L s0 s) : Agree L s0 (State.runGemm s core j e g row0 rows k0 kn) := by
  unfold State.runGemm
  refine Agree.ite ?_ ?_
  · refine State.doomJob_agree (sub hL (by decide)) ?_
    refine State.bumpBy_agree (sub hL (by decide)) ?_
    exact h
  · refine Agree.ite ?_ ?_
    · refine State.putJob_agree (sub hL (by decide)) ?_
      refine State.fresh_agree (sub hL (by decide)) ?_
      refine State.bump_agree (sub hL (by decide)) ?_
      refine State.bumpBy_agree (sub hL (by decide)) ?_
      exact h
    · refine Agree.ite ?_ ?_
      · refine State.endEngine_agree (sub hL (by decide)) ?_
        refine State.putJob_agree (sub hL (by decide)) ?_
        refine State.fresh_agree (sub hL (by decide)) ?_
        refine Agree.foldFst ?_ ?_
        · intro t1 x1 h1
          refine Agree.foldFst ?_ ?_
          · intro t2 x2 h2
            refine State.outBlock_agree (sub hL (by decide)) ?_
            exact h2
          · exact h1
        · refine State.bumpBy_agree (sub hL (by decide)) ?_
          exact h
      · refine State.putJob_agree (sub hL (by decide)) ?_
        refine State.fresh_agree (sub hL (by decide)) ?_
        refine Agree.foldFst ?_ ?_
        · intro t3 x3 h3
          refine Agree.foldFst ?_ ?_
          · intro t4 x4 h4
            refine State.outBlock_agree (sub hL (by decide)) ?_
            exact h4
          · exact h3
        · refine State.bumpBy_agree (sub hL (by decide)) ?_
          exact h

theorem State.runVector_agree {L s0 s j e lo n} (hL : [.freshCount, .regs, .linkOut, .mem, .rings, .sched, .pages, .ras, .flash, .link, .nb] ⊆ L) (h : Agree L s0 s) : Agree L s0 (State.runVector s j e lo n) := by
  unfold State.runVector
  refine Agree.ite ?_ ?_
  · refine State.doomJob_agree (sub hL (by decide)) ?_
    exact h
  · refine Agree.ite ?_ ?_
    · refine State.endEngine_agree (sub hL (by decide)) ?_
      refine State.putJob_agree (sub hL (by decide)) ?_
      refine State.fresh_agree (sub hL (by decide)) ?_
      refine Agree.iteFst ?_ ?_
      · refine Agree.fold ?_ ?_
        · intro t1 x1 h1
          show Agree L s0 _
          refine State.store_agree (sub hL (by decide)) ?_
          exact h1
        · exact h
      · refine Agree.foldFst ?_ ?_
        · intro t2 x2 h2
          refine State.outBlock_agree (sub hL (by decide)) ?_
          exact h2
        · exact h
    · refine State.putJob_agree (sub hL (by decide)) ?_
      refine State.fresh_agree (sub hL (by decide)) ?_
      refine Agree.iteFst ?_ ?_
      · refine Agree.fold ?_ ?_
        · intro t3 x3 h3
          show Agree L s0 _
          refine State.store_agree (sub hL (by decide)) ?_
          exact h3
        · exact h
      · refine Agree.foldFst ?_ ?_
        · intro t4 x4 h4
          refine State.outBlock_agree (sub hL (by decide)) ?_
          exact h4
        · exact h

end Sys2Proof.Machine
end

