-- ==== Sys2Proof/Laws/KeepAttention.lean ====
section
/-! SUPPORT. What the operations of Machine/Attention.lean may touch. -/

namespace Sys2Proof.Machine

open Sys2Proof

theorem State.prefetchLayer_agree {L s0 s x l} (hL : [.regs, .pages] ⊆ L) (h : Agree L s0 s) : Agree L s0 (State.prefetchLayer s x l) := by
  unfold State.prefetchLayer
  refine Agree.fold ?_ ?_
  · intro t1 x1 h1
    show Agree L s0 _
    refine Agree.fold ?_ ?_
    · intro t2 x2 h2
      show Agree L s0 _
      try dsimp only
      split
      · refine Agree.ite ?_ ?_
        · exact h2
        · refine Agree.fold ?_ ?_
          · intro t3 x3 h3
            show Agree L s0 _
            refine State.fetchPage_agree (sub hL (by decide)) ?_
            exact h3
          · refine State.bump_agree (sub hL (by decide)) ?_
            exact h2
      · exact h2
    · exact h1
  · exact h

theorem State.attnPrefetch_agree {L s0 s x l} (hL : [.regs, .pages] ⊆ L) (h : Agree L s0 s) : Agree L s0 (State.attnPrefetch s x l) := by
  unfold State.attnPrefetch
  refine Agree.ite ?_ ?_
  · exact h
  · refine State.prefetchLayer_agree (sub hL (by decide)) ?_
    refine State.prefetchLayer_agree (sub hL (by decide)) ?_
    exact h

theorem State.pinAttend_agree {L s0 s a} (hL : [.regs, .pages] ⊆ L) (h : Agree L s0 s) : Agree L s0 (State.pinAttend s a).1 := by
  unfold State.pinAttend
  refine Agree.fold ?_ ?_
  · intro t1 x1 h1
    show Agree L s0 _
    refine Agree.fold ?_ ?_
    · intro t2 x2 h2
      show Agree L s0 _
      refine State.fetchPage_agree (sub hL (by decide)) ?_
      exact h2
    · refine State.bump_agree (sub hL (by decide)) ?_
      exact h1
  · exact h

theorem State.takeAttend_agree {L s0 s d r t} (he : State.takeAttend s d r = some t) (hL : [.regs, .linkOut, .mem, .rings, .sched, .pages, .ras, .flash, .link, .nb] ⊆ L) (h : Agree L s0 s) : Agree L s0 t := by
  unfold State.takeAttend at he
  try dsimp only at he
  split at he
  · cases he
  · split at he
    · obtain rfl := Option.some.inj he
      refine State.postRecord_agree (sub hL (by decide)) ?_
      refine State.countEnd_agree (sub hL (by decide)) ?_
      refine Agree.ite ?_ ?_
      · refine State.countShareRefused_agree (sub hL (by decide)) ?_
        refine Agree.ite ?_ ?_
        · refine State.accessErr_agree (sub hL (by decide)) ?_
          refine State.takeHead_agree (sub hL (by decide)) ?_
          exact h
        · refine State.takeHead_agree (sub hL (by decide)) ?_
          exact h
      · refine Agree.ite ?_ ?_
        · refine State.accessErr_agree (sub hL (by decide)) ?_
          refine State.takeHead_agree (sub hL (by decide)) ?_
          exact h
        · refine State.takeHead_agree (sub hL (by decide)) ?_
          exact h
    · obtain rfl := Option.some.inj he
      refine State.addJob_agree (sub hL (by decide)) ?_
      refine State.pinAttend_agree (sub hL (by decide)) ?_
      refine State.attnPrefetch_agree (sub hL (by decide)) ?_
      refine State.takeHead_agree (sub hL (by decide)) ?_
      exact h

theorem State.mergePartial_agree {L s0 s slot m} (hL : [.regs, .sched] ⊆ L) (h : Agree L s0 s) : Agree L s0 (State.mergePartial s slot m) := by
  unfold State.mergePartial
  split
  · refine State.bump_agree (sub hL (by decide)) ?_
    exact h
  · refine Agree.ite ?_ ?_
    · refine State.bump_agree (sub hL (by decide)) ?_
      exact h
    · try dsimp only
      split
      · refine State.putJob_agree (sub hL (by decide)) ?_
        exact h
      · refine State.doomJob_agree (sub hL (by decide)) ?_
        refine State.putJob_agree (sub hL (by decide)) ?_
        exact h
      · refine State.doomJob_agree (sub hL (by decide)) ?_
        refine State.putJob_agree (sub hL (by decide)) ?_
        exact h

theorem State.sendPartial_agree {L s0 s a m} (hL : [.regs, .sched, .fabric] ⊆ L) (h : Agree L s0 s) : Agree L s0 (State.sendPartial s a m) := by
  unfold State.sendPartial
  refine Agree.ite ?_ ?_
  · refine State.mergePartial_agree (sub hL (by decide)) ?_
    exact h
  · refine State.send_agree (sub hL (by decide)) ?_
    exact h

theorem State.endAttend_agree {L s0 s j a st} (hL : [.regs, .linkOut, .mem, .rings, .sched, .pages, .ras, .fabric, .flash, .link, .nb] ⊆ L) (h : Agree L s0 s) : Agree L s0 (State.endAttend s j a st) := by
  unfold State.endAttend
  refine State.dropJob_agree (sub hL (by decide)) ?_
  refine State.postRecord_agree (sub hL (by decide)) ?_
  refine Agree.ite ?_ ?_
  · refine Agree.ite ?_ ?_
    · refine State.sendPartial_agree (sub hL (by decide)) ?_
      refine State.countEnd_agree (sub hL (by decide)) ?_
      exact h
    · refine Agree.ite ?_ ?_
      · refine State.store_agree (sub hL (by decide)) ?_
        refine State.countEnd_agree (sub hL (by decide)) ?_
        exact h
      · refine State.countEnd_agree (sub hL (by decide)) ?_
        exact h
  · refine State.countEnd_agree (sub hL (by decide)) ?_
    exact h

theorem State.putAttend_agree {L s0 s j a} (hL : [.sched] ⊆ L) (h : Agree L s0 s) : Agree L s0 (State.putAttend s j a) := by
  unfold State.putAttend
  refine State.putJob_agree (sub hL (by decide)) ?_
  exact h

theorem State.runProject_agree {L s0 s core j a g k0 kn} (hL : [.freshCount, .regs, .sched] ⊆ L) (h : Agree L s0 s) : Agree L s0 (State.runProject s core j a g k0 kn) := by
  unfold State.runProject
  refine Agree.ite ?_ ?_
  · refine State.doomJob_agree (sub hL (by decide)) ?_
    refine State.bumpBy_agree (sub hL (by decide)) ?_
    exact h
  · refine State.putAttend_agree (sub hL (by decide)) ?_
    refine State.fresh_agree (sub hL (by decide)) ?_
    refine Agree.ite ?_ ?_
    · refine State.bump_agree (sub hL (by decide)) ?_
      refine State.bumpBy_agree (sub hL (by decide)) ?_
      exact h
    · refine State.bumpBy_agree (sub hL (by decide)) ?_
      exact h

theorem State.countMx_agree {L s0 s q} (hL : [.regs] ⊆ L) (h : Agree L s0 s) : Agree L s0 (State.countMx s q) := by
  unfold State.countMx
  refine Agree.ite ?_ ?_
  · refine State.bump_agree (sub hL (by decide)) ?_
    refine Agree.ite ?_ ?_
    · refine State.bump_agree (sub hL (by decide)) ?_
      exact h
    · exact h
  · refine Agree.ite ?_ ?_
    · refine State.bump_agree (sub hL (by decide)) ?_
      exact h
    · exact h

theorem State.writeKey_agree {L s0 s x page slot dom k} (hL : [.regs, .linkOut, .mem, .pages, .ras, .flash, .link, .nb] ⊆ L) (h : Agree L s0 s) : Agree L s0 (State.writeKey s x page slot dom k) := by
  unfold State.writeKey
  refine Agree.ite ?_ ?_
  · refine Agree.fold ?_ ?_
    · intro t1 x1 h1
      show Agree L s0 _
      refine State.store_agree (sub hL (by decide)) ?_
      exact h1
    · exact h
  · refine Agree.fold ?_ ?_
    · intro t2 x2 h2
      show Agree L s0 _
      refine State.countMx_agree (sub hL (by decide)) ?_
      refine State.store_agree (sub hL (by decide)) ?_
      refine State.store_agree (sub hL (by decide)) ?_
      exact h2
    · exact h

theorem State.closeBlock_agree {L s0 s x page tail blk dom} (hL : [.regs, .linkOut, .mem, .pages, .ras, .flash, .link, .nb] ⊆ L) (h : Agree L s0 s) : Agree L s0 (State.closeBlock s x page tail blk dom) := by
  unfold State.closeBlock
  refine Agree.fold ?_ ?_
  · intro t1 x1 h1
    show Agree L s0 _
    refine State.countMx_agree (sub hL (by decide)) ?_
    refine State.store_agree (sub hL (by decide)) ?_
    refine State.store_agree (sub hL (by decide)) ?_
    exact h1
  · exact h

theorem State.writeValue_agree {L s0 s x page tail slot dom v} (hL : [.regs, .linkOut, .mem, .pages, .ras, .flash, .link, .nb] ⊆ L) (h : Agree L s0 s) : Agree L s0 (State.writeValue s x page tail slot dom v) := by
  unfold State.writeValue
  refine Agree.ite ?_ ?_
  · refine Agree.fold ?_ ?_
    · intro t1 x1 h1
      show Agree L s0 _
      refine State.store_agree (sub hL (by decide)) ?_
      exact h1
    · exact h
  · refine Agree.ite ?_ ?_
    · refine State.closeBlock_agree (sub hL (by decide)) ?_
      refine State.store_agree (sub hL (by decide)) ?_
      exact h
    · refine State.store_agree (sub hL (by decide)) ?_
      exact h

theorem State.runRotate_agree {L s0 s j a lo n} (hL : [.regs, .linkOut, .mem, .rings, .sched, .pages, .ras, .fabric, .flash, .link, .nb] ⊆ L) (h : Agree L s0 s) : Agree L s0 (State.runRotate s j a lo n) := by
  unfold State.runRotate
  refine Agree.ite ?_ ?_
  · refine State.putAttend_agree (sub hL (by decide)) ?_
    refine Agree.fold ?_ ?_
    · intro t1 x1 h1
      show Agree L s0 _
      refine Agree.fold ?_ ?_
      · intro t2 x2 h2
        show Agree L s0 _
        try dsimp only
        split
        · exact h2
        · refine Agree.ite ?_ ?_
          · refine Agree.fold ?_ ?_
            · intro t3 x3 h3
              show Agree L s0 _
              refine State.setPage_agree (sub hL (by decide)) ?_
              exact h3
            · refine State.writeValue_agree (sub hL (by decide)) ?_
              refine State.writeKey_agree (sub hL (by decide)) ?_
              exact h2
          · refine State.writeValue_agree (sub hL (by decide)) ?_
            refine State.writeKey_agree (sub hL (by decide)) ?_
            exact h2
      · exact h1
    · exact h
  · refine Agree.ite ?_ ?_
    · refine State.putAttend_agree (sub hL (by decide)) ?_
      refine State.store_agree (sub hL (by decide)) ?_
      refine Agree.fold ?_ ?_
      · intro t4 x4 h4
        show Agree L s0 _
        refine Agree.fold ?_ ?_
        · intro t5 x5 h5
          show Agree L s0 _
          try dsimp only
          split
          · exact h5
          · refine Agree.ite ?_ ?_
            · refine Agree.fold ?_ ?_
              · intro t6 x6 h6
                show Agree L s0 _
                refine State.setPage_agree (sub hL (by decide)) ?_
                exact h6
              · refine State.writeValue_agree (sub hL (by decide)) ?_
                refine State.writeKey_agree (sub hL (by decide)) ?_
                exact h5
            · refine State.writeValue_agree (sub hL (by decide)) ?_
              refine State.writeKey_agree (sub hL (by decide)) ?_
              exact h5
        · exact h4
      · exact h
    · refine State.endAttend_agree (sub hL (by decide)) ?_
      refine State.store_agree (sub hL (by decide)) ?_
      refine Agree.fold ?_ ?_
      · intro t7 x7 h7
        show Agree L s0 _
        refine Agree.fold ?_ ?_
        · intro t8 x8 h8
          show Agree L s0 _
          try dsimp only
          split
          · exact h8
          · refine Agree.ite ?_ ?_
            · refine Agree.fold ?_ ?_
              · intro t9 x9 h9
                show Agree L s0 _
                refine State.setPage_agree (sub hL (by decide)) ?_
                exact h9
              · refine State.writeValue_agree (sub hL (by decide)) ?_
                refine State.writeKey_agree (sub hL (by decide)) ?_
                exact h8
            · refine State.writeValue_agree (sub hL (by decide)) ?_
              refine State.writeKey_agree (sub hL (by decide)) ?_
              exact h8
        · exact h7
      · exact h

theorem State.runFused_agree {L s0 s j a h' r p0 n} (hL : [.freshCount, .regs, .sched] ⊆ L) (h : Agree L s0 s) : Agree L s0 (State.runFused s j a h' r p0 n) := by
  unfold State.runFused
  refine Agree.ite ?_ ?_
  · refine State.doomJob_agree (sub hL (by decide)) ?_
    refine State.putAttend_agree (sub hL (by decide)) ?_
    refine State.bumpBy_agree (sub hL (by decide)) ?_
    exact h
  · refine Agree.ite ?_ ?_
    · refine State.doomJob_agree (sub hL (by decide)) ?_
      refine State.putAttend_agree (sub hL (by decide)) ?_
      refine State.bumpBy_agree (sub hL (by decide)) ?_
      exact h
    · refine State.putAttend_agree (sub hL (by decide)) ?_
      refine State.fresh_agree (sub hL (by decide)) ?_
      refine State.putAttend_agree (sub hL (by decide)) ?_
      refine State.bumpBy_agree (sub hL (by decide)) ?_
      exact h

theorem State.runCombine_agree {L s0 s j a lo n} (hL : [.freshCount, .regs, .linkOut, .mem, .rings, .sched, .pages, .ras, .fabric, .flash, .link, .nb] ⊆ L) (h : Agree L s0 s) : Agree L s0 (State.runCombine s j a lo n) := by
  unfold State.runCombine
  refine Agree.ite ?_ ?_
  · refine State.putAttend_agree (sub hL (by decide)) ?_
    refine State.fresh_agree (sub hL (by decide)) ?_
    exact h
  · refine State.endAttend_agree (sub hL (by decide)) ?_
    refine State.bumpBy_agree (sub hL (by decide)) ?_
    refine State.fresh_agree (sub hL (by decide)) ?_
    exact h

theorem State.takeMerge_agree {L s0 s d r t} (he : State.takeMerge s d r = some t) (hL : [.regs, .linkOut, .mem, .rings, .sched, .pages, .ras, .flash, .link, .nb] ⊆ L) (h : Agree L s0 s) : Agree L s0 t := by
  unfold State.takeMerge at he
  try dsimp only at he
  split at he
  · cases he
  · split at he
    · obtain rfl := Option.some.inj he
      refine State.postRecord_agree (sub hL (by decide)) ?_
      refine State.countEnd_agree (sub hL (by decide)) ?_
      refine Agree.ite ?_ ?_
      · refine State.countShareRefused_agree (sub hL (by decide)) ?_
        refine Agree.ite ?_ ?_
        · refine State.accessErr_agree (sub hL (by decide)) ?_
          refine State.takeHead_agree (sub hL (by decide)) ?_
          refine Agree.sched_write (mem_of hL (by decide)) ?_ _
          exact h
        · refine State.takeHead_agree (sub hL (by decide)) ?_
          refine Agree.sched_write (mem_of hL (by decide)) ?_ _
          exact h
      · refine Agree.ite ?_ ?_
        · refine State.accessErr_agree (sub hL (by decide)) ?_
          refine State.takeHead_agree (sub hL (by decide)) ?_
          refine Agree.sched_write (mem_of hL (by decide)) ?_ _
          exact h
        · refine State.takeHead_agree (sub hL (by decide)) ?_
          refine Agree.sched_write (mem_of hL (by decide)) ?_ _
          exact h
    · obtain rfl := Option.some.inj he
      refine State.addJob_agree (sub hL (by decide)) ?_
      refine State.takeHead_agree (sub hL (by decide)) ?_
      refine Agree.sched_write (mem_of hL (by decide)) ?_ _
      exact h

theorem State.endMerge_agree {L s0 s j m st} (hL : [.regs, .linkOut, .mem, .rings, .sched, .pages, .ras, .flash, .link, .nb] ⊆ L) (h : Agree L s0 s) : Agree L s0 (State.endMerge s j m st) := by
  unfold State.endMerge
  refine State.dropJob_agree (sub hL (by decide)) ?_
  refine State.postRecord_agree (sub hL (by decide)) ?_
  refine State.countEnd_agree (sub hL (by decide)) ?_
  exact h

theorem State.runMerge_agree {L s0 s j m lo n} (hL : [.freshCount, .regs, .linkOut, .mem, .rings, .sched, .pages, .ras, .flash, .link, .nb] ⊆ L) (h : Agree L s0 s) : Agree L s0 (State.runMerge s j m lo n) := by
  unfold State.runMerge
  refine Agree.ite ?_ ?_
  · refine State.putJob_agree (sub hL (by decide)) ?_
    refine State.fresh_agree (sub hL (by decide)) ?_
    refine Agree.foldFst ?_ ?_
    · intro t1 x1 h1
      refine State.store_agree (sub hL (by decide)) ?_
      exact h1
    · exact h
  · refine State.endMerge_agree (sub hL (by decide)) ?_
    refine State.putJob_agree (sub hL (by decide)) ?_
    refine State.fresh_agree (sub hL (by decide)) ?_
    refine Agree.foldFst ?_ ?_
    · intro t2 x2 h2
      refine State.store_agree (sub hL (by decide)) ?_
      exact h2
    · exact h

theorem State.readSlots_agree {L s0 s} (hL : [.attn] ⊆ L) (h : Agree L s0 s) : Agree L s0 (State.readSlots s) := by
  unfold State.readSlots
  refine Agree.attn_write (mem_of hL (by decide)) ?_ _
  exact h

end Sys2Proof.Machine
end

