-- ==== Sys2Proof/Laws/KeepEmbed.lean ====
section
/-! SUPPORT. What the operations of Machine/Embed.lean may touch. -/

namespace Sys2Proof.Machine

open Sys2Proof

theorem State.setTab_agree {L s0 s t' v} (hL : [.emb] ⊆ L) (h : Agree L s0 s) : Agree L s0 (State.setTab s t' v) := by
  unfold State.setTab
  refine Agree.emb_write (mem_of hL (by decide)) ?_ _
  exact h

theorem State.putLookup_agree {L s0 s j l} (hL : [.sched] ⊆ L) (h : Agree L s0 s) : Agree L s0 (State.putLookup s j l) := by
  unfold State.putLookup
  refine State.putJob_agree (sub hL (by decide)) ?_
  exact h

theorem State.putShare_agree {L s0 s j x} (hL : [.sched] ⊆ L) (h : Agree L s0 s) : Agree L s0 (State.putShare s j x) := by
  unfold State.putShare
  refine State.putJob_agree (sub hL (by decide)) ?_
  exact h

theorem State.takeLookup_agree {L s0 s d r t} (he : State.takeLookup s d r = some t) (hL : [.regs, .linkOut, .mem, .rings, .sched, .pages, .ras, .flash, .link, .nb] ⊆ L) (h : Agree L s0 s) : Agree L s0 t := by
  unfold State.takeLookup at he
  try dsimp only at he
  split at he
  · cases he
  · split at he
    · cases he
    · split at he
      · obtain rfl := Option.some.inj he
        refine State.postRecord_agree (sub hL (by decide)) ?_
        refine State.countEnd_agree (sub hL (by decide)) ?_
        refine Agree.ite ?_ ?_
        · refine State.countShareRefused_agree (sub hL (by decide)) ?_
          refine State.takeHead_agree (sub hL (by decide)) ?_
          exact h
        · refine State.takeHead_agree (sub hL (by decide)) ?_
          exact h
      · obtain rfl := Option.some.inj he
        refine State.addJob_agree (sub hL (by decide)) ?_
        refine State.takeHead_agree (sub hL (by decide)) ?_
        exact h

theorem State.endLookup_agree {L s0 s j l st} (hL : [.regs, .linkOut, .mem, .rings, .sched, .pages, .ras, .flash, .link, .nb] ⊆ L) (h : Agree L s0 s) : Agree L s0 (State.endLookup s j l st) := by
  unfold State.endLookup
  refine State.dropJob_agree (sub hL (by decide)) ?_
  refine State.postRecord_agree (sub hL (by decide)) ?_
  refine State.bump_agree (sub hL (by decide)) ?_
  refine State.countEnd_agree (sub hL (by decide)) ?_
  exact h

theorem State.sendLookup_agree {L s0 s owner m} (hL : [.fabric, .emb] ⊆ L) (h : Agree L s0 s) : Agree L s0 (State.sendLookup s owner m) := by
  unfold State.sendLookup
  refine Agree.ite ?_ ?_
  · refine Agree.emb_write (mem_of hL (by decide)) ?_ _
    exact h
  · refine State.send_agree (sub hL (by decide)) ?_
    exact h

theorem State.reissueLookup_agree {L s0 s j l o} (hL : [.regs, .sched, .fabric, .emb] ⊆ L) (h : Agree L s0 s) : Agree L s0 (State.reissueLookup s j l o) := by
  unfold State.reissueLookup
  try dsimp only
  split
  · refine State.doomJob_agree (sub hL (by decide)) ?_
    exact h
  · refine Agree.fold ?_ ?_
    · intro t1 x1 h1
      show Agree L s0 _
      refine State.sendLookup_agree (sub hL (by decide)) ?_
      exact h1
    · refine State.bump_agree (sub hL (by decide)) ?_
      refine State.putLookup_agree (sub hL (by decide)) ?_
      exact h

theorem State.receiveLookup_agree {L s0 s m} (hL : [.regs, .sched, .fabric, .emb] ⊆ L) (h : Agree L s0 s) : Agree L s0 (State.receiveLookup s m) := by
  unfold State.receiveLookup
  split
  · exact h
  · split
    · exact h
    · refine Agree.ite ?_ ?_
      · refine State.reissueLookup_agree (sub hL (by decide)) ?_
        exact h
      · try dsimp only
        split
        · refine State.putLookup_agree (sub hL (by decide)) ?_
          exact h
        · refine State.doomJob_agree (sub hL (by decide)) ?_
          refine State.putLookup_agree (sub hL (by decide)) ?_
          exact h
        · refine State.doomJob_agree (sub hL (by decide)) ?_
          refine State.putLookup_agree (sub hL (by decide)) ?_
          exact h

theorem State.returnLookup_agree {L s0 s m st slow es} (hL : [.regs, .sched, .fabric, .emb] ⊆ L) (h : Agree L s0 s) : Agree L s0 (State.returnLookup s m st slow es) := by
  unfold State.returnLookup
  refine Agree.ite ?_ ?_
  · refine State.receiveLookup_agree (sub hL (by decide)) ?_
    refine Agree.ite ?_ ?_
    · refine State.bump_agree (sub hL (by decide)) ?_
      exact h
    · exact h
  · refine State.send_agree (sub hL (by decide)) ?_
    refine Agree.ite ?_ ?_
    · refine State.bump_agree (sub hL (by decide)) ?_
      exact h
    · exact h

theorem State.embServe_agree {L s0 s m} (hL : [.sched] ⊆ L) (h : Agree L s0 s) : Agree L s0 (State.embServe s m) := by
  unfold State.embServe
  refine State.setJobs_agree (sub hL (by decide)) ?_
  refine State.addJob_agree (sub hL (by decide)) ?_
  exact h

theorem State.tryLookup_agree {L s0 s w} (hL : [.regs, .sched, .fabric, .emb] ⊆ L) (h : Agree L s0 s) : Agree L s0 (State.tryLookup s w) := by
  unfold State.tryLookup
  try dsimp only
  split
  · exact h
  · refine State.returnLookup_agree (sub hL (by decide)) ?_
    refine State.setFld_agree (sub hL (by decide)) ?_
    refine Agree.emb_write (mem_of hL (by decide)) ?_ _
    exact h
  · refine State.returnLookup_agree (sub hL (by decide)) ?_
    refine Agree.ite ?_ ?_
    · refine State.countShareRefused_agree (sub hL (by decide)) ?_
      refine Agree.emb_write (mem_of hL (by decide)) ?_ _
      exact h
    · refine Agree.emb_write (mem_of hL (by decide)) ?_ _
      exact h
  · refine State.embServe_agree (sub hL (by decide)) ?_
    refine Agree.emb_write (mem_of hL (by decide)) ?_ _
    exact h

theorem State.tryLookups_agree {L s0 s} (hL : [.regs, .sched, .fabric, .emb] ⊆ L) (h : Agree L s0 s) : Agree L s0 (State.tryLookups s) := by
  unfold State.tryLookups
  refine Agree.fold ?_ ?_
  · intro t1 x1 h1
    show Agree L s0 _
    refine State.tryLookup_agree (sub hL (by decide)) ?_
    exact h1
  · exact h

theorem State.arriveLookup_agree {L s0 s src m} (hL : [.regs, .sched, .fabric, .emb] ⊆ L) (h : Agree L s0 s) : Agree L s0 (State.arriveLookup s src m) := by
  unfold State.arriveLookup
  refine State.tryLookup_agree (sub hL (by decide)) ?_
  refine Agree.emb_write (mem_of hL (by decide)) ?_ _
  exact h

theorem State.sortDone_agree {L s0 s j l} (hL : [.regs, .linkOut, .mem, .rings, .sched, .pages, .ras, .fabric, .flash, .link, .emb, .nb] ⊆ L) (h : Agree L s0 s) : Agree L s0 (State.sortDone s j l) := by
  unfold State.sortDone
  refine Agree.ite ?_ ?_
  · refine State.endLookup_agree (sub hL (by decide)) ?_
    exact h
  · refine Agree.ite ?_ ?_
    · refine State.endLookup_agree (sub hL (by decide)) ?_
      refine State.bump_agree (sub hL (by decide)) ?_
      exact h
    · try dsimp only
      split
      · refine State.doomJob_agree (sub hL (by decide)) ?_
        exact h
      · refine Agree.ite ?_ ?_
        · refine State.doomJob_agree (sub hL (by decide)) ?_
          exact h
        · refine Agree.fold ?_ ?_
          · intro t1 x1 h1
            show Agree L s0 _
            refine State.tryLookup_agree (sub hL (by decide)) ?_
            exact h1
          · refine Agree.fold ?_ ?_
            · intro t2 x2 h2
              show Agree L s0 _
              refine State.sendLookup_agree (sub hL (by decide)) ?_
              exact h2
            · refine State.putLookup_agree (sub hL (by decide)) ?_
              exact h

theorem State.runSort_agree {L s0 s j l lo n} (hL : [.regs, .linkOut, .mem, .rings, .sched, .pages, .ras, .fabric, .flash, .link, .emb, .nb] ⊆ L) (h : Agree L s0 s) : Agree L s0 (State.runSort s j l lo n) := by
  unfold State.runSort
  refine Agree.ite ?_ ?_
  · refine State.doomJob_agree (sub hL (by decide)) ?_
    exact h
  · refine Agree.ite ?_ ?_
    · refine State.sortDone_agree (sub hL (by decide)) ?_
      exact h
    · refine State.putLookup_agree (sub hL (by decide)) ?_
      exact h

theorem State.endEmbShare_agree {L s0 s j x st} (hL : [.regs, .sched, .ras, .fabric, .emb] ⊆ L) (h : Agree L s0 s) : Agree L s0 (State.endEmbShare s j x st) := by
  unfold State.endEmbShare
  refine State.returnLookup_agree (sub hL (by decide)) ?_
  refine State.dropJob_agree (sub hL (by decide)) ?_
  refine State.countEnd_agree (sub hL (by decide)) ?_
  exact h

theorem State.runPooling_agree {L s0 s j x n} (hL : [.freshCount, .regs, .sched, .ras, .fabric, .emb] ⊆ L) (h : Agree L s0 s) : Agree L s0 (State.runPooling s j x n) := by
  unfold State.runPooling
  refine Agree.ite ?_ ?_
  · refine State.doomJob_agree (sub hL (by decide)) ?_
    exact h
  · refine Agree.ite ?_ ?_
    · refine State.endEmbShare_agree (sub hL (by decide)) ?_
      refine State.bumpBy_agree (sub hL (by decide)) ?_
      refine State.fresh_agree (sub hL (by decide)) ?_
      exact h
    · refine State.putShare_agree (sub hL (by decide)) ?_
      refine State.bumpBy_agree (sub hL (by decide)) ?_
      refine State.fresh_agree (sub hL (by decide)) ?_
      exact h

theorem State.runLookupCombine_agree {L s0 s j l lo n} (hL : [.freshCount, .regs, .linkOut, .mem, .rings, .sched, .pages, .ras, .flash, .link, .nb] ⊆ L) (h : Agree L s0 s) : Agree L s0 (State.runLookupCombine s j l lo n) := by
  unfold State.runLookupCombine
  refine Agree.ite ?_ ?_
  · refine State.putLookup_agree (sub hL (by decide)) ?_
    refine State.fresh_agree (sub hL (by decide)) ?_
    refine Agree.foldFst ?_ ?_
    · intro t1 x1 h1
      refine State.store_agree (sub hL (by decide)) ?_
      exact h1
    · exact h
  · refine State.endLookup_agree (sub hL (by decide)) ?_
    refine State.fresh_agree (sub hL (by decide)) ?_
    refine Agree.foldFst ?_ ?_
    · intro t2 x2 h2
      refine State.store_agree (sub hL (by decide)) ?_
      exact h2
    · exact h

theorem State.addGradient_agree {L s0 s t' step row g} (hL : [.regs, .emb] ⊆ L) (h : Agree L s0 s) : Agree L s0 (State.addGradient s t' step row g).1 := by
  unfold State.addGradient
  try dsimp only
  split
  · refine State.setTab_agree (sub hL (by decide)) ?_
    exact h
  · refine Agree.iteFst ?_ ?_
    · refine State.bump_agree (sub hL (by decide)) ?_
      refine State.setTab_agree (sub hL (by decide)) ?_
      exact h
    · refine State.setTab_agree (sub hL (by decide)) ?_
      exact h

theorem State.gradientRow_agree {L s0 s src t' step row g} (hL : [.regs, .fabric, .emb] ⊆ L) (h : Agree L s0 s) : Agree L s0 (State.gradientRow s src t' step row g) := by
  unfold State.gradientRow
  refine Agree.ite ?_ ?_
  · exact h
  · refine Agree.ite ?_ ?_
    · refine State.addGradient_agree (sub hL (by decide)) ?_
      exact h
    · refine State.send_agree (sub hL (by decide)) ?_
      refine State.addGradient_agree (sub hL (by decide)) ?_
      exact h

theorem State.takeEmbUpdate_agree {L s0 s d r} (hL : [.regs, .linkOut, .mem, .rings, .sched, .pages, .ras, .fabric, .flash, .link, .emb, .nb] ⊆ L) (h : Agree L s0 s) : Agree L s0 (State.takeEmbUpdate s d r) := by
  unfold State.takeEmbUpdate
  try dsimp only
  split
  · refine State.postRecord_agree (sub hL (by decide)) ?_
    refine State.countEnd_agree (sub hL (by decide)) ?_
    refine State.takeHead_agree (sub hL (by decide)) ?_
    exact h
  · refine Agree.ite ?_ ?_
    · refine State.postRecord_agree (sub hL (by decide)) ?_
      refine State.countEnd_agree (sub hL (by decide)) ?_
      refine Agree.foldFst ?_ ?_
      · intro t1 x1 h1
        refine Agree.iteFst ?_ ?_
        · refine State.addGradient_agree (sub hL (by decide)) ?_
          exact h1
        · refine Agree.iteFst ?_ ?_
          · exact h1
          · refine State.send_agree (sub hL (by decide)) ?_
            exact h1
      · refine State.takeHead_agree (sub hL (by decide)) ?_
        exact h
    · refine Agree.ite ?_ ?_
      · refine State.doomJob_agree (sub hL (by decide)) ?_
        refine State.addJob_agree (sub hL (by decide)) ?_
        refine Agree.foldFst ?_ ?_
        · intro t2 x2 h2
          refine Agree.iteFst ?_ ?_
          · refine State.addGradient_agree (sub hL (by decide)) ?_
            exact h2
          · refine Agree.iteFst ?_ ?_
            · exact h2
            · refine State.send_agree (sub hL (by decide)) ?_
              exact h2
        · refine State.takeHead_agree (sub hL (by decide)) ?_
          exact h
      · refine State.addJob_agree (sub hL (by decide)) ?_
        refine Agree.foldFst ?_ ?_
        · intro t3 x3 h3
          refine Agree.iteFst ?_ ?_
          · refine State.addGradient_agree (sub hL (by decide)) ?_
            exact h3
          · refine Agree.iteFst ?_ ?_
            · exact h3
            · refine State.send_agree (sub hL (by decide)) ?_
              exact h3
        · refine State.takeHead_agree (sub hL (by decide)) ?_
          exact h

theorem State.endEmbUpdate_agree {L s0 s j u st} (hL : [.regs, .linkOut, .mem, .rings, .sched, .pages, .ras, .flash, .link, .nb] ⊆ L) (h : Agree L s0 s) : Agree L s0 (State.endEmbUpdate s j u st) := by
  unfold State.endEmbUpdate
  refine State.dropJob_agree (sub hL (by decide)) ?_
  refine State.postRecord_agree (sub hL (by decide)) ?_
  refine State.countEnd_agree (sub hL (by decide)) ?_
  exact h

theorem State.settleUpdates_agree {L s0 s} (hL : [.regs, .linkOut, .mem, .rings, .sched, .pages, .ras, .flash, .link, .nb] ⊆ L) (h : Agree L s0 s) : Agree L s0 (State.settleUpdates s) := by
  unfold State.settleUpdates
  refine Agree.fold ?_ ?_
  · intro t1 x1 h1
    show Agree L s0 _
    split
    · refine Agree.ite ?_ ?_
      · refine State.endEmbUpdate_agree (sub hL (by decide)) ?_
        exact h1
      · refine State.putJob_agree (sub hL (by decide)) ?_
        exact h1
    · exact h1
  · exact h

theorem State.dropReport_agree {L s0 s t' step} (hL : [.sched] ⊆ L) (h : Agree L s0 s) : Agree L s0 (State.dropReport s t' step) := by
  unfold State.dropReport
  split
  · split
    · refine State.putJob_agree (sub hL (by decide)) ?_
      exact h
    · exact h
  · exact h

theorem State.takeStepClose_agree {L s0 s d r} (hL : [.freshCount, .regs, .linkOut, .mem, .rings, .sched, .pages, .ras, .flash, .link, .nb] ⊆ L) (h : Agree L s0 s) : Agree L s0 (State.takeStepClose s d r) := by
  unfold State.takeStepClose
  try dsimp only
  split
  · refine State.postRecord_agree (sub hL (by decide)) ?_
    refine State.countEnd_agree (sub hL (by decide)) ?_
    refine State.fresh_agree (sub hL (by decide)) ?_
    refine State.takeHead_agree (sub hL (by decide)) ?_
    exact h
  · refine State.addJob_agree (sub hL (by decide)) ?_
    refine Agree.ite ?_ ?_
    · refine State.setFld_agree (sub hL (by decide)) ?_
      refine State.takeHead_agree (sub hL (by decide)) ?_
      exact h
    · refine State.takeHead_agree (sub hL (by decide)) ?_
      exact h

theorem State.closeStep_agree {L s0 s j c} (hL : [.freshCount, .regs, .linkOut, .mem, .rings, .sched, .pages, .ras, .flash, .link, .emb, .nb] ⊆ L) (h : Agree L s0 s) : Agree L s0 (State.closeStep s j c) := by
  unfold State.closeStep
  refine Agree.ite ?_ ?_
  · refine State.dropJob_agree (sub hL (by decide)) ?_
    refine State.postRecord_agree (sub hL (by decide)) ?_
    refine State.countEnd_agree (sub hL (by decide)) ?_
    refine State.fresh_agree (sub hL (by decide)) ?_
    exact h
  · refine State.setTab_agree (sub hL (by decide)) ?_
    exact h

theorem State.closeSteps_agree {L s0 s f} (hL : [.freshCount, .regs, .linkOut, .mem, .rings, .sched, .pages, .ras, .flash, .link, .emb, .nb] ⊆ L) (h : Agree L s0 s) : Agree L s0 (State.closeSteps s f) := by
  unfold State.closeSteps
  refine Agree.fold ?_ ?_
  · intro t1 x1 h1
    show Agree L s0 _
    split
    · refine Agree.ite ?_ ?_
      · refine State.closeStep_agree (sub hL (by decide)) ?_
        exact h1
      · exact h1
    · exact h1
  · exact h

theorem State.sealStep_agree {L s0 s t'} (hL : [.fabric, .emb] ⊆ L) (h : Agree L s0 s) : Agree L s0 (State.sealStep s t') := by
  unfold State.sealStep
  try dsimp only
  split
  · exact h
  · refine Agree.ite ?_ ?_
    · exact h
    · refine Agree.fold ?_ ?_
      · intro t1 x1 h1
        show Agree L s0 _
        refine State.send_agree (sub hL (by decide)) ?_
        exact h1
      · refine State.setTab_agree (sub hL (by decide)) ?_
        exact h

theorem State.recvSeal_agree {L s0 s src t' step} (hL : [.emb] ⊆ L) (h : Agree L s0 s) : Agree L s0 (State.recvSeal s src t' step) := by
  unfold State.recvSeal
  refine Agree.ite ?_ ?_
  · exact h
  · refine Agree.ite ?_ ?_
    · refine State.setTab_agree (sub hL (by decide)) ?_
      exact h
    · refine Agree.ite ?_ ?_
      · refine State.setTab_agree (sub hL (by decide)) ?_
        exact h
      · exact h

theorem State.applyRow_agree {L s0 s t' nb x e} (hL : [.regs, .linkOut, .mem, .pages, .ras, .flash, .link, .emb] ⊆ L) (h : Agree L s0 s) : Agree L s0 (State.applyRow s t' nb x e) := by
  unfold State.applyRow
  refine State.journal_agree (sub hL (by decide)) ?_
  refine State.bump_agree (sub hL (by decide)) ?_
  refine State.setTab_agree (sub hL (by decide)) ?_
  refine Agree.ite ?_ ?_
  · refine Agree.fold ?_ ?_
    · intro t1 x1 h1
      show Agree L s0 _
      refine State.poison_agree (sub hL (by decide)) ?_
      exact h1
    · exact h
  · refine Agree.ite ?_ ?_
    · refine State.storeNb_agree (sub hL (by decide)) ?_
      refine State.storeNb_agree (sub hL (by decide)) ?_
      exact h
    · refine State.storeNb_agree (sub hL (by decide)) ?_
      exact h

theorem State.endStep_agree {L s0 s t' x st} (hL : [.regs, .linkOut, .mem, .rings, .sched, .pages, .ras, .flash, .link, .emb, .nb] ⊆ L) (h : Agree L s0 s) : Agree L s0 (State.endStep s t' x st) := by
  unfold State.endStep
  try dsimp only
  split
  · refine State.dropJob_agree (sub hL (by decide)) ?_
    refine State.postRecord_agree (sub hL (by decide)) ?_
    refine State.countEnd_agree (sub hL (by decide)) ?_
    refine State.setTab_agree (sub hL (by decide)) ?_
    exact h
  · refine State.setTab_agree (sub hL (by decide)) ?_
    exact h

theorem State.finishStep_agree {L s0 s t'} (hL : [.regs, .linkOut, .mem, .rings, .sched, .pages, .ras, .flash, .link, .emb, .nb] ⊆ L) (h : Agree L s0 s) : Agree L s0 (State.finishStep s t') := by
  unfold State.finishStep
  split
  · refine Agree.ite ?_ ?_
    · exact h
    · refine State.endStep_agree (sub hL (by decide)) ?_
      exact h
  · exact h

theorem State.runApply_agree {L s0 s t' nb es} (hL : [.regs, .linkOut, .mem, .rings, .sched, .pages, .ras, .flash, .link, .emb, .nb] ⊆ L) (h : Agree L s0 s) : Agree L s0 (State.runApply s t' nb es) := by
  unfold State.runApply
  split
  · refine State.finishStep_agree (sub hL (by decide)) ?_
    refine Agree.fold ?_ ?_
    · intro t1 x1 h1
      show Agree L s0 _
      refine State.applyRow_agree (sub hL (by decide)) ?_
      exact h1
    · exact h
  · exact h

theorem State.putHot_agree {L s0 s t' slot row data poison} (hL : [.regs, .emb] ⊆ L) (h : Agree L s0 s) : Agree L s0 (State.putHot s t' slot row data poison) := by
  unfold State.putHot
  refine Agree.ite ?_ ?_
  · refine State.setTab_agree (sub hL (by decide)) ?_
    exact h
  · refine Agree.ite ?_ ?_
    · refine State.setTab_agree (sub hL (by decide)) ?_
      exact h
    · refine State.bump_agree (sub hL (by decide)) ?_
      exact h

theorem State.loadHot_agree {L s0 s t'} (hL : [.regs, .fabric, .emb] ⊆ L) (h : Agree L s0 s) : Agree L s0 (State.loadHot s t') := by
  unfold State.loadHot
  refine Agree.fold ?_ ?_
  · intro t1 x1 h1
    show Agree L s0 _
    refine Agree.ite ?_ ?_
    · refine State.putHot_agree (sub hL (by decide)) ?_
      exact h1
    · try dsimp only
      split
      · refine State.send_agree (sub hL (by decide)) ?_
        exact h1
      · exact h1
  · refine State.setTab_agree (sub hL (by decide)) ?_
    exact h

theorem State.takeHotSet_agree {L s0 s d r} (hL : [.regs, .linkOut, .mem, .rings, .sched, .pages, .ras, .flash, .link, .nb] ⊆ L) (h : Agree L s0 s) : Agree L s0 (State.takeHotSet s d r) := by
  unfold State.takeHotSet
  try dsimp only
  split
  · refine State.postRecord_agree (sub hL (by decide)) ?_
    refine State.countEnd_agree (sub hL (by decide)) ?_
    refine State.takeHead_agree (sub hL (by decide)) ?_
    exact h
  · refine State.addJob_agree (sub hL (by decide)) ?_
    refine State.takeHead_agree (sub hL (by decide)) ?_
    exact h

theorem State.applyHotSets_agree {L s0 s} (hL : [.regs, .linkOut, .mem, .rings, .sched, .pages, .ras, .fabric, .flash, .link, .emb, .nb] ⊆ L) (h : Agree L s0 s) : Agree L s0 (State.applyHotSets s) := by
  unfold State.applyHotSets
  refine Agree.fold ?_ ?_
  · intro t1 x1 h1
    show Agree L s0 _
    split
    · refine Agree.ite ?_ ?_
      · refine State.dropJob_agree (sub hL (by decide)) ?_
        refine State.postRecord_agree (sub hL (by decide)) ?_
        refine State.loadHot_agree (sub hL (by decide)) ?_
        refine State.setTab_agree (sub hL (by decide)) ?_
        exact h1
      · exact h1
    · exact h1
  · exact h

theorem State.refreshHot_agree {L s0 s t'} (hL : [.regs, .fabric, .emb] ⊆ L) (h : Agree L s0 s) : Agree L s0 (State.refreshHot s t') := by
  unfold State.refreshHot
  refine Agree.ite ?_ ?_
  · refine State.loadHot_agree (sub hL (by decide)) ?_
    exact h
  · exact h

theorem State.hotRowArrives_agree {L s0 s t' slot row data} (hL : [.regs, .emb] ⊆ L) (h : Agree L s0 s) : Agree L s0 (State.hotRowArrives s t' slot row data) := by
  unfold State.hotRowArrives
  refine Agree.ite ?_ ?_
  · refine State.putHot_agree (sub hL (by decide)) ?_
    exact h
  · exact h

theorem State.takeEmbVersion_agree {L s0 s d r} (hL : [.regs, .linkOut, .mem, .rings, .sched, .pages, .ras, .flash, .link, .emb, .nb] ⊆ L) (h : Agree L s0 s) : Agree L s0 (State.takeEmbVersion s d r) := by
  unfold State.takeEmbVersion
  try dsimp only
  split
  · refine State.postRecord_agree (sub hL (by decide)) ?_
    refine State.countEnd_agree (sub hL (by decide)) ?_
    refine State.takeHead_agree (sub hL (by decide)) ?_
    exact h
  · refine State.addJob_agree (sub hL (by decide)) ?_
    refine State.setTab_agree (sub hL (by decide)) ?_
    refine State.takeHead_agree (sub hL (by decide)) ?_
    exact h

theorem State.embSwaps_agree {L s0 s f} (hL : [.regs, .linkOut, .mem, .rings, .sched, .pages, .ras, .flash, .link, .emb, .nb] ⊆ L) (h : Agree L s0 s) : Agree L s0 (State.embSwaps s f) := by
  unfold State.embSwaps
  refine Agree.fold ?_ ?_
  · intro t1 x1 h1
    show Agree L s0 _
    split
    · refine Agree.ite ?_ ?_
      · refine Agree.ite ?_ ?_
        · refine State.dropJob_agree (sub hL (by decide)) ?_
          refine State.postRecord_agree (sub hL (by decide)) ?_
          refine State.countEnd_agree (sub hL (by decide)) ?_
          refine State.setTab_agree (sub hL (by decide)) ?_
          exact h1
        · refine State.dropJob_agree (sub hL (by decide)) ?_
          refine State.postRecord_agree (sub hL (by decide)) ?_
          refine State.setTab_agree (sub hL (by decide)) ?_
          exact h1
      · exact h1
    · exact h1
  · exact h

theorem State.releaseTab_agree {L s0 s t' slot} (hL : [.emb] ⊆ L) (h : Agree L s0 s) : Agree L s0 (State.releaseTab s t' slot) := by
  unfold State.releaseTab
  refine Agree.ite ?_ ?_
  · refine State.setTab_agree (sub hL (by decide)) ?_
    exact h
  · exact h

theorem State.readTab_agree {L s0 s t'} (hL : [.emb] ⊆ L) (h : Agree L s0 s) : Agree L s0 (State.readTab s t') := by
  unfold State.readTab
  refine Agree.ite ?_ ?_
  · exact h
  · refine Agree.ite ?_ ?_
    · refine State.setTab_agree (sub hL (by decide)) ?_
      exact h
    · refine Agree.ite ?_ ?_
      · refine State.setTab_agree (sub hL (by decide)) ?_
        exact h
      · refine State.setTab_agree (sub hL (by decide)) ?_
        exact h

theorem State.readTabs_agree {L s0 s} (hL : [.emb] ⊆ L) (h : Agree L s0 s) : Agree L s0 (State.readTabs s) := by
  unfold State.readTabs
  refine Agree.fold ?_ ?_
  · intro t1 x1 h1
    show Agree L s0 _
    refine State.readTab_agree (sub hL (by decide)) ?_
    exact h1
  · exact h

theorem State.embBoundary_agree {L s0 s} (hL : [.regs, .linkOut, .mem, .rings, .sched, .pages, .ras, .fabric, .flash, .link, .emb, .nb] ⊆ L) (h : Agree L s0 s) : Agree L s0 (State.embBoundary s) := by
  unfold State.embBoundary
  refine State.tryLookups_agree (sub hL (by decide)) ?_
  refine State.settleUpdates_agree (sub hL (by decide)) ?_
  refine Agree.fold ?_ ?_
  · intro t1 x1 h1
    show Agree L s0 _
    refine State.finishStep_agree (sub hL (by decide)) ?_
    refine State.releaseTab_agree (sub hL (by decide)) ?_
    refine State.releaseTab_agree (sub hL (by decide)) ?_
    refine State.refreshHot_agree (sub hL (by decide)) ?_
    exact h1
  · refine State.applyHotSets_agree (sub hL (by decide)) ?_
    exact h

end Sys2Proof.Machine
end

