-- ==== Sys2Proof/Laws/KeepNearBank.lean ====
section
/-! SUPPORT. What the operations of Machine/NearBank.lean may touch. -/

namespace Sys2Proof.Machine

open Sys2Proof

theorem State.setUnit_agree {L s0 s k u x} (hL : [.nb] ⊆ L) (h : Agree L s0 s) : Agree L s0 (State.setUnit s k u x) := by
  unfold State.setUnit
  refine Agree.nb_write (mem_of hL (by decide)) ?_ _
  exact h

theorem State.setIssue_agree {L s0 s k x} (hL : [.nb] ⊆ L) (h : Agree L s0 s) : Agree L s0 (State.setIssue s k x) := by
  unfold State.setIssue
  refine Agree.nb_write (mem_of hL (by decide)) ?_ _
  exact h

theorem State.setBeats_agree {L s0 s k u l} (hL : [.nb] ⊆ L) (h : Agree L s0 s) : Agree L s0 (State.setBeats s k u l) := by
  unfold State.setBeats
  refine Agree.nb_write (mem_of hL (by decide)) ?_ _
  exact h

theorem State.nbCommit_agree {L s0 s k u i b'} (hL : [.regs, .mem] ⊆ L) (h : Agree L s0 s) : Agree L s0 (State.nbCommit s k u i b') := by
  unfold State.nbCommit
  refine Agree.ite ?_ ?_
  · refine State.bump_agree (sub hL (by decide)) ?_
    refine Agree.mem_write (mem_of hL (by decide)) ?_ _ (fun hc => by first | exact State.canonical_mem hc MemSt.write_wf | exact State.canonical_mem hc MemSt.poisonLine_wf)
    exact h
  · refine Agree.mem_write (mem_of hL (by decide)) ?_ _ (fun hc => by first | exact State.canonical_mem hc MemSt.write_wf | exact State.canonical_mem hc MemSt.poisonLine_wf)
    exact h

theorem State.stitchPoint_agree {L s0 s k u x} (hL : [.regs, .mem, .nb] ⊆ L) (h : Agree L s0 s) : Agree L s0 (State.stitchPoint s k u x) := by
  unfold State.stitchPoint
  split
  · exact h
  · refine State.setUnit_agree (sub hL (by decide)) ?_
    refine Agree.ite ?_ ?_
    · refine State.bump_agree (sub hL (by decide)) ?_
      try dsimp only
      split
      · refine State.setBeats_agree (sub hL (by decide)) ?_
        refine State.setIssue_agree (sub hL (by decide)) ?_
        refine Agree.fold ?_ ?_
        · intro t1 x1 h1
          show Agree L s0 _
          refine State.nbCommit_agree (sub hL (by decide)) ?_
          exact h1
        · exact h
      · refine State.setIssue_agree (sub hL (by decide)) ?_
        refine Agree.fold ?_ ?_
        · intro t2 x2 h2
          show Agree L s0 _
          refine State.nbCommit_agree (sub hL (by decide)) ?_
          exact h2
        · exact h
    · try dsimp only
      split
      · refine State.setBeats_agree (sub hL (by decide)) ?_
        refine State.setIssue_agree (sub hL (by decide)) ?_
        refine Agree.fold ?_ ?_
        · intro t3 x3 h3
          show Agree L s0 _
          refine State.nbCommit_agree (sub hL (by decide)) ?_
          exact h3
        · exact h
      · refine State.setIssue_agree (sub hL (by decide)) ?_
        refine Agree.fold ?_ ?_
        · intro t4 x4 h4
          show Agree L s0 _
          refine State.nbCommit_agree (sub hL (by decide)) ?_
          exact h4
        · exact h

theorem State.nbEnd_agree {L s0 s k u x} (hL : [.freshCount, .regs, .mem, .nb] ⊆ L) (h : Agree L s0 s) : Agree L s0 (State.nbEnd s k u x) := by
  unfold State.nbEnd
  try dsimp only
  split
  · refine State.stitchPoint_agree (sub hL (by decide)) ?_
    exact h
  · split
    · refine State.setUnit_agree (sub hL (by decide)) ?_
      refine State.stitchPoint_agree (sub hL (by decide)) ?_
      exact h
    · refine State.setUnit_agree (sub hL (by decide)) ?_
      refine State.fresh_agree (sub hL (by decide)) ?_
      refine State.stitchPoint_agree (sub hL (by decide)) ?_
      exact h

theorem State.nbBad_agree {L s0 s k u x} (hL : [.nb] ⊆ L) (h : Agree L s0 s) : Agree L s0 (State.nbBad s k u x) := by
  unfold State.nbBad
  refine State.setUnit_agree (sub hL (by decide)) ?_
  exact h

theorem State.nbDone_agree {L s0 s k u w x r} (hL : [.regs, .mem, .nb] ⊆ L) (h : Agree L s0 s) : Agree L s0 (State.nbDone s k u w x r) := by
  unfold State.nbDone
  refine Agree.ite ?_ ?_
  · refine State.stitchPoint_agree (sub hL (by decide)) ?_
    exact h
  · refine State.setUnit_agree (sub hL (by decide)) ?_
    exact h

theorem State.nbLoaded_agree {L s0 s k err v} (hL : [.regs, .nb] ⊆ L) (h : Agree L s0 s) : Agree L s0 (State.nbLoaded s k err v) := by
  unfold State.nbLoaded
  try dsimp only
  split
  · refine Agree.ite ?_ ?_
    · refine State.setIssue_agree (sub hL (by decide)) ?_
      refine Agree.ite ?_ ?_
      · refine State.bump_agree (sub hL (by decide)) ?_
        exact h
      · exact h
    · refine Agree.ite ?_ ?_
      · refine State.bump_agree (sub hL (by decide)) ?_
        exact h
      · exact h
  · refine Agree.ite ?_ ?_
    · refine State.bump_agree (sub hL (by decide)) ?_
      exact h
    · exact h

theorem State.nbBuffer_agree {L s0 s k u x b'} (hL : [.regs, .mem, .nb] ⊆ L) (h : Agree L s0 s) : Agree L s0 (State.nbBuffer s k u x b').1 := by
  unfold State.nbBuffer
  refine Agree.ite ?_ ?_
  · refine State.stitchPoint_agree (sub hL (by decide)) ?_
    exact h
  · exact h

theorem State.nbNop_agree {L s0 s k u} (hL : [.regs, .mem, .nb] ⊆ L) (h : Agree L s0 s) : Agree L s0 (State.nbNop s k u) := by
  unfold State.nbNop
  split
  · refine Agree.ite ?_ ?_
    · refine State.nbDone_agree (sub hL (by decide)) ?_
      exact h
    · exact h
  · exact h

theorem State.nbEndI_agree {L s0 s k u} (hL : [.freshCount, .regs, .mem, .nb] ⊆ L) (h : Agree L s0 s) : Agree L s0 (State.nbEndI s k u) := by
  unfold State.nbEndI
  split
  · refine Agree.ite ?_ ?_
    · refine State.nbEnd_agree (sub hL (by decide)) ?_
      exact h
    · exact h
  · exact h

theorem State.nbSet_agree {L s0 s k u} (hL : [.regs, .mem, .nb] ⊆ L) (h : Agree L s0 s) : Agree L s0 (State.nbSet s k u) := by
  unfold State.nbSet
  split
  · refine Agree.ite ?_ ?_
    · refine State.nbDone_agree (sub hL (by decide)) ?_
      exact h
    · exact h
  · exact h

theorem State.nbLdw_agree {L s0 s k u} (hL : [.regs, .mem, .nb] ⊆ L) (h : Agree L s0 s) : Agree L s0 (State.nbLdw s k u) := by
  unfold State.nbLdw
  split
  · refine Agree.ite ?_ ?_
    · refine State.nbDone_agree (sub hL (by decide)) ?_
      exact h
    · exact h
  · exact h

theorem State.nbLde_agree {L s0 s k u} (hL : [.regs, .mem, .nb] ⊆ L) (h : Agree L s0 s) : Agree L s0 (State.nbLde s k u) := by
  unfold State.nbLde
  split
  · refine Agree.ite ?_ ?_
    · refine State.nbDone_agree (sub hL (by decide)) ?_
      exact h
    · exact h
  · exact h

theorem State.nbLd_agree {L s0 s k u err} (hL : [.regs, .mem, .nb] ⊆ L) (h : Agree L s0 s) : Agree L s0 (State.nbLd s k u err) := by
  unfold State.nbLd
  split
  · refine Agree.ite ?_ ?_
    · refine Agree.ite ?_ ?_
      · refine State.nbDone_agree (sub hL (by decide)) ?_
        refine State.nbLoaded_agree (sub hL (by decide)) ?_
        exact h
      · refine State.nbBad_agree (sub hL (by decide)) ?_
        exact h
    · exact h
  · exact h

theorem State.nbSt_agree {L s0 s k u} (hL : [.freshCount, .regs, .mem, .nb] ⊆ L) (h : Agree L s0 s) : Agree L s0 (State.nbSt s k u) := by
  unfold State.nbSt
  split
  · refine Agree.ite ?_ ?_
    · refine Agree.ite ?_ ?_
      · refine State.nbDone_agree (sub hL (by decide)) ?_
        refine State.nbBuffer_agree (sub hL (by decide)) ?_
        refine State.fresh_agree (sub hL (by decide)) ?_
        refine Agree.ite ?_ ?_
        · refine State.setIssue_agree (sub hL (by decide)) ?_
          refine Agree.ite ?_ ?_
          · refine State.bump_agree (sub hL (by decide)) ?_
            exact h
          · exact h
        · refine Agree.ite ?_ ?_
          · refine State.bump_agree (sub hL (by decide)) ?_
            exact h
          · exact h
      · refine State.nbBad_agree (sub hL (by decide)) ?_
        exact h
    · exact h
  · exact h

theorem State.nbVec_agree {L s0 s k u op f} (hL : [.regs, .mem, .nb] ⊆ L) (h : Agree L s0 s) : Agree L s0 (State.nbVec s k u op f) := by
  unfold State.nbVec
  split
  · refine Agree.ite ?_ ?_
    · split
      · refine State.nbDone_agree (sub hL (by decide)) ?_
        exact h
      · exact h
    · exact h
  · exact h

theorem State.nbAdd_agree {L s0 s k u} (hL : [.regs, .mem, .nb] ⊆ L) (h : Agree L s0 s) : Agree L s0 (State.nbAdd s k u) := by
  unfold State.nbAdd
  refine State.nbVec_agree (sub hL (by decide)) ?_
  exact h

theorem State.nbMul_agree {L s0 s k u} (hL : [.regs, .mem, .nb] ⊆ L) (h : Agree L s0 s) : Agree L s0 (State.nbMul s k u) := by
  unfold State.nbMul
  refine State.nbVec_agree (sub hL (by decide)) ?_
  exact h

theorem State.nbFma_agree {L s0 s k u} (hL : [.regs, .mem, .nb] ⊆ L) (h : Agree L s0 s) : Agree L s0 (State.nbFma s k u) := by
  unfold State.nbFma
  refine State.nbVec_agree (sub hL (by decide)) ?_
  exact h

theorem State.nbActI_agree {L s0 s k u} (hL : [.regs, .mem, .nb] ⊆ L) (h : Agree L s0 s) : Agree L s0 (State.nbActI s k u) := by
  unfold State.nbActI
  refine State.nbVec_agree (sub hL (by decide)) ?_
  exact h

theorem State.nbLacc_agree {L s0 s k u err} (hL : [.regs, .mem, .nb] ⊆ L) (h : Agree L s0 s) : Agree L s0 (State.nbLacc s k u err) := by
  unfold State.nbLacc
  split
  · refine Agree.ite ?_ ?_
    · try dsimp only
      split
      · refine State.stitchPoint_agree (sub hL (by decide)) ?_
        exact h
      · refine Agree.ite ?_ ?_
        · refine State.nbBad_agree (sub hL (by decide)) ?_
          exact h
        · refine Agree.ite ?_ ?_
          · refine Agree.ite ?_ ?_
            · refine State.nbDone_agree (sub hL (by decide)) ?_
              refine State.nbBuffer_agree (sub hL (by decide)) ?_
              refine State.nbLoaded_agree (sub hL (by decide)) ?_
              exact h
            · refine State.nbBad_agree (sub hL (by decide)) ?_
              refine State.nbLoaded_agree (sub hL (by decide)) ?_
              exact h
          · refine State.nbDone_agree (sub hL (by decide)) ?_
            refine State.nbLoaded_agree (sub hL (by decide)) ?_
            exact h
    · exact h
  · exact h

theorem State.nbLoop_agree {L s0 s k u} (hL : [.regs, .mem, .nb] ⊆ L) (h : Agree L s0 s) : Agree L s0 (State.nbLoop s k u) := by
  unfold State.nbLoop
  split
  · refine Agree.ite ?_ ?_
    · refine State.nbDone_agree (sub hL (by decide)) ?_
      exact h
    · exact h
  · exact h

theorem State.nbBr_agree {L s0 s k u} (hL : [.regs, .mem, .nb] ⊆ L) (h : Agree L s0 s) : Agree L s0 (State.nbBr s k u) := by
  unfold State.nbBr
  split
  · refine Agree.ite ?_ ?_
    · refine State.nbDone_agree (sub hL (by decide)) ?_
      exact h
    · exact h
  · exact h

theorem State.nbStep_agree {L s0 s k u} (hL : [.freshCount, .regs, .mem, .nb] ⊆ L) (h : Agree L s0 s) : Agree L s0 (State.nbStep s k u) := by
  unfold State.nbStep
  split
  · exact h
  · split
    · refine State.nbNop_agree (sub hL (by decide)) ?_
      exact h
    · refine State.nbEndI_agree (sub hL (by decide)) ?_
      exact h
    · refine State.nbSet_agree (sub hL (by decide)) ?_
      exact h
    · refine State.nbLdw_agree (sub hL (by decide)) ?_
      exact h
    · refine State.nbLde_agree (sub hL (by decide)) ?_
      exact h
    · refine State.nbLd_agree (sub hL (by decide)) ?_
      exact h
    · refine State.nbSt_agree (sub hL (by decide)) ?_
      exact h
    · refine State.nbAdd_agree (sub hL (by decide)) ?_
      exact h
    · refine State.nbMul_agree (sub hL (by decide)) ?_
      exact h
    · refine State.nbFma_agree (sub hL (by decide)) ?_
      exact h
    · refine State.nbActI_agree (sub hL (by decide)) ?_
      exact h
    · refine State.nbLacc_agree (sub hL (by decide)) ?_
      exact h
    · refine State.nbLoop_agree (sub hL (by decide)) ?_
      exact h
    · refine State.nbBr_agree (sub hL (by decide)) ?_
      exact h
    · exact h

theorem State.laceStep_agree {L s0 s k u} (hL : [.nb] ⊆ L) (h : Agree L s0 s) : Agree L s0 (State.laceStep s k u) := by
  unfold State.laceStep
  split
  · exact h
  · try dsimp only
    split
    · split
      · refine State.setBeats_agree (sub hL (by decide)) ?_
        refine State.setBeats_agree (sub hL (by decide)) ?_
        exact h
      · refine State.setBeats_agree (sub hL (by decide)) ?_
        exact h
    · refine Agree.ite ?_ ?_
      · refine Agree.ite ?_ ?_
        · refine State.setUnit_agree (sub hL (by decide)) ?_
          refine State.setBeats_agree (sub hL (by decide)) ?_
          exact h
        · exact h
      · split
        · refine State.setBeats_agree (sub hL (by decide)) ?_
          refine State.setBeats_agree (sub hL (by decide)) ?_
          exact h
        · refine State.setBeats_agree (sub hL (by decide)) ?_
          exact h

theorem State.laceBeat_agree {L s0 s k u b'} (hL : [.nb] ⊆ L) (h : Agree L s0 s) : Agree L s0 (State.laceBeat s k u b') := by
  unfold State.laceBeat
  refine Agree.ite ?_ ?_
  · refine State.laceStep_agree (sub hL (by decide)) ?_
    exact h
  · exact h

theorem State.refresh_agree {L s0 s k u} (hL : [.regs, .mem, .nb] ⊆ L) (h : Agree L s0 s) : Agree L s0 (State.refresh s k u) := by
  unfold State.refresh
  split
  · exact h
  · refine Agree.ite ?_ ?_
    · exact h
    · refine Agree.ite ?_ ?_
      · refine State.stitchPoint_agree (sub hL (by decide)) ?_
        exact h
      · refine State.setUnit_agree (sub hL (by decide)) ?_
        exact h

theorem State.preempt_agree {L s0 s k u} (hL : [.regs, .nb] ⊆ L) (h : Agree L s0 s) : Agree L s0 (State.preempt s k u) := by
  unfold State.preempt
  split
  · exact h
  · refine Agree.ite ?_ ?_
    · refine State.bump_agree (sub hL (by decide)) ?_
      refine State.setUnit_agree (sub hL (by decide)) ?_
      exact h
    · exact h

theorem State.nbRunUnit_agree {L s0 k u fuel} : ∀ {s}, ([.freshCount, .regs, .mem, .nb] ⊆ L) → Agree L s0 s → Agree L s0 (State.nbRunUnit s k u fuel) := by
  induction fuel with
  | zero => intro s _ h; exact h
  | succ n ih =>
    intro s hL h
    unfold State.nbRunUnit
    split
    · exact h
    · refine Agree.ite (Agree.ite h ?_) ?_
      · exact ih hL (State.laceStep_agree (sub hL (by decide)) h)
      · exact ih hL (State.nbStep_agree (sub hL (by decide)) h)

theorem State.laceDrain_agree {L s0 k u fuel} : ∀ {s}, ([.nb] ⊆ L) → Agree L s0 s → Agree L s0 (State.laceDrain s k u fuel) := by
  induction fuel with
  | zero => intro s _ h; exact h
  | succ n ih => intro s hL h; exact Agree.ite h (ih hL (State.laceStep_agree (sub hL (by decide)) h))

theorem State.nbRunAll_agree {L s0 s k} (hL : [.freshCount, .regs, .mem, .nb] ⊆ L) (h : Agree L s0 s) : Agree L s0 (State.nbRunAll s k) := by
  unfold State.nbRunAll
  refine Agree.fold ?_ ?_
  · intro t1 x1 h1
    show Agree L s0 _
    refine State.laceDrain_agree (sub hL (by decide)) ?_
    refine Agree.ite ?_ ?_
    · refine State.nbRunUnit_agree (sub hL (by decide)) ?_
      exact h1
    · exact h1
  · exact h

theorem State.nbClear_agree {L s0 s k} (hL : [.regs, .linkOut, .mem, .pages, .ras, .flash, .link, .nb] ⊆ L) (h : Agree L s0 s) : Agree L s0 (State.nbClear s k) := by
  unfold State.nbClear
  refine Agree.fold ?_ ?_
  · intro t1 x1 h1
    show Agree L s0 _
    refine State.store_agree (sub hL (by decide)) ?_
    exact h1
  · refine State.setIssue_agree (sub hL (by decide)) ?_
    refine Agree.nb_write (mem_of hL (by decide)) ?_ _
    refine Agree.nb_write (mem_of hL (by decide)) ?_ _
    exact h

theorem State.startPool_agree {L s0 s k n} (hL : [.freshCount, .sched, .nb] ⊆ L) (h : Agree L s0 s) : Agree L s0 (State.startPool s k n) := by
  unfold State.startPool
  split
  · exact h
  · refine State.fresh_agree (sub hL (by decide)) ?_
    refine Agree.fold ?_ ?_
    · intro t1 x1 h1
      show Agree L s0 _
      try dsimp only
      split
      · refine State.putShare_agree (sub hL (by decide)) ?_
        exact h1
      · exact h1
    · refine Agree.nb_write (mem_of hL (by decide)) ?_ _
      refine State.setBeats_agree (sub hL (by decide)) ?_
      refine Agree.fold ?_ ?_
      · intro t2 x2 h2
        show Agree L s0 _
        refine State.setUnit_agree (sub hL (by decide)) ?_
        exact h2
      · refine State.setIssue_agree (sub hL (by decide)) ?_
        exact h

theorem State.endPool_agree {L s0 s k i} (hL : [.regs, .linkOut, .mem, .sched, .pages, .ras, .flash, .link, .nb] ⊆ L) (h : Agree L s0 s) : Agree L s0 (State.endPool s k i) := by
  unfold State.endPool
  refine State.nbClear_agree (sub hL (by decide)) ?_
  refine Agree.fold ?_ ?_
  · intro t1 x1 h1
    show Agree L s0 _
    try dsimp only
    split
    · refine State.putShare_agree (sub hL (by decide)) ?_
      exact h1
    · exact h1
  · exact h

theorem State.startApply_agree {L s0 s k t' n} (hL : [.mem] ⊆ L) (h : Agree L s0 s) : Agree L s0 (State.startApply s k t' n) := by
  unfold State.startApply
  split
  · exact h
  · refine Agree.fold ?_ ?_
    · intro t1 x1 h1
      show Agree L s0 _
      refine Agree.fold ?_ ?_
      · intro t2 x2 h2
        show Agree L s0 _
        refine Agree.mem_write (mem_of hL (by decide)) ?_ _ (fun hc => by first | exact State.canonical_mem hc MemSt.write_wf | exact State.canonical_mem hc MemSt.poisonLine_wf)
        exact h2
      · exact h1
    · exact h

theorem State.takeNb_agree {L s0 s d r t} (he : State.takeNb s d r = some t) (hL : [.regs, .linkOut, .mem, .rings, .sched, .pages, .ras, .flash, .link, .nb] ⊆ L) (h : Agree L s0 s) : Agree L s0 t := by
  unfold State.takeNb at he
  try dsimp only at he
  split at he
  · cases he
  · split at he
    · cases he
    · obtain rfl := Option.some.inj he
      refine Agree.fold ?_ ?_
      · intro t1 x1 h1
        show Agree L s0 _
        try dsimp only
        split
        · refine State.postRecord_agree (sub hL (by decide)) ?_
          refine State.countEnd_agree (sub hL (by decide)) ?_
          refine Agree.ite ?_ ?_
          · refine State.countShareRefused_agree (sub hL (by decide)) ?_
            refine State.takeHead_agree (sub hL (by decide)) ?_
            exact h1
          · refine State.takeHead_agree (sub hL (by decide)) ?_
            exact h1
        · refine State.addJob_agree (sub hL (by decide)) ?_
          refine State.takeHead_agree (sub hL (by decide)) ?_
          exact h1
      · exact h

theorem State.postNb_agree {L s0 l} : ∀ {s}, ([.regs, .linkOut, .mem, .rings, .sched, .pages, .ras, .flash, .link, .nb] ⊆ L) → Agree L s0 s → Agree L s0 (State.postNb s l) := by
  induction l with
  | nil => intro s _ h; exact h
  | cons x t ih =>
    intro s hL h
    obtain ⟨j, n⟩ := x
    unfold State.postNb
    split
    · exact ih hL (State.dropJob_agree (sub hL (by decide)) (State.postRecord_agree (sub hL (by decide)) (State.countEnd_agree (sub hL (by decide)) h)))
    · exact h

theorem State.undefine_agree {L s0 s a n dom} (hL : [.freshCount, .mem] ⊆ L) (h : Agree L s0 s) : Agree L s0 (State.undefine s a n dom) := by
  unfold State.undefine
  refine State.fresh_agree (sub hL (by decide)) ?_
  refine Agree.mem_write (mem_of hL (by decide)) ?_ _ (fun hc => by first | exact State.canonical_mem hc MemSt.write_wf | exact State.canonical_mem hc MemSt.poisonLine_wf)
  exact h

theorem State.endNb_agree {L s0 s j n st} (hL : [.freshCount, .regs, .linkOut, .mem, .rings, .sched, .pages, .ras, .flash, .link, .nb] ⊆ L) (h : Agree L s0 s) : Agree L s0 (State.endNb s j n st) := by
  unfold State.endNb
  refine State.postNb_agree (sub hL (by decide)) ?_
  refine Agree.fold ?_ ?_
  · intro t1 x1 h1
    show Agree L s0 _
    refine Agree.ite ?_ ?_
    · refine State.putJob_agree (sub hL (by decide)) ?_
      exact h1
    · exact h1
  · refine Agree.ite ?_ ?_
    · refine Agree.fold ?_ ?_
      · intro t2 x2 h2
        show Agree L s0 _
        refine Agree.ite ?_ ?_
        · exact h2
        · refine State.undefine_agree (sub hL (by decide)) ?_
          exact h2
      · exact h
    · exact h

theorem State.startNb_agree {L s0 s j n lo m} (hL : [.freshCount, .nb] ⊆ L) (h : Agree L s0 s) : Agree L s0 (State.startNb s j n lo m) := by
  unfold State.startNb
  refine State.fresh_agree (sub hL (by decide)) ?_
  refine Agree.nb_write (mem_of hL (by decide)) ?_ _
  refine Agree.fold ?_ ?_
  · intro t1 x1 h1
    show Agree L s0 _
    try dsimp only
    split
    · exact h1
    · refine State.setUnit_agree (sub hL (by decide)) ?_
      exact h1
  · refine State.setIssue_agree (sub hL (by decide)) ?_
    exact h

theorem State.endNbSlice_agree {L s0 s k i lo m} (hL : [.freshCount, .regs, .linkOut, .mem, .rings, .sched, .pages, .ras, .flash, .link, .nb] ⊆ L) (h : Agree L s0 s) : Agree L s0 (State.endNbSlice s k i lo m) := by
  unfold State.endNbSlice
  try dsimp only
  split
  · refine State.nbClear_agree (sub hL (by decide)) ?_
    exact h
  · refine Agree.ite ?_ ?_
    · refine State.doomJob_agree (sub hL (by decide)) ?_
      refine State.putJob_agree (sub hL (by decide)) ?_
      refine State.nbClear_agree (sub hL (by decide)) ?_
      exact h
    · refine Agree.ite ?_ ?_
      · refine State.endNb_agree (sub hL (by decide)) ?_
        refine State.putJob_agree (sub hL (by decide)) ?_
        refine State.nbClear_agree (sub hL (by decide)) ?_
        exact h
      · refine State.putJob_agree (sub hL (by decide)) ?_
        refine State.nbClear_agree (sub hL (by decide)) ?_
        exact h

theorem State.nbStart_agree {L s0 s x} (hL : [.freshCount, .mem, .sched, .nb] ⊆ L) (h : Agree L s0 s) : Agree L s0 (State.nbStart s x) := by
  unfold State.nbStart
  split
  · refine State.startPool_agree (sub hL (by decide)) ?_
    exact h
  · refine State.startApply_agree (sub hL (by decide)) ?_
    exact h
  · split
    · refine State.startNb_agree (sub hL (by decide)) ?_
      exact h
    · exact h
  · exact h

end Sys2Proof.Machine
end

