-- ==== Sys2Proof/Laws/KeepCoherence.lean ====
section
/-! SUPPORT. What the operations of Machine/Coherence.lean may touch. -/

namespace Sys2Proof.Machine

open Sys2Proof

theorem State.setLink_agree {L s0 s l} (hL : [.link] ⊆ L) (h : Agree L s0 s) : Agree L s0 (State.setLink s l) := by
  unfold State.setLink
  refine Agree.link_write (mem_of hL (by decide)) ?_ _
  exact h

theorem State.wakeAgents_agree {L s0 s} (hL : [.regs] ⊆ L) (h : Agree L s0 s) : Agree L s0 (State.wakeAgents s) := by
  unfold State.wakeAgents
  refine Agree.fold ?_ ?_
  · intro t1 x1 h1
    show Agree L s0 _
    refine Agree.ite ?_ ?_
    · refine State.setFld_agree (sub hL (by decide)) ?_
      exact h1
    · exact h1
  · exact h

theorem State.homeWrite_agree {L s0 s l data dom} (hL : [.regs, .mem, .pages, .ras, .flash, .nb] ⊆ L) (h : Agree L s0 s) : Agree L s0 (State.homeWrite s l data dom) := by
  unfold State.homeWrite
  refine Agree.ite ?_ ?_
  · refine State.log_agree (sub hL (by decide)) ?_
    exact h
  · refine Agree.ite ?_ ?_
    · refine Agree.nb_write (mem_of hL (by decide)) ?_ _
      refine Agree.fold ?_ ?_
      · intro t1 x1 h1
        show Agree L s0 _
        refine State.touchWrite_agree (sub hL (by decide)) ?_
        exact h1
      · exact h
    · refine Agree.mem_write (mem_of hL (by decide)) ?_ _ (fun hc => by first | exact State.canonical_mem hc MemSt.write_wf | exact State.canonical_mem hc MemSt.poisonLine_wf)
      refine Agree.fold ?_ ?_
      · intro t2 x2 h2
        show Agree L s0 _
        refine State.touchWrite_agree (sub hL (by decide)) ?_
        exact h2
      · exact h

theorem State.dirtyBack_agree {L s0 s l e data poison} (hL : [.regs, .mem, .pages, .ras, .flash, .nb] ⊆ L) (h : Agree L s0 s) : Agree L s0 (State.dirtyBack s l e data poison) := by
  unfold State.dirtyBack
  refine Agree.ite ?_ ?_
  · refine Agree.ite ?_ ?_
    · refine Agree.mem_write (mem_of hL (by decide)) ?_ _ (fun hc => by first | exact State.canonical_mem hc MemSt.write_wf | exact State.canonical_mem hc MemSt.poisonLine_wf)
      refine Agree.fold ?_ ?_
      · intro t1 x1 h1
        show Agree L s0 _
        refine State.touchWrite_agree (sub hL (by decide)) ?_
        exact h1
      · exact h
    · exact h
  · refine State.homeWrite_agree (sub hL (by decide)) ?_
    exact h

theorem State.invalidate_agree {L s0 s l op} (hL : [.linkOut, .link] ⊆ L) (h : Agree L s0 s) : Agree L s0 (State.invalidate s l op) := by
  unfold State.invalidate
  refine Agree.ite ?_ ?_
  · refine State.setDir_agree (sub hL (by decide)) ?_
    exact h
  · refine State.sendSnoops_agree (sub hL (by decide)) ?_
    exact h

theorem State.dirRoom_agree {L s0 s l} (hL : [.freshCount, .regs, .linkOut, .link] ⊆ L) (h : Agree L s0 s) : Agree L s0 (State.dirRoom s l).1 := by
  unfold State.dirRoom
  refine Agree.iteFst ?_ ?_
  · exact h
  · split
    · refine State.invalidate_agree (sub hL (by decide)) ?_
      refine State.bump_agree (sub hL (by decide)) ?_
      refine State.fresh_agree (sub hL (by decide)) ?_
      exact h
    · exact h

theorem State.lineReady_agree {L s0 s l} (hL : [.regs, .pages, .flash] ⊆ L) (h : Agree L s0 s) : Agree L s0 (State.lineReady s l).1 := by
  unfold State.lineReady
  refine Agree.iteFst ?_ ?_
  · exact h
  · refine Agree.iteFst ?_ ?_
    · exact h
    · try dsimp only
      split
      · exact h
      · exact h
      · exact h
      · exact h
      · refine Agree.iteFst ?_ ?_
        · refine State.setFlash_agree (sub hL (by decide)) ⟨rfl, rfl⟩ ?_
          exact h
        · refine Agree.iteFst ?_ ?_
          · refine State.setFlash_agree (sub hL (by decide)) ⟨rfl, rfl⟩ ?_
            exact h
          · refine State.fetchPage_agree (sub hL (by decide)) ?_
            exact h

theorem State.sendLine_agree {L s0 s r} (hL : [.linkOut] ⊆ L) (h : Agree L s0 s) : Agree L s0 (State.sendLine s r) := by
  unfold State.sendLine
  refine Agree.ite ?_ ?_
  · exact h
  · refine State.toLink_agree (sub hL (by decide)) ?_
    exact h

theorem State.sendCmp_agree {L s0 s r} (hL : [.linkOut] ⊆ L) (h : Agree L s0 s) : Agree L s0 (State.sendCmp s r) := by
  unfold State.sendCmp
  refine Agree.ite ?_ ?_
  · exact h
  · refine State.toLink_agree (sub hL (by decide)) ?_
    exact h

theorem State.finishWrite_agree {L s0 s r} (hL : [.regs, .linkOut, .mem, .pages, .ras, .flash, .nb] ⊆ L) (h : Agree L s0 s) : Agree L s0 (State.finishWrite s r) := by
  unfold State.finishWrite
  refine State.sendCmp_agree (sub hL (by decide)) ?_
  refine Agree.ite ?_ ?_
  · refine Agree.ite ?_ ?_
    · refine State.bump_agree (sub hL (by decide)) ?_
      exact h
    · refine State.homeWrite_agree (sub hL (by decide)) ?_
      exact h
  · refine State.homeWrite_agree (sub hL (by decide)) ?_
    exact h

theorem State.finishTxn_agree {L s0 s l} (hL : [.regs, .linkOut, .mem, .pages, .ras, .flash, .link, .nb] ⊆ L) (h : Agree L s0 s) : Agree L s0 (State.finishTxn s l) := by
  unfold State.finishTxn
  try dsimp only
  split
  · exact h
  · try dsimp only
    split
    · refine Agree.ite ?_ ?_
      · refine State.setDir_agree (sub hL (by decide)) ?_
        refine Agree.ite ?_ ?_
        · exact h
        · refine State.sendLine_agree (sub hL (by decide)) ?_
          exact h
      · refine Agree.ite ?_ ?_
        · refine State.setDir_agree (sub hL (by decide)) ?_
          refine Agree.ite ?_ ?_
          · exact h
          · refine State.sendLine_agree (sub hL (by decide)) ?_
            exact h
        · refine State.setDir_agree (sub hL (by decide)) ?_
          refine Agree.ite ?_ ?_
          · exact h
          · refine State.sendLine_agree (sub hL (by decide)) ?_
            exact h
    · refine Agree.ite ?_ ?_
      · refine Agree.ite ?_ ?_
        · refine State.reclaim_agree (sub hL (by decide)) ?_
          refine State.setDir_agree (sub hL (by decide)) ?_
          refine Agree.ite ?_ ?_
          · exact h
          · refine State.sendLine_agree (sub hL (by decide)) ?_
            exact h
        · refine State.setDir_agree (sub hL (by decide)) ?_
          refine Agree.ite ?_ ?_
          · exact h
          · refine State.sendLine_agree (sub hL (by decide)) ?_
            exact h
      · refine State.setDir_agree (sub hL (by decide)) ?_
        refine Agree.ite ?_ ?_
        · exact h
        · refine State.sendLine_agree (sub hL (by decide)) ?_
          exact h
    · refine State.setDir_agree (sub hL (by decide)) ?_
      refine Agree.ite ?_ ?_
      · exact h
      · refine State.sendLine_agree (sub hL (by decide)) ?_
        exact h
    · refine State.finishWrite_agree (sub hL (by decide)) ?_
      refine State.setDir_agree (sub hL (by decide)) ?_
      exact h
    · refine State.finishWrite_agree (sub hL (by decide)) ?_
      refine State.setDir_agree (sub hL (by decide)) ?_
      exact h
    · refine Agree.ite ?_ ?_
      · refine State.sendSnoops_agree (sub hL (by decide)) ?_
        refine State.finishWrite_agree (sub hL (by decide)) ?_
        refine State.setDir_agree (sub hL (by decide)) ?_
        exact h
      · refine State.bump_agree (sub hL (by decide)) ?_
        refine State.finishWrite_agree (sub hL (by decide)) ?_
        refine State.setDir_agree (sub hL (by decide)) ?_
        exact h
    · refine State.setDir_agree (sub hL (by decide)) ?_
      exact h
    · refine State.setDir_agree (sub hL (by decide)) ?_
      exact h
    · refine State.setDir_agree (sub hL (by decide)) ?_
      exact h

theorem State.beginTxn_agree {L s0 s e r xs} (hL : [.regs, .linkOut, .mem, .pages, .ras, .flash, .link, .nb] ⊆ L) (h : Agree L s0 s) : Agree L s0 (State.beginTxn s e r xs) := by
  unfold State.beginTxn
  refine Agree.ite ?_ ?_
  · refine State.finishTxn_agree (sub hL (by decide)) ?_
    refine State.sendSnoops_agree (sub hL (by decide)) ?_
    exact h
  · refine State.sendSnoops_agree (sub hL (by decide)) ?_
    exact h

theorem State.serve_agree {L s0 s r} (hL : [.regs, .linkOut, .mem, .pages, .ras, .flash, .link, .nb] ⊆ L) (h : Agree L s0 s) : Agree L s0 (State.serve s r) := by
  unfold State.serve
  try dsimp only
  split
  · refine Agree.ite ?_ ?_
    · refine State.beginTxn_agree (sub hL (by decide)) ?_
      exact h
    · split
      · refine State.beginTxn_agree (sub hL (by decide)) ?_
        exact h
      · split
        · refine State.beginTxn_agree (sub hL (by decide)) ?_
          exact h
        · refine State.beginTxn_agree (sub hL (by decide)) ?_
          exact h
      · refine Agree.ite ?_ ?_
        · refine State.beginTxn_agree (sub hL (by decide)) ?_
          exact h
        · refine State.beginTxn_agree (sub hL (by decide)) ?_
          exact h
  · refine Agree.ite ?_ ?_
    · refine State.beginTxn_agree (sub hL (by decide)) ?_
      exact h
    · split
      · refine State.beginTxn_agree (sub hL (by decide)) ?_
        exact h
      · split
        · refine State.beginTxn_agree (sub hL (by decide)) ?_
          exact h
        · refine State.beginTxn_agree (sub hL (by decide)) ?_
          exact h
      · refine Agree.ite ?_ ?_
        · refine State.beginTxn_agree (sub hL (by decide)) ?_
          exact h
        · refine State.beginTxn_agree (sub hL (by decide)) ?_
          exact h
  · refine Agree.ite ?_ ?_
    · refine State.beginTxn_agree (sub hL (by decide)) ?_
      exact h
    · split
      · refine State.beginTxn_agree (sub hL (by decide)) ?_
        exact h
      · split
        · refine State.beginTxn_agree (sub hL (by decide)) ?_
          exact h
        · refine State.beginTxn_agree (sub hL (by decide)) ?_
          exact h
      · refine Agree.ite ?_ ?_
        · refine State.beginTxn_agree (sub hL (by decide)) ?_
          exact h
        · refine State.beginTxn_agree (sub hL (by decide)) ?_
          exact h
  · try dsimp only
    split
    · refine State.beginTxn_agree (sub hL (by decide)) ?_
      exact h
    · try dsimp only
      split
      · refine State.beginTxn_agree (sub hL (by decide)) ?_
        exact h
      · refine State.beginTxn_agree (sub hL (by decide)) ?_
        exact h
    · refine Agree.ite ?_ ?_
      · refine State.beginTxn_agree (sub hL (by decide)) ?_
        exact h
      · refine State.beginTxn_agree (sub hL (by decide)) ?_
        exact h
  · refine State.beginTxn_agree (sub hL (by decide)) ?_
    exact h
  · refine State.beginTxn_agree (sub hL (by decide)) ?_
    exact h
  · refine State.beginTxn_agree (sub hL (by decide)) ?_
    exact h
  · refine State.sendCmp_agree (sub hL (by decide)) ?_
    refine Agree.ite ?_ ?_
    · refine State.dirtyBack_agree (sub hL (by decide)) ?_
      refine State.setDir_agree (sub hL (by decide)) ?_
      exact h
    · exact h
  · refine State.sendCmp_agree (sub hL (by decide)) ?_
    refine Agree.ite ?_ ?_
    · refine State.setDir_agree (sub hL (by decide)) ?_
      exact h
    · refine Agree.ite ?_ ?_
      · refine State.setDir_agree (sub hL (by decide)) ?_
        exact h
      · exact h

theorem State.canServe_agree {L s0 s r} (hL : [.freshCount, .regs, .linkOut, .pages, .flash, .link] ⊆ L) (h : Agree L s0 s) : Agree L s0 (State.canServe s r).1 := by
  unfold State.canServe
  refine Agree.iteFst ?_ ?_
  · refine Agree.iteFst ?_ ?_
    · refine State.lineReady_agree (sub hL (by decide)) ?_
      exact h
    · exact h
  · refine Agree.iteFst ?_ ?_
    · refine State.dirRoom_agree (sub hL (by decide)) ?_
      refine Agree.iteFst ?_ ?_
      · refine State.lineReady_agree (sub hL (by decide)) ?_
        exact h
      · exact h
    · refine Agree.iteFst ?_ ?_
      · refine State.lineReady_agree (sub hL (by decide)) ?_
        exact h
      · exact h

theorem State.drivePass_agree {L s0 l} : ∀ {s seen}, ([.freshCount, .regs, .linkOut, .mem, .pages, .ras, .flash, .link, .nb] ⊆ L) → Agree L s0 s → Agree L s0 (State.drivePass s l seen) := by
  induction l with
  | nil => intro s _ _ h; unfold State.drivePass; exact h
  | cons x t ih =>
    intro s seen hL h
    unfold State.drivePass
    refine Agree.ite (ih hL h) ?_
    have hx := State.canServe_agree (r := x) (sub hL (by decide)) (State.reclaim_agree (l := x.line) (sub hL (by decide)) h)
    refine Agree.ite (ih hL (State.serve_agree (sub hL (by decide)) ?_)) (ih hL ?_)
    · exact Agree.link_write (mem_of hL (by decide)) hx _
    · exact hx

theorem State.drive_go_agree {L s0 fuel} : ∀ {s}, ([.freshCount, .regs, .linkOut, .mem, .pages, .ras, .flash, .link, .nb] ⊆ L) → Agree L s0 s → Agree L s0 (State.drive.go fuel s) := by
  induction fuel with
  | zero => intro s _ h; exact h
  | succ n ih =>
    intro s hL h
    exact Agree.ite (ih hL (State.drivePass_agree (sub hL (by decide)) h)) (State.drivePass_agree (sub hL (by decide)) h)

theorem State.drive_agree {L s0 s} (hL : [.freshCount, .regs, .linkOut, .mem, .pages, .ras, .flash, .link, .nb] ⊆ L) (h : Agree L s0 s) : Agree L s0 (State.drive s) :=
  State.drive_go_agree (sub hL (by decide)) h

theorem State.dirRecover_agree {L s0 s l} (hL : [.regs, .linkOut, .link] ⊆ L) (h : Agree L s0 s) : Agree L s0 (State.dirRecover s l) := by
  unfold State.dirRecover
  refine Agree.ite ?_ ?_
  · exact h
  · refine Agree.ite ?_ ?_
    · refine State.setDir_agree (sub hL (by decide)) ?_
      refine State.bump_agree (sub hL (by decide)) ?_
      exact h
    · refine State.sendSnoops_agree (sub hL (by decide)) ?_
      refine State.bump_agree (sub hL (by decide)) ?_
      exact h

theorem State.request_agree {L s0 s r dirErr} (hL : [.freshCount, .regs, .linkOut, .mem, .pages, .ras, .flash, .link, .nb] ⊆ L) (h : Agree L s0 s) : Agree L s0 (State.request s r dirErr) := by
  unfold State.request
  refine Agree.ite ?_ ?_
  · refine State.log_agree (sub hL (by decide)) ?_
    refine State.bump_agree (sub hL (by decide)) ?_
    exact h
  · refine Agree.ite ?_ ?_
    · exact h
    · refine Agree.ite ?_ ?_
      · refine State.bump_agree (sub hL (by decide)) ?_
        exact h
      · refine Agree.ite ?_ ?_
        · refine State.toLink_agree (sub hL (by decide)) ?_
          refine State.log_agree (sub hL (by decide)) ?_
          refine State.bump_agree (sub hL (by decide)) ?_
          exact h
        · refine Agree.ite ?_ ?_
          · refine State.toLink_agree (sub hL (by decide)) ?_
            refine State.log_agree (sub hL (by decide)) ?_
            refine State.bump_agree (sub hL (by decide)) ?_
            exact h
          · refine State.drive_agree (sub hL (by decide)) ?_
            refine Agree.link_write (mem_of hL (by decide)) ?_ _
            refine Agree.ite ?_ ?_
            · refine State.dirRecover_agree (sub hL (by decide)) ?_
              refine State.sampleAccess_agree (sub hL (by decide)) ?_
              exact h
            · refine State.sampleAccess_agree (sub hL (by decide)) ?_
              exact h

theorem State.answered_agree {L s0 s agent line attempt f} (hL : [.freshCount, .regs, .linkOut, .mem, .pages, .ras, .flash, .link, .nb] ⊆ L) (hf : ∀ e x t, f e x = some t → Agree L s0 t)
    (h : Agree L s0 s) : Agree L s0 (State.answered s agent line attempt f) := by
  unfold State.answered
  refine Agree.ite (State.bump_agree (sub hL (by decide)) h) ?_
  try dsimp only
  split
  · exact State.bump_agree (sub hL (by decide)) h
  · refine Agree.ite ?_ (Agree.ite h (State.bump_agree (sub hL (by decide)) h))
    split
    · rename_i t ht
      have := hf _ _ _ ht
      refine Agree.ite ?_ this
      exact State.drive_agree (sub hL (by decide)) (State.finishTxn_agree (sub hL (by decide)) this)
    · exact State.bump_agree (sub hL (by decide)) h

theorem State.rspI_agree {L s0 s agent line attempt} (hL : [.freshCount, .regs, .linkOut, .mem, .pages, .ras, .flash, .link, .nb] ⊆ L) (h : Agree L s0 s) : Agree L s0 (State.rspI s agent line attempt) := by
  unfold State.rspI
  refine State.answered_agree (sub hL (by decide)) ?_ ?_
  · intro t1_0 t1_1 t he
    try dsimp only at he
    split at he
    · obtain rfl := Option.some.inj he
      refine State.setDir_agree (sub hL (by decide)) ?_
      exact h
    · obtain rfl := Option.some.inj he
      refine State.setDir_agree (sub hL (by decide)) ?_
      exact h
  · exact h

theorem State.rspS_agree {L s0 s agent line attempt} (hL : [.freshCount, .regs, .linkOut, .mem, .pages, .ras, .flash, .link, .nb] ⊆ L) (h : Agree L s0 s) : Agree L s0 (State.rspS s agent line attempt) := by
  unfold State.rspS
  refine State.answered_agree (sub hL (by decide)) ?_ ?_
  · intro t1_0 t1_1 t he
    try dsimp only at he
    split at he
    · obtain rfl := Option.some.inj he
      refine State.setDir_agree (sub hL (by decide)) ?_
      exact h
    · split at he
      · obtain rfl := Option.some.inj he
        refine State.setDir_agree (sub hL (by decide)) ?_
        exact h
      · cases he
  · exact h

theorem State.rspFwd_agree {L s0 s agent line attempt data poison} (hL : [.freshCount, .regs, .linkOut, .mem, .pages, .ras, .flash, .link, .nb] ⊆ L) (h : Agree L s0 s) : Agree L s0 (State.rspFwd s agent line attempt data poison) := by
  unfold State.rspFwd
  refine State.answered_agree (sub hL (by decide)) ?_ ?_
  · intro t1_0 t1_1 t he
    try dsimp only at he
    split at he
    · obtain rfl := Option.some.inj he
      refine State.setDir_agree (sub hL (by decide)) ?_
      refine Agree.ite ?_ ?_
      · refine State.dirtyBack_agree (sub hL (by decide)) ?_
        exact h
      · exact h
    · split at he
      · obtain rfl := Option.some.inj he
        refine State.setDir_agree (sub hL (by decide)) ?_
        exact h
      · cases he
  · exact h

theorem State.rspDirty_agree {L s0 s agent line attempt data poison} (hL : [.freshCount, .regs, .linkOut, .mem, .pages, .ras, .flash, .link, .nb] ⊆ L) (h : Agree L s0 s) : Agree L s0 (State.rspDirty s agent line attempt data poison) := by
  unfold State.rspDirty
  refine State.answered_agree (sub hL (by decide)) ?_ ?_
  · intro t1_0 t1_1 t he
    try dsimp only at he
    split at he
    · cases he
    · obtain rfl := Option.some.inj he
      refine State.setDir_agree (sub hL (by decide)) ?_
      refine Agree.ite ?_ ?_
      · exact h
      · refine State.dirtyBack_agree (sub hL (by decide)) ?_
        exact h
  · exact h

theorem State.rspDecline_agree {L s0 s agent line attempt} (hL : [.freshCount, .regs, .linkOut, .mem, .pages, .ras, .flash, .link, .nb] ⊆ L) (h : Agree L s0 s) : Agree L s0 (State.rspDecline s agent line attempt) := by
  unfold State.rspDecline
  refine State.answered_agree (sub hL (by decide)) ?_ ?_
  · intro t1_0 t1_1 t he
    try dsimp only at he
    split at he
    · obtain rfl := Option.some.inj he
      refine State.setDir_agree (sub hL (by decide)) ?_
      refine State.bump_agree (sub hL (by decide)) ?_
      exact h
    · cases he
  · exact h

theorem State.answerDead_agree {L s0 s a l} (hL : [.regs, .linkOut, .mem, .pages, .ras, .flash, .link, .nb] ⊆ L) (h : Agree L s0 s) : Agree L s0 (State.answerDead s a l) := by
  unfold State.answerDead
  refine Agree.ite ?_ ?_
  · refine Agree.ite ?_ ?_
    · refine State.finishTxn_agree (sub hL (by decide)) ?_
      refine State.setDir_agree (sub hL (by decide)) ?_
      exact h
    · refine State.setDir_agree (sub hL (by decide)) ?_
      exact h
  · exact h

theorem State.kill_agree {L s0 s a} (hL : [.freshCount, .regs, .linkOut, .mem, .pages, .ras, .flash, .link, .nb] ⊆ L) (h : Agree L s0 s) : Agree L s0 (State.kill s a) := by
  unfold State.kill
  refine Agree.ite ?_ ?_
  · exact h
  · refine State.drive_agree (sub hL (by decide)) ?_
    refine Agree.fold ?_ ?_
    · intro t1 x1 h1
      show Agree L s0 _
      refine State.answerDead_agree (sub hL (by decide)) ?_
      refine State.reclaim_agree (sub hL (by decide)) ?_
      exact h1
    · refine State.setLink_agree (sub hL (by decide)) ?_
      refine State.setFld_agree (sub hL (by decide)) ?_
      refine State.setFld_agree (sub hL (by decide)) ?_
      exact h

theorem State.walkEnd_agree {L s0 s} (hL : [.regs, .mem, .ras, .link] ⊆ L) (h : Agree L s0 s) : Agree L s0 (State.walkEnd s) := by
  unfold State.walkEnd
  refine Agree.ite ?_ ?_
  · exact h
  · refine State.setFld_agree (sub hL (by decide)) ?_
    refine State.setLink_agree (sub hL (by decide)) ?_
    refine Agree.fold ?_ ?_
    · intro t1 x1 h1
      show Agree L s0 _
      refine State.log_agree (sub hL (by decide)) ?_
      refine State.setFld_agree (sub hL (by decide)) ?_
      exact h1
    · refine Agree.fold ?_ ?_
      · intro t2 x2 h2
        show Agree L s0 _
        refine State.reclaim_agree (sub hL (by decide)) ?_
        exact h2
      · exact h

theorem State.revive_agree {L s0 s a} (hL : [.regs] ⊆ L) (h : Agree L s0 s) : Agree L s0 (State.revive s a) := by
  unfold State.revive
  refine Agree.ite ?_ ?_
  · refine State.setFld_agree (sub hL (by decide)) ?_
    exact h
  · refine State.bump_agree (sub hL (by decide)) ?_
    exact h

theorem State.snoopLate_agree {L s0 s a l} (hL : [.freshCount, .regs, .linkOut, .mem, .pages, .ras, .flash, .link, .nb] ⊆ L) (h : Agree L s0 s) : Agree L s0 (State.snoopLate s a l) := by
  unfold State.snoopLate
  try dsimp only
  split
  · exact h
  · refine Agree.ite ?_ ?_
    · exact h
    · refine Agree.ite ?_ ?_
      · refine State.kill_agree (sub hL (by decide)) ?_
        refine State.bump_agree (sub hL (by decide)) ?_
        exact h
      · refine State.toLink_agree (sub hL (by decide)) ?_
        refine State.setDir_agree (sub hL (by decide)) ?_
        refine State.bump_agree (sub hL (by decide)) ?_
        exact h

theorem State.killBehind_agree {L s0 s} (hL : [.freshCount, .regs, .linkOut, .mem, .pages, .ras, .flash, .link, .nb] ⊆ L) (h : Agree L s0 s) : Agree L s0 (State.killBehind s) := by
  unfold State.killBehind
  refine Agree.fold ?_ ?_
  · intro t1 x1 h1
    show Agree L s0 _
    refine State.kill_agree (sub hL (by decide)) ?_
    exact h1
  · exact h

theorem State.linkTraining_agree {L s0 s} (hL : [.regs] ⊆ L) (h : Agree L s0 s) : Agree L s0 (State.linkTraining s) := by
  unfold State.linkTraining
  refine Agree.ite ?_ ?_
  · refine State.setFld_agree (sub hL (by decide)) ?_
    exact h
  · exact h

theorem State.reissueSnoops_agree {L s0 s} (hL : [.linkOut] ⊆ L) (h : Agree L s0 s) : Agree L s0 (State.reissueSnoops s) := by
  unfold State.reissueSnoops
  refine Agree.fold ?_ ?_
  · intro t1 x1 h1
    show Agree L s0 _
    refine Agree.fold ?_ ?_
    · intro t2 x2 h2
      show Agree L s0 _
      refine State.toLink_agree (sub hL (by decide)) ?_
      exact h2
    · exact h1
  · exact h

theorem State.linkTrained_agree {L s0 s wide} (hL : [.regs, .linkOut, .link] ⊆ L) (h : Agree L s0 s) : Agree L s0 (State.linkTrained s wide) := by
  unfold State.linkTrained
  refine Agree.ite ?_ ?_
  · refine State.reissueSnoops_agree (sub hL (by decide)) ?_
    refine State.wakeAgents_agree (sub hL (by decide)) ?_
    refine State.setFld_agree (sub hL (by decide)) ?_
    refine State.setLink_agree (sub hL (by decide)) ?_
    exact h
  · exact h

theorem State.retrainTimeout_agree {L s0 s} (hL : [.freshCount, .regs, .linkOut, .mem, .pages, .ras, .flash, .link, .nb] ⊆ L) (h : Agree L s0 s) : Agree L s0 (State.retrainTimeout s) := by
  unfold State.retrainTimeout
  refine Agree.ite ?_ ?_
  · refine State.killBehind_agree (sub hL (by decide)) ?_
    refine State.setFld_agree (sub hL (by decide)) ?_
    exact h
  · exact h

theorem State.partnerLoss_agree {L s0 s} (hL : [.freshCount, .regs, .linkOut, .mem, .pages, .ras, .flash, .link, .nb] ⊆ L) (h : Agree L s0 s) : Agree L s0 (State.partnerLoss s) := by
  unfold State.partnerLoss
  refine Agree.ite ?_ ?_
  · refine State.killBehind_agree (sub hL (by decide)) ?_
    refine State.setFld_agree (sub hL (by decide)) ?_
    exact h
  · exact h

theorem State.flitReplay_agree {L s0 s} (hL : [.regs] ⊆ L) (h : Agree L s0 s) : Agree L s0 (State.flitReplay s) := by
  unfold State.flitReplay
  refine Agree.ite ?_ ?_
  · refine State.bump_agree (sub hL (by decide)) ?_
    refine State.bump_agree (sub hL (by decide)) ?_
    exact h
  · exact h

theorem State.laneFault_agree {L s0 s lane} (hL : [.freshCount, .regs, .linkOut, .mem, .pages, .ras, .flash, .link, .nb] ⊆ L) (h : Agree L s0 s) : Agree L s0 (State.laneFault s lane) := by
  unfold State.laneFault
  refine Agree.ite ?_ ?_
  · exact h
  · refine Agree.ite ?_ ?_
    · refine State.killBehind_agree (sub hL (by decide)) ?_
      refine State.setFld_agree (sub hL (by decide)) ?_
      refine Agree.ras_write (mem_of hL (by decide)) ?_ _
      refine State.log_agree (sub hL (by decide)) ?_
      refine State.log_agree (sub hL (by decide)) ?_
      refine State.bump_agree (sub hL (by decide)) ?_
      exact h
    · refine State.setFld_agree (sub hL (by decide)) ?_
      refine State.setLink_agree (sub hL (by decide)) ?_
      refine State.setFld_agree (sub hL (by decide)) ?_
      refine State.setFld_agree (sub hL (by decide)) ?_
      refine Agree.ras_write (mem_of hL (by decide)) ?_ _
      refine State.log_agree (sub hL (by decide)) ?_
      refine State.log_agree (sub hL (by decide)) ?_
      refine State.bump_agree (sub hL (by decide)) ?_
      exact h

theorem State.nodeReads_agree {L s0 s ls} (hL : [.regs, .linkOut, .mem, .pages, .ras, .flash, .link, .nb] ⊆ L) (h : Agree L s0 s) : Agree L s0 (State.nodeReads s ls).1 := by
  unfold State.nodeReads
  refine Agree.foldFst (p := (s, true)) (fun t x ht => ?_) h
  have hr := State.reclaim_agree (l := x) (sub hL (by decide)) ht
  dsimp only
  split
  · exact hr
  · split
    · dsimp only; exact State.serve_agree (sub hL (by decide)) hr
    · exact hr

theorem State.nodeCopy_agree {L s0 s l} (hL : [.freshCount, .regs, .linkOut, .link] ⊆ L) (h : Agree L s0 s) : Agree L s0 (State.nodeCopy s l) := by
  unfold State.nodeCopy
  refine Agree.ite ?_ ?_
  · exact h
  · try dsimp only
    split
    · refine Agree.ite ?_ ?_
      · refine State.setDir_agree (sub hL (by decide)) ?_
        refine State.dirRoom_agree (sub hL (by decide)) ?_
        exact h
      · refine State.dirRoom_agree (sub hL (by decide)) ?_
        exact h
    · refine State.setDir_agree (sub hL (by decide)) ?_
      exact h
    · exact h

end Sys2Proof.Machine
end

