-- ==== Sys2Proof/Laws/KeepRings.lean ====
section
/-! SUPPORT. What the operations of Machine/Rings.lean may touch. -/

namespace Sys2Proof.Machine

open Sys2Proof

theorem State.takeJournalRead_agree {L s0 s d r} (hL : [.regs, .linkOut, .mem, .rings, .pages, .ras, .flash, .link, .nb] ⊆ L) (h : Agree L s0 s) : Agree L s0 (State.takeJournalRead s d r) := by
  unfold State.takeJournalRead
  try dsimp only
  split
  · refine State.postRecord_agree (sub hL (by decide)) ?_
    refine State.countEnd_agree (sub hL (by decide)) ?_
    refine State.takeHead_agree (sub hL (by decide)) ?_
    exact h
  · refine State.postRecord_agree (sub hL (by decide)) ?_
    refine State.store_agree (sub hL (by decide)) ?_
    refine State.takeHead_agree (sub hL (by decide)) ?_
    exact h

theorem State.readTail_agree {L s0 s d r} (hL : [.freshCount, .regs, .linkOut, .mem, .rings, .pages, .ras, .flash, .link, .nb] ⊆ L) (h : Agree L s0 s) : Agree L s0 (State.readTail s d r) := by
  unfold State.readTail
  refine Agree.ite ?_ ?_
  · refine State.nodeReads_agree (sub hL (by decide)) ?_
    exact h
  · refine Agree.ite ?_ ?_
    · refine State.setFld_agree (sub hL (by decide)) ?_
      refine State.nodeCopy_agree (sub hL (by decide)) ?_
      refine State.nodeReads_agree (sub hL (by decide)) ?_
      exact h
    · refine State.setRing_agree (sub hL (by decide)) ?_
      refine State.setFld_agree (sub hL (by decide)) ?_
      refine State.nodeCopy_agree (sub hL (by decide)) ?_
      refine State.nodeReads_agree (sub hL (by decide)) ?_
      exact h

theorem State.takeUnknown_agree {L s0 s d r} (hL : [.regs, .linkOut, .mem, .rings, .pages, .ras, .flash, .link, .nb] ⊆ L) (h : Agree L s0 s) : Agree L s0 (State.takeUnknown s d r) := by
  unfold State.takeUnknown
  refine State.postRecord_agree (sub hL (by decide)) ?_
  refine State.takeHead_agree (sub hL (by decide)) ?_
  exact h

theorem State.takeBy_agree {L s0 s op d r t} (he : State.takeBy s op d r = some t) (hL : [.freshCount, .regs, .linkOut, .mem, .rings, .sched, .colls, .parts, .pages, .ras, .fabric, .flash, .link, .emb, .nb] ⊆ L) (h : Agree L s0 s) : Agree L s0 t := by
  unfold State.takeBy at he
  try dsimp only at he
  split at he
  · refine State.takeSearch_agree he (sub hL (by decide)) ?_
    exact h
  · refine State.takeUpdates_agree he (sub hL (by decide)) ?_
    exact h
  · refine State.takeUpdates_agree he (sub hL (by decide)) ?_
    exact h
  · refine State.takeCompact_agree he (sub hL (by decide)) ?_
    exact h
  · obtain rfl := Option.some.inj he
    refine State.takeVersion_agree (sub hL (by decide)) ?_
    exact h
  · obtain rfl := Option.some.inj he
    refine State.takeRouteEdit_agree (sub hL (by decide)) ?_
    exact h
  · obtain rfl := Option.some.inj he
    refine State.takeAbort_agree (sub hL (by decide)) ?_
    exact h
  · refine State.takeLookup_agree he (sub hL (by decide)) ?_
    exact h
  · obtain rfl := Option.some.inj he
    refine State.takeEmbUpdate_agree (sub hL (by decide)) ?_
    exact h
  · obtain rfl := Option.some.inj he
    refine State.takeStepClose_agree (sub hL (by decide)) ?_
    exact h
  · obtain rfl := Option.some.inj he
    refine State.takeHotSet_agree (sub hL (by decide)) ?_
    exact h
  · obtain rfl := Option.some.inj he
    refine State.takeEmbVersion_agree (sub hL (by decide)) ?_
    exact h
  · refine State.takeAttend_agree he (sub hL (by decide)) ?_
    exact h
  · refine State.takeMerge_agree he (sub hL (by decide)) ?_
    exact h
  · refine State.takeEngine_agree he (sub hL (by decide)) ?_
    exact h
  · refine State.takeNb_agree he (sub hL (by decide)) ?_
    exact h
  · obtain rfl := Option.some.inj he
    refine State.takeHint_agree (sub hL (by decide)) ?_
    exact h
  · obtain rfl := Option.some.inj he
    refine State.takeJournalRead_agree (sub hL (by decide)) ?_
    exact h
  · obtain rfl := Option.some.inj he
    refine State.takeUnknown_agree (sub hL (by decide)) ?_
    exact h

theorem State.takePoisoned_agree {L s0 s d r} (hL : [.regs, .linkOut, .mem, .rings, .pages, .ras, .flash, .link, .nb] ⊆ L) (h : Agree L s0 s) : Agree L s0 (State.takePoisoned s d r) := by
  unfold State.takePoisoned
  refine State.postRecord_agree (sub hL (by decide)) ?_
  refine State.bump_agree (sub hL (by decide)) ?_
  refine State.takeHead_agree (sub hL (by decide)) ?_
  exact h

theorem State.noteWait_agree {L s0 s op d r} (hL : [.sched] ⊆ L) (h : Agree L s0 s) : Agree L s0 (State.noteWait s op d r) := by
  unfold State.noteWait
  refine Agree.ite ?_ ?_
  · refine State.noteCompactWait_agree (sub hL (by decide)) ?_
    exact h
  · exact h

theorem State.takeGroup_agree {L s0 s op d r n} (hL : [.freshCount, .regs, .linkOut, .mem, .rings, .sched, .colls, .parts, .pages, .ras, .fabric, .flash, .link, .emb, .nb] ⊆ L) (h : Agree L s0 s) : Agree L s0 (State.takeGroup s op d r n).1 := by
  unfold State.takeGroup
  refine Agree.iteFst ?_ ?_
  · refine State.setFld_agree (sub hL (by decide)) ?_
    exact h
  · refine Agree.iteFst ?_ ?_
    · refine State.nodeReads_agree (sub hL (by decide)) ?_
      exact h
    · try dsimp only
      split
      · refine State.takeBy_agree (by assumption) (sub hL (by decide)) ?_
        refine State.nodeReads_agree (sub hL (by decide)) ?_
        exact h
      · refine State.noteWait_agree (sub hL (by decide)) ?_
        refine State.nodeReads_agree (sub hL (by decide)) ?_
        exact h

theorem State.takeVisible_agree {L s0 s boundary f d r} (hL : [.freshCount, .regs, .linkOut, .mem, .rings, .sched, .colls, .parts, .pages, .ras, .fabric, .flash, .link, .emb, .nb] ⊆ L) (h : Agree L s0 s) : Agree L s0 (State.takeVisible s boundary f d r).1 := by
  unfold State.takeVisible
  refine Agree.iteFst ?_ ?_
  · refine Agree.iteFst ?_ ?_
    · refine State.setFld_agree (sub hL (by decide)) ?_
      exact h
    · refine State.takePoisoned_agree (sub hL (by decide)) ?_
      exact h
  · refine Agree.iteFst ?_ ?_
    · exact h
    · try dsimp only
      split
      · exact h
      · refine State.takeGroup_agree (sub hL (by decide)) ?_
        exact h

theorem State.tryHead_agree {L s0 s boundary f d r} (hL : [.freshCount, .regs, .linkOut, .mem, .rings, .sched, .colls, .parts, .pages, .ras, .fabric, .flash, .link, .emb, .nb] ⊆ L) (h : Agree L s0 s) : Agree L s0 (State.tryHead s boundary f d r).1 := by
  unfold State.tryHead
  refine Agree.iteFst ?_ ?_
  · exact h
  · refine Agree.iteFst ?_ ?_
    · refine State.nodeReads_agree (sub hL (by decide)) ?_
      exact h
    · refine State.takeVisible_agree (sub hL (by decide)) ?_
      refine State.nodeReads_agree (sub hL (by decide)) ?_
      exact h

theorem State.takeLoop_agree {L s0 bd d r fuel} : ∀ {s}, ([.freshCount, .regs, .linkOut, .mem, .rings, .sched, .colls, .parts, .pages, .ras, .fabric, .flash, .link, .emb, .nb] ⊆ L) → Agree L s0 s → Agree L s0 (State.takeLoop s bd d r fuel) := by
  induction fuel with
  | zero => intro s _ h; exact h
  | succ n ih =>
    intro s hL h
    refine Agree.ite (ih hL ?_) ?_
    · exact State.tryHead_agree (sub hL (by decide)) h
    · exact State.tryHead_agree (sub hL (by decide)) h

theorem State.readRing_agree {L s0 s boundary d r} (hL : [.freshCount, .regs, .linkOut, .mem, .rings, .sched, .colls, .parts, .pages, .ras, .fabric, .flash, .link, .emb, .nb] ⊆ L) (h : Agree L s0 s) : Agree L s0 (State.readRing s boundary d r) := by
  unfold State.readRing
  refine Agree.ite ?_ ?_
  · refine State.takeLoop_agree (sub hL (by decide)) ?_
    refine State.readTail_agree (sub hL (by decide)) ?_
    exact h
  · exact h

theorem State.takeIf_agree {L s0 s f d r} (hL : [.freshCount, .regs, .linkOut, .mem, .rings, .sched, .colls, .parts, .pages, .ras, .fabric, .flash, .link, .emb, .nb] ⊆ L) (h : Agree L s0 s) : Agree L s0 (State.takeIf s f d r) := by
  unfold State.takeIf
  refine State.tryHead_agree (sub hL (by decide)) ?_
  exact h

theorem State.takeOp_agree {L s0 s op d r} (hL : [.freshCount, .regs, .linkOut, .mem, .rings, .sched, .colls, .parts, .pages, .ras, .fabric, .flash, .link, .emb, .nb] ⊆ L) (h : Agree L s0 s) : Agree L s0 (State.takeOp s op d r) := by
  unfold State.takeOp
  refine State.takeIf_agree (sub hL (by decide)) ?_
  exact h

theorem State.takeKind_agree {L s0 s op k d r} (hL : [.freshCount, .regs, .linkOut, .mem, .rings, .sched, .colls, .parts, .pages, .ras, .fabric, .flash, .link, .emb, .nb] ⊆ L) (h : Agree L s0 s) : Agree L s0 (State.takeKind s op k d r) := by
  unfold State.takeKind
  refine State.takeIf_agree (sub hL (by decide)) ?_
  exact h

theorem State.visitRings_agree {L s0 s} (hL : [.freshCount, .regs, .linkOut, .mem, .rings, .sched, .colls, .parts, .pages, .ras, .fabric, .flash, .link, .emb, .nb] ⊆ L) (h : Agree L s0 s) : Agree L s0 (State.visitRings s) := by
  unfold State.visitRings
  refine Agree.sched_write (mem_of hL (by decide)) ?_ _
  refine Agree.fold ?_ ?_
  · intro t1 x1 h1
    show Agree L s0 _
    refine State.readRing_agree (sub hL (by decide)) ?_
    exact h1
  · exact h

theorem State.ringWatch_agree {L s0 s d r} (hL : [.freshCount, .regs, .linkOut, .mem, .rings, .sched, .colls, .parts, .pages, .ras, .fabric, .flash, .link, .emb, .nb] ⊆ L) (h : Agree L s0 s) : Agree L s0 (State.ringWatch s d r) := by
  unfold State.ringWatch
  refine State.readRing_agree (sub hL (by decide)) ?_
  exact h

theorem State.runDone_agree {L s0 s run sb} (hL : [.freshCount, .regs, .linkOut, .mem, .rings, .sched, .pages, .ras, .flash, .link, .nb] ⊆ L) (h : Agree L s0 s) : Agree L s0 (State.runDone s run sb) := by
  unfold State.runDone
  split
  · exact h
  · refine Agree.ite ?_ ?_
    · exact h
    · refine State.driveHints_agree (sub hL (by decide)) ?_
      try dsimp only
      split
      · refine State.setPage_agree (sub hL (by decide)) ?_
        refine State.durable_agree (sub hL (by decide)) ?_
        refine State.placeIn_agree (sub hL (by decide)) ?_
        exact h
      · refine State.setPage_agree (sub hL (by decide)) ?_
        refine State.durable_agree (sub hL (by decide)) ?_
        refine State.placeIn_agree (sub hL (by decide)) ?_
        exact h
      · refine State.takePoison_agree (sub hL (by decide)) ?_
        refine State.durable_agree (sub hL (by decide)) ?_
        refine State.placeIn_agree (sub hL (by decide)) ?_
        exact h
      · refine State.setFlash_agree (sub hL (by decide)) ⟨rfl, rfl⟩ ?_
        refine State.durable_agree (sub hL (by decide)) ?_
        refine State.placeIn_agree (sub hL (by decide)) ?_
        exact h

end Sys2Proof.Machine
end

