-- ==== Sys2Proof/Laws/KeepFabric.lean ====
section
/-! SUPPORT. What the operations of Machine/Fabric.lean may touch. -/

namespace Sys2Proof.Machine

open Sys2Proof

theorem State.setFabric_agree {L s0 s f} (hL : [.fabric] ⊆ L) (h : Agree L s0 s) : Agree L s0 (State.setFabric s f) := by
  unfold State.setFabric
  refine Agree.fabric_write (mem_of hL (by decide)) ?_ _
  exact h

theorem State.setPort_agree {L s0 s p v} (hL : [.regs] ⊆ L) (h : Agree L s0 s) : Agree L s0 (State.setPort s p v) := by
  unfold State.setPort
  refine State.setFld_agree (sub hL (by decide)) ?_
  exact h

theorem State.setEgress_agree {L s0 s p e} (hL : [.fabric] ⊆ L) (h : Agree L s0 s) : Agree L s0 (State.setEgress s p e) := by
  unfold State.setEgress
  refine State.setFabric_agree (sub hL (by decide)) ?_
  exact h

theorem State.requeue_agree {L s0 s p} (hL : [.fabric] ⊆ L) (h : Agree L s0 s) : Agree L s0 (State.requeue s p) := by
  unfold State.requeue
  refine State.setEgress_agree (sub hL (by decide)) ?_
  refine State.setFabric_agree (sub hL (by decide)) ?_
  exact h

theorem State.portTraining_agree {L s0 s p} (hL : [.regs, .fabric] ⊆ L) (h : Agree L s0 s) : Agree L s0 (State.portTraining s p) := by
  unfold State.portTraining
  refine Agree.ite ?_ ?_
  · split
    · refine State.setPort_agree (sub hL (by decide)) ?_
      exact h
    · refine State.requeue_agree (sub hL (by decide)) ?_
      refine State.setPort_agree (sub hL (by decide)) ?_
      exact h
    · exact h
  · exact h

theorem State.portUp_agree {L s0 s p} (hL : [.regs, .fabric] ⊆ L) (h : Agree L s0 s) : Agree L s0 (State.portUp s p) := by
  unfold State.portUp
  refine Agree.ite ?_ ?_
  · refine State.setFabric_agree (sub hL (by decide)) ?_
    refine State.setEgress_agree (sub hL (by decide)) ?_
    refine State.setPort_agree (sub hL (by decide)) ?_
    exact h
  · exact h

theorem State.portDown_agree {L s0 s p} (hL : [.regs, .fabric] ⊆ L) (h : Agree L s0 s) : Agree L s0 (State.portDown s p) := by
  unfold State.portDown
  refine Agree.ite ?_ ?_
  · refine State.requeue_agree (sub hL (by decide)) ?_
    refine State.setPort_agree (sub hL (by decide)) ?_
    exact h
  · exact h

theorem State.portFault_agree {L s0 s p lane} (hL : [.regs, .ras, .fabric] ⊆ L) (h : Agree L s0 s) : Agree L s0 (State.portFault s p lane) := by
  unfold State.portFault
  refine Agree.ite ?_ ?_
  · refine Agree.ras_write (mem_of hL (by decide)) ?_ _
    refine State.requeue_agree (sub hL (by decide)) ?_
    refine State.setPort_agree (sub hL (by decide)) ?_
    refine State.log_agree (sub hL (by decide)) ?_
    refine State.log_agree (sub hL (by decide)) ?_
    refine State.bump_agree (sub hL (by decide)) ?_
    exact h
  · exact h

theorem State.acked_agree {L s0 s dst queue no idx} (hL : [.regs, .linkOut, .mem, .rings, .sched, .pages, .ras, .fabric, .flash, .link, .nb] ⊆ L) (h : Agree L s0 s) : Agree L s0 (State.acked s dst queue no idx) := by
  unfold State.acked
  refine State.settleUpdates_agree (sub hL (by decide)) ?_
  refine State.setFabric_agree (sub hL (by decide)) ?_
  exact h

theorem State.resend_agree {L s0 s dst queue no idx} (hL : [.regs, .fabric] ⊆ L) (h : Agree L s0 s) : Agree L s0 (State.resend s dst queue no idx) := by
  unfold State.resend
  split
  · exact h
  · split
    · exact h
    · refine Agree.ite ?_ ?_
      · exact h
      · refine Agree.ite ?_ ?_
        · refine State.send_agree (sub hL (by decide)) ?_
          refine Agree.ite ?_ ?_
          · refine State.bump_agree (sub hL (by decide)) ?_
            refine State.setFabric_agree (sub hL (by decide)) ?_
            exact h
          · refine State.setFabric_agree (sub hL (by decide)) ?_
            exact h
        · refine Agree.ite ?_ ?_
          · refine State.bump_agree (sub hL (by decide)) ?_
            refine State.setFabric_agree (sub hL (by decide)) ?_
            exact h
          · refine State.setFabric_agree (sub hL (by decide)) ?_
            exact h

theorem State.deliver_agree {L s0 src q fuel} : ∀ {s}, ([.fabric] ⊆ L) → Agree L s0 s → Agree L s0 (State.deliver s src q fuel) := by
  induction fuel with
  | zero => intro s _ h; exact h
  | succ n ih =>
    intro s hL h
    unfold State.deliver
    try dsimp only
    split
    · exact Agree.ite (ih hL (State.setFabric_agree (sub hL (by decide)) h)) h
    · exact h

theorem State.dataFrame_agree {L s0 s p f} (hL : [.regs, .fabric] ⊆ L) (h : Agree L s0 s) : Agree L s0 (State.dataFrame s p f) := by
  unfold State.dataFrame
  refine Agree.ite ?_ ?_
  · refine Agree.ite ?_ ?_
    · refine State.bump_agree (sub hL (by decide)) ?_
      exact h
    · refine Agree.ite ?_ ?_
      · refine State.send_agree (sub hL (by decide)) ?_
        refine State.bump_agree (sub hL (by decide)) ?_
        exact h
      · refine Agree.ite ?_ ?_
        · refine State.send_agree (sub hL (by decide)) ?_
          refine State.deliver_agree (sub hL (by decide)) ?_
          refine State.setFabric_agree (sub hL (by decide)) ?_
          refine State.bump_agree (sub hL (by decide)) ?_
          exact h
        · refine State.bump_agree (sub hL (by decide)) ?_
          refine State.bump_agree (sub hL (by decide)) ?_
          exact h
  · exact h

theorem State.fromPeer_agree {L s0 s src f} (hL : [.regs] ⊆ L) (hf : ∀ y0, Agree L s0 y0 → Agree L s0 (f y0)) (h : Agree L s0 s) :
    Agree L s0 (State.fromPeer s src f) :=
  Agree.ite h (Agree.ite (State.bump_agree (sub hL (by decide)) h) (hf s h))

theorem State.logMember_agree {L s0 s} (hL : [.regs, .ras] ⊆ L) (h : Agree L s0 s) : Agree L s0 (State.logMember s) := by
  unfold State.logMember
  refine State.log_agree (sub hL (by decide)) ?_
  exact h

theorem State.joinReq_agree {L s0 s} (hL : [.fabric] ⊆ L) (h : Agree L s0 s) : Agree L s0 (State.joinReq s) := by
  unfold State.joinReq
  refine Agree.ite ?_ ?_
  · refine Agree.fold ?_ ?_
    · intro t1 x1 h1
      show Agree L s0 _
      refine State.setFabric_agree (sub hL (by decide)) ?_
      exact h1
    · exact h
  · exact h

theorem State.assign_agree {L s0 s addr comp join} (hL : [.regs, .fabric] ⊆ L) (h : Agree L s0 s) : Agree L s0 (State.assign s addr comp join) := by
  unfold State.assign
  refine Agree.ite ?_ ?_
  · refine State.setFabric_agree (sub hL (by decide)) ?_
    refine State.setFld_agree (sub hL (by decide)) ?_
    refine State.setFld_agree (sub hL (by decide)) ?_
    refine State.setFld_agree (sub hL (by decide)) ?_
    exact h
  · exact h

theorem State.refuseJoin_agree {L s0 s code} (hL : [.regs, .ras, .fabric] ⊆ L) (h : Agree L s0 s) : Agree L s0 (State.refuseJoin s code) := by
  unfold State.refuseJoin
  refine Agree.ite ?_ ?_
  · refine State.logMember_agree (sub hL (by decide)) ?_
    refine State.setFabric_agree (sub hL (by decide)) ?_
    refine State.setFld_agree (sub hL (by decide)) ?_
    refine State.setFld_agree (sub hL (by decide)) ?_
    exact h
  · exact h

theorem State.fence_agree {L s0 s} (hL : [.regs, .sched, .ras, .fabric] ⊆ L) (h : Agree L s0 s) : Agree L s0 (State.fence s) := by
  unfold State.fence
  refine State.logMember_agree (sub hL (by decide)) ?_
  refine State.setFabric_agree (sub hL (by decide)) ?_
  refine State.setFld_agree (sub hL (by decide)) ?_
  refine State.setJobs_agree (sub hL (by decide)) ?_
  exact h

theorem State.endFence_agree {L s0 s} (hL : [.regs, .fabric] ⊆ L) (h : Agree L s0 s) : Agree L s0 (State.endFence s) := by
  unfold State.endFence
  refine Agree.ite ?_ ?_
  · refine State.setFabric_agree (sub hL (by decide)) ?_
    refine State.setFld_agree (sub hL (by decide)) ?_
    exact h
  · exact h

theorem State.failShares_agree {L s0 s id n} (hL : [.regs, .sched, .fabric] ⊆ L) (h : Agree L s0 s) : Agree L s0 (State.failShares s id n) := by
  unfold State.failShares
  split
  · exact h
  · refine Agree.fold ?_ ?_
    · intro t1 x1 h1
      show Agree L s0 _
      split
      · exact h1
      · refine Agree.ite ?_ ?_
        · refine State.putQuery_agree (sub hL (by decide)) ?_
          exact h1
        · refine State.reissue_agree (sub hL (by decide)) ?_
          exact h1
    · exact h

theorem State.declareFailed_agree {L s0 s n} (hL : [.regs, .linkOut, .mem, .rings, .sched, .pages, .ras, .fabric, .flash, .link, .emb, .nb] ⊆ L) (h : Agree L s0 s) : Agree L s0 (State.declareFailed s n) := by
  unfold State.declareFailed
  refine Agree.ite ?_ ?_
  · exact h
  · refine Agree.ite ?_ ?_
    · refine State.fence_agree (sub hL (by decide)) ?_
      exact h
    · refine Agree.ite ?_ ?_
      · exact h
      · refine State.settleUpdates_agree (sub hL (by decide)) ?_
        refine Agree.fold ?_ ?_
        · intro t1 x1 h1
          show Agree L s0 _
          refine State.finishStep_agree (sub hL (by decide)) ?_
          exact h1
        · refine Agree.fold ?_ ?_
          · intro t2 x2 h2
            show Agree L s0 _
            refine State.failShares_agree (sub hL (by decide)) ?_
            exact h2
          · refine Agree.emb_write (mem_of hL (by decide)) ?_ _
            refine State.setFabric_agree (sub hL (by decide)) ?_
            refine State.setJobs_agree (sub hL (by decide)) ?_
            exact h

theorem State.copyMap_agree {L s0 s a b} (hL : [.mem] ⊆ L) (h : Agree L s0 s) : Agree L s0 (State.copyMap s a b) := by
  refine Agree.mem_write (mem_of hL (by decide)) h _ (fun hc => State.canonical_mem hc (fun hm => ?_))
  have hm := Memory.wf_iff.mp hm
  refine Memory.wf_iff.mpr ⟨?_, hm.2.1, hm.2.2⟩
  show SMap.wf byteDefault _ = true
  dsimp only
  split
  · exact foldl_wf (fun m x hx => SMap.set_wf hx) (SMap.filter_wf hm.1)
  · exact SMap.filter_wf hm.1

theorem State.openPending_agree {L s0 s} (hL : [.mem, .fabric] ⊆ L) (h : Agree L s0 s) : Agree L s0 (State.openPending s) := by
  unfold State.openPending
  refine Agree.ite ?_ ?_
  · exact h
  · refine State.setFabric_agree (sub hL (by decide)) ?_
    refine State.copyMap_agree (sub hL (by decide)) ?_
    exact h

theorem State.mapWrite_agree {L s0 s off data} (hL : [.mem, .fabric] ⊆ L) (h : Agree L s0 s) : Agree L s0 (State.mapWrite s off data) := by
  unfold State.mapWrite
  refine Agree.ite ?_ ?_
  · refine Agree.mem_write (mem_of hL (by decide)) ?_ _ (fun hc => by first | exact State.canonical_mem hc MemSt.write_wf | exact State.canonical_mem hc MemSt.poisonLine_wf)
    refine State.openPending_agree (sub hL (by decide)) ?_
    exact h
  · exact h

theorem State.mapActivate_agree {L s0 s a} (hL : [.regs, .mem, .fabric] ⊆ L) (h : Agree L s0 s) : Agree L s0 (State.mapActivate s a) := by
  unfold State.mapActivate
  refine Agree.ite ?_ ?_
  · refine State.setFabric_agree (sub hL (by decide)) ?_
    refine State.setFld_agree (sub hL (by decide)) ?_
    refine State.openPending_agree (sub hL (by decide)) ?_
    exact h
  · exact h

theorem State.activateMap_agree {L s0 s} (hL : [.regs, .fabric] ⊆ L) (h : Agree L s0 s) : Agree L s0 (State.activateMap s) := by
  unfold State.activateMap
  split
  · refine Agree.ite ?_ ?_
    · exact h
    · refine Agree.ite ?_ ?_
      · refine State.send_agree (sub hL (by decide)) ?_
        refine State.setFld_agree (sub hL (by decide)) ?_
        refine State.setFabric_agree (sub hL (by decide)) ?_
        refine State.setFld_agree (sub hL (by decide)) ?_
        refine State.setFld_agree (sub hL (by decide)) ?_
        refine State.setFld_agree (sub hL (by decide)) ?_
        exact h
      · refine State.setFabric_agree (sub hL (by decide)) ?_
        refine State.setFld_agree (sub hL (by decide)) ?_
        refine State.setFld_agree (sub hL (by decide)) ?_
        refine State.setFld_agree (sub hL (by decide)) ?_
        exact h
  · exact h

theorem State.parityDeltas_agree {L s0 s old} (hL : [.fabric] ⊆ L) (h : Agree L s0 s) (h'1 : Agree L s0 old) : Agree L s0 (State.parityDeltas s old) := by
  unfold State.parityDeltas
  refine Agree.fold ?_ ?_
  · intro t1 x1 h1
    show Agree L s0 _
    split
    · exact h1
    · try dsimp only
      split
      · exact h1
      · refine State.send_agree (sub hL (by decide)) ?_
        refine State.send_agree (sub hL (by decide)) ?_
        exact h1
  · exact h

theorem State.markStale_agree {L s0 s m} (hL : [.regs, .ras, .fabric] ⊆ L) (h : Agree L s0 s) : Agree L s0 (State.markStale s m) := by
  unfold State.markStale
  refine State.log_agree (sub hL (by decide)) ?_
  refine State.setFabric_agree (sub hL (by decide)) ?_
  exact h

theorem State.parityDelta_agree {L s0 s m} (hL : [.regs, .linkOut, .mem, .pages, .ras, .fabric, .flash, .link, .nb] ⊆ L) (h : Agree L s0 s) : Agree L s0 (State.parityDelta s m) := by
  unfold State.parityDelta
  refine Agree.ite ?_ ?_
  · exact h
  · refine Agree.ite ?_ ?_
    · refine State.markStale_agree (sub hL (by decide)) ?_
      exact h
    · refine Agree.ite ?_ ?_
      · exact h
      · refine Agree.ite ?_ ?_
        · refine State.setFabric_agree (sub hL (by decide)) ?_
          refine State.store_agree (sub hL (by decide)) ?_
          exact h
        · refine State.markStale_agree (sub hL (by decide)) ?_
          exact h

theorem State.startRebuild_agree {L s0 s g i} (hL : [.fabric] ⊆ L) (h : Agree L s0 s) : Agree L s0 (State.startRebuild s g i) := by
  unfold State.startRebuild
  refine Agree.ite ?_ ?_
  · refine State.setFabric_agree (sub hL (by decide)) ?_
    exact h
  · exact h

theorem State.writeCopy_agree {L s0 s a data poison} (hL : [.regs, .linkOut, .mem, .pages, .ras, .flash, .link, .nb] ⊆ L) (h : Agree L s0 s) : Agree L s0 (State.writeCopy s a data poison) := by
  unfold State.writeCopy
  refine Agree.fold ?_ ?_
  · intro t1 x1 h1
    show Agree L s0 _
    refine State.poison_agree (sub hL (by decide)) ?_
    exact h1
  · refine State.store_agree (sub hL (by decide)) ?_
    exact h

theorem State.rebuildStripe_agree {L s0 s r k} (hL : [.regs, .linkOut, .mem, .pages, .ras, .fabric, .flash, .link, .nb] ⊆ L) (h : Agree L s0 s) : Agree L s0 (State.rebuildStripe s r k) := by
  unfold State.rebuildStripe
  try dsimp only
  split
  · refine Agree.ite ?_ ?_
    · refine State.setFabric_agree (sub hL (by decide)) ?_
      refine State.writeCopy_agree (sub hL (by decide)) ?_
      exact h
    · exact h
  · exact h

theorem State.copyArrives_agree {L s0 s src addr units} (hL : [.regs, .linkOut, .mem, .pages, .ras, .fabric, .flash, .link, .nb] ⊆ L) (h : Agree L s0 s) : Agree L s0 (State.copyArrives s src addr units) := by
  unfold State.copyArrives
  refine Agree.ite ?_ ?_
  · exact h
  · try dsimp only
    split
    · split
      · refine Agree.ite ?_ ?_
        · refine State.rebuildStripe_agree (sub hL (by decide)) ?_
          refine State.setFabric_agree (sub hL (by decide)) ?_
          exact h
        · exact h
      · refine State.writeCopy_agree (sub hL (by decide)) ?_
        exact h
    · refine State.writeCopy_agree (sub hL (by decide)) ?_
      exact h

theorem State.journalVectors_agree {L s0 s vs} (hL : [.regs, .linkOut, .mem, .pages, .ras, .flash, .link, .nb] ⊆ L) (h : Agree L s0 s) : Agree L s0 (State.journalVectors s vs) := by
  unfold State.journalVectors
  refine Agree.ite ?_ ?_
  · refine Agree.fold ?_ ?_
    · intro t1 x1 h1
      show Agree L s0 _
      refine Agree.ite ?_ ?_
      · refine State.store_agree (sub hL (by decide)) ?_
        exact h1
      · exact h1
    · exact h
  · exact h

theorem State.rebuildDone_agree {L s0 s} (hL : [.fabric] ⊆ L) (h : Agree L s0 s) : Agree L s0 (State.rebuildDone s) := by
  unfold State.rebuildDone
  split
  · refine Agree.ite ?_ ?_
    · refine State.setFabric_agree (sub hL (by decide)) ?_
      refine State.send_agree (sub hL (by decide)) ?_
      exact h
    · exact h
  · exact h

end Sys2Proof.Machine
end

