-- ==== Sys2Proof/Laws/KeepEgress.lean ====
section
/-! SUPPORT. What the operations of Machine/Egress.lean may touch. -/

namespace Sys2Proof.Machine

open Sys2Proof

theorem State.creditTo_agree {L s0 s p t'} (hL : [.fabric] ⊆ L) (h : Agree L s0 s) : Agree L s0 (State.creditTo s p t') := by
  unfold State.creditTo
  refine Agree.ite ?_ ?_
  · exact h
  · refine State.setEgress_agree (sub hL (by decide)) ?_
    exact h

theorem State.countHeld_agree {L s0 s p q t'} (hL : [.regs, .fabric] ⊆ L) (h : Agree L s0 s) : Agree L s0 (State.countHeld s p q t') := by
  unfold State.countHeld
  split
  · exact h
  · refine Agree.ite ?_ ?_
    · exact h
    · refine Agree.ite ?_ ?_
      · refine Agree.ite ?_ ?_
        · exact h
        · refine State.bump_agree (sub hL (by decide)) ?_
          refine State.setEgress_agree (sub hL (by decide)) ?_
          exact h
      · refine Agree.ite ?_ ?_
        · refine Agree.ite ?_ ?_
          · exact h
          · refine State.bump_agree (sub hL (by decide)) ?_
            refine State.setEgress_agree (sub hL (by decide)) ?_
            exact h
        · exact h

theorem State.sendFrame_agree {L s0 s p q t'} (hL : [.regs, .fabric] ⊆ L) (h : Agree L s0 s) : Agree L s0 (State.sendFrame s p q t') := by
  unfold State.sendFrame
  split
  · exact h
  · refine State.bump_agree (sub hL (by decide)) ?_
    refine State.bump_agree (sub hL (by decide)) ?_
    refine State.setEgress_agree (sub hL (by decide)) ?_
    refine State.setFabric_agree (sub hL (by decide)) ?_
    exact h

theorem State.egressSelect_agree {L s0 s p t'} (hL : [.regs, .fabric] ⊆ L) (h : Agree L s0 s) : Agree L s0 (State.egressSelect s p t') := by
  unfold State.egressSelect
  refine Agree.ite ?_ ?_
  · exact h
  · try dsimp only
    split
    · refine State.sendFrame_agree (sub hL (by decide)) ?_
      refine Agree.fold ?_ ?_
      · intro t1 x1 h1
        show Agree L s0 _
        refine State.countHeld_agree (sub hL (by decide)) ?_
        exact h1
      · refine State.creditTo_agree (sub hL (by decide)) ?_
        exact h
    · refine Agree.ite ?_ ?_
      · split
        · refine State.sendFrame_agree (sub hL (by decide)) ?_
          refine State.setEgress_agree (sub hL (by decide)) ?_
          refine Agree.fold ?_ ?_
          · intro t2 x2 h2
            show Agree L s0 _
            refine State.countHeld_agree (sub hL (by decide)) ?_
            exact h2
          · refine State.creditTo_agree (sub hL (by decide)) ?_
            exact h
        · refine Agree.fold ?_ ?_
          · intro t3 x3 h3
            show Agree L s0 _
            refine State.countHeld_agree (sub hL (by decide)) ?_
            exact h3
          · refine State.creditTo_agree (sub hL (by decide)) ?_
            exact h
      · refine Agree.fold ?_ ?_
        · intro t4 x4 h4
          show Agree L s0 _
          refine State.countHeld_agree (sub hL (by decide)) ?_
          exact h4
        · refine State.creditTo_agree (sub hL (by decide)) ?_
          exact h

theorem State.timeMessage_agree {L s0 s p t' n} (hL : [.fabric] ⊆ L) (h : Agree L s0 s) : Agree L s0 (State.timeMessage s p t' n) := by
  unfold State.timeMessage
  refine Agree.ite ?_ ?_
  · exact h
  · refine State.setEgress_agree (sub hL (by decide)) ?_
    refine State.creditTo_agree (sub hL (by decide)) ?_
    exact h

theorem State.gateEntry_agree {L s0 s p t'} (hL : [.regs, .fabric] ⊆ L) (h : Agree L s0 s) : Agree L s0 (State.gateEntry s p t') := by
  unfold State.gateEntry
  refine Agree.ite ?_ ?_
  · exact h
  · refine State.setFld_agree (sub hL (by decide)) ?_
    refine State.creditTo_agree (sub hL (by decide)) ?_
    exact h

theorem State.guardBand_agree {L s0 s p q t'} (hL : [.regs, .fabric] ⊆ L) (h : Agree L s0 s) : Agree L s0 (State.guardBand s p q t') := by
  unfold State.guardBand
  refine Agree.ite ?_ ?_
  · exact h
  · refine State.countHeld_agree (sub hL (by decide)) ?_
    refine State.creditTo_agree (sub hL (by decide)) ?_
    exact h

theorem State.egressClose_agree {L s0 s} (hL : [.fabric] ⊆ L) (h : Agree L s0 s) : Agree L s0 (State.egressClose s) := by
  unfold State.egressClose
  refine Agree.fold ?_ ?_
  · intro t1 x1 h1
    show Agree L s0 _
    refine State.setEgress_agree (sub hL (by decide)) ?_
    refine State.creditTo_agree (sub hL (by decide)) ?_
    exact h1
  · exact h

theorem State.gateRestart_agree {L s0 s} (hL : [.regs] ⊆ L) (h : Agree L s0 s) : Agree L s0 (State.gateRestart s) := by
  unfold State.gateRestart
  refine Agree.fold ?_ ?_
  · intro t1 x1 h1
    show Agree L s0 _
    refine Agree.ite ?_ ?_
    · refine State.bump_agree (sub hL (by decide)) ?_
      refine State.setFld_agree (sub hL (by decide)) ?_
      exact h1
    · refine State.setFld_agree (sub hL (by decide)) ?_
      exact h1
  · exact h

theorem State.resetCredits_agree {L s0 s old p} (hL : [.regs, .fabric] ⊆ L) (h : Agree L s0 s) (h'1 : Agree L s0 old) : Agree L s0 (State.resetCredits s old p) := by
  unfold State.resetCredits
  refine Agree.fold ?_ ?_
  · intro t1 x1 h1
    show Agree L s0 _
    refine State.setFld_agree (sub hL (by decide)) ?_
    exact h1
  · refine State.setEgress_agree (sub hL (by decide)) ?_
    exact h

end Sys2Proof.Machine
end

