-- ==== Sys2Proof/Laws/KeepFaults.lean ====
section
/-! SUPPORT. What the operations of Machine/Faults.lean may touch. -/

namespace Sys2Proof.Machine

open Sys2Proof

theorem State.setRas_agree {L s0 s r} (hL : [.ras] ⊆ L) (h : Agree L s0 s) : Agree L s0 (State.setRas s r) := by
  unfold State.setRas
  refine Agree.ras_write (mem_of hL (by decide)) ?_ _
  exact h

theorem State.faultStruck_agree {L s0 s} (hL : [.regs, .ras] ⊆ L) (h : Agree L s0 s) : Agree L s0 (State.faultStruck s) := by
  unfold State.faultStruck
  refine Agree.ite ?_ ?_
  · refine Agree.fold ?_ ?_
    · intro t1 x1 h1
      show Agree L s0 _
      refine State.log_agree (sub hL (by decide)) ?_
      refine State.bump_agree (sub hL (by decide)) ?_
      exact h1
    · exact h
  · refine State.log_agree (sub hL (by decide)) ?_
    refine State.bump_agree (sub hL (by decide)) ?_
    refine Agree.fold ?_ ?_
    · intro t2 x2 h2
      show Agree L s0 _
      refine State.log_agree (sub hL (by decide)) ?_
      refine State.bump_agree (sub hL (by decide)) ?_
      exact h2
    · exact h

theorem State.putBit_agree {L s0 s lo hi i on} (hL : [.regs] ⊆ L) (h : Agree L s0 s) : Agree L s0 (State.putBit s lo hi i on) := by
  unfold State.putBit
  refine Agree.ite ?_ ?_
  · refine State.setFld_agree (sub hL (by decide)) ?_
    exact h
  · refine State.setFld_agree (sub hL (by decide)) ?_
    exact h

theorem State.waitRetire_agree {L s0 s kind idx} (hL : [.ras] ⊆ L) (h : Agree L s0 s) : Agree L s0 (State.waitRetire s kind idx) := by
  unfold State.waitRetire
  refine Agree.ite ?_ ?_
  · exact h
  · refine State.setRas_agree (sub hL (by decide)) ?_
    exact h

theorem State.permEvent_agree {L s0 s kind idx addr dom} (hL : [.regs, .ras] ⊆ L) (h : Agree L s0 s) : Agree L s0 (State.permEvent s kind idx addr dom) := by
  unfold State.permEvent
  refine State.faultStruck_agree (sub hL (by decide)) ?_
  try dsimp only
  split
  · refine Agree.ite ?_ ?_
    · refine State.waitRetire_agree (sub hL (by decide)) ?_
      refine State.putBit_agree (sub hL (by decide)) ?_
      refine State.log_agree (sub hL (by decide)) ?_
      refine State.bump_agree (sub hL (by decide)) ?_
      refine State.setRas_agree (sub hL (by decide)) ?_
      exact h
    · refine State.putBit_agree (sub hL (by decide)) ?_
      refine State.log_agree (sub hL (by decide)) ?_
      refine State.bump_agree (sub hL (by decide)) ?_
      refine State.setRas_agree (sub hL (by decide)) ?_
      exact h
  · refine Agree.ite ?_ ?_
    · refine State.waitRetire_agree (sub hL (by decide)) ?_
      refine Agree.ite ?_ ?_
      · refine State.setFld_agree (sub hL (by decide)) ?_
        refine State.log_agree (sub hL (by decide)) ?_
        refine State.bump_agree (sub hL (by decide)) ?_
        refine State.setRas_agree (sub hL (by decide)) ?_
        exact h
      · refine State.log_agree (sub hL (by decide)) ?_
        refine State.bump_agree (sub hL (by decide)) ?_
        refine State.setRas_agree (sub hL (by decide)) ?_
        exact h
    · refine Agree.ite ?_ ?_
      · refine State.setFld_agree (sub hL (by decide)) ?_
        refine State.log_agree (sub hL (by decide)) ?_
        refine State.bump_agree (sub hL (by decide)) ?_
        refine State.setRas_agree (sub hL (by decide)) ?_
        exact h
      · refine State.log_agree (sub hL (by decide)) ?_
        refine State.bump_agree (sub hL (by decide)) ?_
        refine State.setRas_agree (sub hL (by decide)) ?_
        exact h
  · refine State.log_agree (sub hL (by decide)) ?_
    refine State.bump_agree (sub hL (by decide)) ?_
    refine State.setRas_agree (sub hL (by decide)) ?_
    exact h

theorem State.dropEvents_agree {L s0 s} (hL : [.regs, .ras] ⊆ L) (h : Agree L s0 s) : Agree L s0 (State.dropEvents s) := by
  unfold State.dropEvents
  refine Agree.ite ?_ ?_
  · exact h
  · refine Agree.fold ?_ ?_
    · intro t1 x1 h1
      show Agree L s0 _
      refine Agree.ite ?_ ?_
      · exact h1
      · try dsimp only
        split
        · refine State.putBit_agree (sub hL (by decide)) ?_
          exact h1
        · refine Agree.ite ?_ ?_
          · refine State.setFld_agree (sub hL (by decide)) ?_
            exact h1
          · exact h1
        · exact h1
    · refine State.setRas_agree (sub hL (by decide)) ?_
      exact h

theorem State.setAwlState_agree {L s0 s b' v} (hL : [.regs, .ras] ⊆ L) (h : Agree L s0 s) : Agree L s0 (State.setAwlState s b' v) := by
  unfold State.setAwlState
  split
  · refine State.setBlockState_agree (sub hL (by decide)) ?_
    exact h
  · refine State.setRas_agree (sub hL (by decide)) ?_
    exact h

theorem State.suspect_agree {L s0 s b'} (hL : [.regs, .ras] ⊆ L) (h : Agree L s0 s) : Agree L s0 (State.suspect s b') := by
  unfold State.suspect
  refine Agree.ite ?_ ?_
  · refine State.setRas_agree (sub hL (by decide)) ?_
    refine State.setAwlState_agree (sub hL (by decide)) ?_
    exact h
  · exact h

theorem State.checkOverruns_agree {L s0 s e i} (hL : [.regs, .ras] ⊆ L) (h : Agree L s0 s) : Agree L s0 (State.checkOverruns s e i) := by
  unfold State.checkOverruns
  try dsimp only
  split
  · refine Agree.ite ?_ ?_
    · refine State.suspect_agree (sub hL (by decide)) ?_
      exact h
    · exact h
  · exact h

theorem State.mirrorLast_agree {L s0 s} (hL : [.ras] ⊆ L) (h : Agree L s0 s) : Agree L s0 (State.mirrorLast s) := by
  unfold State.mirrorLast
  refine State.setRas_agree (sub hL (by decide)) ?_
  exact h

theorem State.refuseLost_agree {L s0 s} (hL : [.sched] ⊆ L) (h : Agree L s0 s) : Agree L s0 (State.refuseLost s) := by
  unfold State.refuseLost
  refine State.setJobs_agree (sub hL (by decide)) ?_
  exact h

theorem State.leaveStack_agree {L s0 s k} (hL : [.freshCount, .regs, .pages, .ras, .flash] ⊆ L) (h : Agree L s0 s) : Agree L s0 (State.leaveStack s k) := by
  unfold State.leaveStack
  refine Agree.fold ?_ ?_
  · intro t1 x1 h1
    show Agree L s0 _
    try dsimp only
    split
    · refine State.takeFrame_agree (by assumption) (sub hL (by decide)) ?_
      exact h1
    · refine State.writeOut_agree (sub hL (by decide)) ?_
      exact h1
  · refine Agree.fold ?_ ?_
    · intro t2 x2 h2
      show Agree L s0 _
      try dsimp only
      split
      · refine State.takeFrame_agree (by assumption) (sub hL (by decide)) ?_
        exact h2
      · refine State.log_agree (sub hL (by decide)) ?_
        refine State.setFld_agree (sub hL (by decide)) ?_
        refine State.writeOut_agree (sub hL (by decide)) ?_
        exact h2
    · exact h

theorem State.startCopy_agree {L s0 s k pc} (hL : [.regs, .ras] ⊆ L) (h : Agree L s0 s) : Agree L s0 (State.startCopy s k pc) := by
  unfold State.startCopy
  refine Agree.ite ?_ ?_
  · refine State.setRas_agree (sub hL (by decide)) ?_
    exact h
  · refine State.setFld_agree (sub hL (by decide)) ?_
    refine State.setFld_agree (sub hL (by decide)) ?_
    exact h

theorem State.markPc_agree {L s0 s k pc} (hL : [.regs] ⊆ L) (h : Agree L s0 s) : Agree L s0 (State.markPc s k pc) := by
  unfold State.markPc
  refine Agree.ite ?_ ?_
  · refine State.putBit_agree (sub hL (by decide)) ?_
    refine State.putBit_agree (sub hL (by decide)) ?_
    exact h
  · refine State.putBit_agree (sub hL (by decide)) ?_
    exact h

theorem State.removeStack_agree {L s0 s k pc} (hL : [.freshCount, .regs, .pages, .ras, .flash] ⊆ L) (h : Agree L s0 s) : Agree L s0 (State.removeStack s k pc) := by
  unfold State.removeStack
  refine State.leaveStack_agree (sub hL (by decide)) ?_
  refine State.markPc_agree (sub hL (by decide)) ?_
  exact h

theorem State.retirePc_agree {L s0 s k pc} (hL : [.freshCount, .regs, .pages, .ras, .flash] ⊆ L) (h : Agree L s0 s) : Agree L s0 (State.retirePc s k pc) := by
  unfold State.retirePc
  refine Agree.ite ?_ ?_
  · refine State.startCopy_agree (sub hL (by decide)) ?_
    refine State.setAwlState_agree (sub hL (by decide)) ?_
    refine State.log_agree (sub hL (by decide)) ?_
    exact h
  · refine Agree.ite ?_ ?_
    · refine State.startCopy_agree (sub hL (by decide)) ?_
      refine State.log_agree (sub hL (by decide)) ?_
      exact h
    · refine Agree.ite ?_ ?_
      · refine State.startCopy_agree (sub hL (by decide)) ?_
        refine State.log_agree (sub hL (by decide)) ?_
        exact h
      · refine State.removeStack_agree (sub hL (by decide)) ?_
        refine State.log_agree (sub hL (by decide)) ?_
        exact h

theorem State.copyDone_agree {L s0 s k} (hL : [.freshCount, .regs, .pages, .ras, .flash] ⊆ L) (h : Agree L s0 s) : Agree L s0 (State.copyDone s k) := by
  unfold State.copyDone
  refine Agree.ite ?_ ?_
  · try dsimp only
    split
    · refine Agree.ite ?_ ?_
      · refine State.startCopy_agree (sub hL (by decide)) ?_
        refine State.setRas_agree (sub hL (by decide)) ?_
        refine State.setFld_agree (sub hL (by decide)) ?_
        refine State.markPc_agree (sub hL (by decide)) ?_
        exact h
      · refine State.removeStack_agree (sub hL (by decide)) ?_
        refine State.setRas_agree (sub hL (by decide)) ?_
        refine State.setFld_agree (sub hL (by decide)) ?_
        refine State.markPc_agree (sub hL (by decide)) ?_
        exact h
    · refine State.setFld_agree (sub hL (by decide)) ?_
      refine State.markPc_agree (sub hL (by decide)) ?_
      exact h
  · exact h

theorem State.loseSectors_agree {L s0 s l} (hL : [.mem, .flash] ⊆ L) (h : Agree L s0 s) : Agree L s0 (State.loseSectors s l) :=
  State.takePoison_agree (sub hL (by decide)) (State.setDurable_agree (sub hL (by decide)) id
    (fun hp => foldl_wf (fun _ _ hx => SMap.set_wf hx) hp) h)

theorem State.retireChannel_agree {L s0 s ch} (hL : [.regs, .mem, .ras, .flash] ⊆ L) (h : Agree L s0 s) : Agree L s0 (State.retireChannel s ch) := by
  unfold State.retireChannel
  refine State.log_agree (sub hL (by decide)) ?_
  refine State.bumpBy_agree (sub hL (by decide)) ?_
  refine State.loseSectors_agree (sub hL (by decide)) ?_
  refine Agree.fold ?_ ?_
  · intro t1 x1 h1
    show Agree L s0 _
    refine Agree.ite ?_ ?_
    · refine State.bumpBy_agree (sub hL (by decide)) ?_
      refine Agree.getD (fun _ ho => ?_) ?_
      · refine State.relocate_agree ho (sub hL (by decide)) ?_
        exact h1
      · exact h1
    · exact h1
  · refine State.setFlash_agree (sub hL (by decide)) ⟨rfl, rfl⟩ ?_
    refine State.log_agree (sub hL (by decide)) ?_
    refine State.setFld_agree (sub hL (by decide)) ?_
    exact h

theorem State.retireBlock_agree {L s0 s kind idx b'} (hL : [.regs, .sched, .ras] ⊆ L) (h : Agree L s0 s) : Agree L s0 (State.retireBlock s kind idx b') := by
  unfold State.retireBlock
  refine Agree.ite ?_ ?_
  · refine State.refuseLost_agree (sub hL (by decide)) ?_
    refine State.mirrorLast_agree (sub hL (by decide)) ?_
    refine State.log_agree (sub hL (by decide)) ?_
    refine State.setRas_agree (sub hL (by decide)) ?_
    refine State.setAwlState_agree (sub hL (by decide)) ?_
    exact h
  · refine State.log_agree (sub hL (by decide)) ?_
    refine State.setRas_agree (sub hL (by decide)) ?_
    refine State.setAwlState_agree (sub hL (by decide)) ?_
    exact h

theorem State.retire_agree {L s0 s x} (hL : [.freshCount, .regs, .mem, .sched, .pages, .ras, .boot, .flash] ⊆ L) (h : Agree L s0 s) : Agree L s0 (State.retire s x) := by
  unfold State.retire
  refine State.faultStruck_agree (sub hL (by decide)) ?_
  try dsimp only
  split
  · refine Agree.ite ?_ ?_
    · refine State.retirePc_agree (sub hL (by decide)) ?_
      refine Agree.boot_write (mem_of hL (by decide)) ?_ _
      refine State.setRas_agree (sub hL (by decide)) ?_
      exact h
    · refine Agree.boot_write (mem_of hL (by decide)) ?_ _
      refine State.setRas_agree (sub hL (by decide)) ?_
      exact h
  · refine Agree.ite ?_ ?_
    · refine State.retireChannel_agree (sub hL (by decide)) ?_
      refine Agree.boot_write (mem_of hL (by decide)) ?_ _
      refine State.setRas_agree (sub hL (by decide)) ?_
      exact h
    · refine Agree.boot_write (mem_of hL (by decide)) ?_ _
      refine State.setRas_agree (sub hL (by decide)) ?_
      exact h
  · refine State.log_agree (sub hL (by decide)) ?_
    refine Agree.boot_write (mem_of hL (by decide)) ?_ _
    refine State.setRas_agree (sub hL (by decide)) ?_
    exact h
  · split
    · refine State.retireBlock_agree (sub hL (by decide)) ?_
      refine Agree.boot_write (mem_of hL (by decide)) ?_ _
      refine State.setRas_agree (sub hL (by decide)) ?_
      exact h
    · refine Agree.boot_write (mem_of hL (by decide)) ?_ _
      refine State.setRas_agree (sub hL (by decide)) ?_
      exact h

theorem State.retireAll_agree {L s0 s} (hL : [.freshCount, .regs, .mem, .sched, .pages, .ras, .boot, .flash] ⊆ L) (h : Agree L s0 s) : Agree L s0 (State.retireAll s) := by
  unfold State.retireAll
  refine Agree.fold ?_ ?_
  · intro t1 x1 h1
    show Agree L s0 _
    refine State.retire_agree (sub hL (by decide)) ?_
    exact h1
  · exact h

theorem State.retirement_agree {L s0 s kind idx} (hL : [.freshCount, .regs, .mem, .sched, .pages, .ras, .boot, .flash] ⊆ L) (h : Agree L s0 s) : Agree L s0 (State.retirement s kind idx) := by
  unfold State.retirement
  refine Agree.ite ?_ ?_
  · refine State.retire_agree (sub hL (by decide)) ?_
    exact h
  · exact h

theorem State.foundWedged_agree {L s0 s kind idx} (hL : [.ras] ⊆ L) (h : Agree L s0 s) : Agree L s0 (State.foundWedged s kind idx) := by
  unfold State.foundWedged
  refine Agree.ite ?_ ?_
  · exact h
  · refine State.setRas_agree (sub hL (by decide)) ?_
    exact h

theorem State.d2dLaneFault_agree {L s0 s shank lane} (hL : [.regs, .ras] ⊆ L) (h : Agree L s0 s) : Agree L s0 (State.d2dLaneFault s shank lane) := by
  unfold State.d2dLaneFault
  refine Agree.ite ?_ ?_
  · refine Agree.ite ?_ ?_
    · refine State.foundWedged_agree (sub hL (by decide)) ?_
      refine State.permEvent_agree (sub hL (by decide)) ?_
      exact h
    · refine State.setRas_agree (sub hL (by decide)) ?_
      refine State.log_agree (sub hL (by decide)) ?_
      refine State.setFld_agree (sub hL (by decide)) ?_
      refine State.permEvent_agree (sub hL (by decide)) ?_
      exact h
  · exact h

theorem State.scrub_agree {L s0 s line stack pc outcome bytes} (hL : [.regs, .mem, .ras] ⊆ L) (h : Agree L s0 s) : Agree L s0 (State.scrub s line stack pc outcome bytes) := by
  unfold State.scrub
  refine Agree.ite ?_ ?_
  · exact h
  · try dsimp only
    split
    · refine State.bump_agree (sub hL (by decide)) ?_
      refine Agree.ite ?_ ?_
      · refine State.log_agree (sub hL (by decide)) ?_
        refine State.bump_agree (sub hL (by decide)) ?_
        exact h
      · refine State.bump_agree (sub hL (by decide)) ?_
        exact h
    · refine Agree.ite ?_ ?_
      · refine Agree.ite ?_ ?_
        · refine State.log_agree (sub hL (by decide)) ?_
          refine State.bump_agree (sub hL (by decide)) ?_
          exact h
        · refine State.bump_agree (sub hL (by decide)) ?_
          exact h
      · refine State.permEvent_agree (sub hL (by decide)) ?_
        refine State.bump_agree (sub hL (by decide)) ?_
        refine State.setRas_agree (sub hL (by decide)) ?_
        refine Agree.ite ?_ ?_
        · refine State.log_agree (sub hL (by decide)) ?_
          refine State.bump_agree (sub hL (by decide)) ?_
          exact h
        · refine State.bump_agree (sub hL (by decide)) ?_
          exact h
    · refine State.permEvent_agree (sub hL (by decide)) ?_
      refine State.log_agree (sub hL (by decide)) ?_
      refine State.markPoison_agree (sub hL (by decide)) ?_
      refine State.bump_agree (sub hL (by decide)) ?_
      exact h
    · exact h

theorem State.readFault_agree {L s0 s ch step} (hL : [.regs, .ras] ⊆ L) (h : Agree L s0 s) : Agree L s0 (State.readFault s ch step) := by
  unfold State.readFault
  refine Agree.ite ?_ ?_
  · refine State.bump_agree (sub hL (by decide)) ?_
    exact h
  · refine Agree.ite ?_ ?_
    · refine State.permEvent_agree (sub hL (by decide)) ?_
      exact h
    · exact h

theorem State.eye_agree {L s0 s wymer lane mv mui} (hL : [.regs, .ras] ⊆ L) (h : Agree L s0 s) : Agree L s0 (State.eye s wymer lane mv mui) := by
  unfold State.eye
  refine Agree.ite ?_ ?_
  · refine State.log_agree (sub hL (by decide)) ?_
    refine Agree.ite ?_ ?_
    · refine State.log_agree (sub hL (by decide)) ?_
      exact h
    · exact h
  · refine Agree.ite ?_ ?_
    · refine State.log_agree (sub hL (by decide)) ?_
      exact h
    · exact h

theorem State.optical_agree {L s0 s m power low} (hL : [.regs, .ras] ⊆ L) (h : Agree L s0 s) : Agree L s0 (State.optical s m power low) := by
  unfold State.optical
  refine Agree.ite ?_ ?_
  · refine State.log_agree (sub hL (by decide)) ?_
    exact h
  · exact h

theorem State.setAwl_agree {L s0 s b' v} (hL : [.ras] ⊆ L) (h : Agree L s0 s) : Agree L s0 (State.setAwl s b' v) := by
  unfold State.setAwl
  refine State.setRas_agree (sub hL (by decide)) ?_
  exact h

theorem State.noteMargin_agree {L s0 s b' r} (hL : [.regs, .ras] ⊆ L) (h : Agree L s0 s) : Agree L s0 (State.noteMargin s b' r) := by
  unfold State.noteMargin
  refine Agree.ite ?_ ?_
  · refine State.log_agree (sub hL (by decide)) ?_
    refine State.setFld_agree (sub hL (by decide)) ?_
    refine State.setFld_agree (sub hL (by decide)) ?_
    refine State.setAwl_agree (sub hL (by decide)) ?_
    exact h
  · refine State.setFld_agree (sub hL (by decide)) ?_
    refine State.setFld_agree (sub hL (by decide)) ?_
    refine State.setAwl_agree (sub hL (by decide)) ?_
    exact h

theorem State.confirmPass_agree {L s0 s b'} (hL : [.regs, .ras] ⊆ L) (h : Agree L s0 s) : Agree L s0 (State.confirmPass s b') := by
  unfold State.confirmPass
  split
  · exact h
  · refine Agree.ite ?_ ?_
    · refine State.bump_agree (sub hL (by decide)) ?_
      refine State.setAwlState_agree (sub hL (by decide)) ?_
      refine State.setRas_agree (sub hL (by decide)) ?_
      exact h
    · refine State.setRas_agree (sub hL (by decide)) ?_
      exact h

theorem State.awlPass_agree {L s0 s b' lv} (hL : [.regs, .ras] ⊆ L) (h : Agree L s0 s) : Agree L s0 (State.awlPass s b' lv) := by
  unfold State.awlPass
  refine State.confirmPass_agree (sub hL (by decide)) ?_
  refine Agree.ite ?_ ?_
  · refine State.setAwl_agree (sub hL (by decide)) ?_
    refine State.noteMargin_agree (sub hL (by decide)) ?_
    refine State.setFld_agree (sub hL (by decide)) ?_
    exact h
  · refine Agree.ite ?_ ?_
    · refine State.setAwl_agree (sub hL (by decide)) ?_
      refine State.noteMargin_agree (sub hL (by decide)) ?_
      refine State.setFld_agree (sub hL (by decide)) ?_
      exact h
    · refine State.setAwl_agree (sub hL (by decide)) ?_
      refine State.noteMargin_agree (sub hL (by decide)) ?_
      refine State.setFld_agree (sub hL (by decide)) ?_
      exact h

theorem State.awlFail_agree {L s0 s b' lv} (hL : [.regs, .ras] ⊆ L) (h : Agree L s0 s) : Agree L s0 (State.awlFail s b' lv) := by
  unfold State.awlFail
  refine Agree.ite ?_ ?_
  · refine State.setAwl_agree (sub hL (by decide)) ?_
    refine State.log_agree (sub hL (by decide)) ?_
    refine State.noteMargin_agree (sub hL (by decide)) ?_
    refine State.bump_agree (sub hL (by decide)) ?_
    exact h
  · refine Agree.ite ?_ ?_
    · refine State.waitRetire_agree (sub hL (by decide)) ?_
      refine State.setRas_agree (sub hL (by decide)) ?_
      refine State.log_agree (sub hL (by decide)) ?_
      refine State.noteMargin_agree (sub hL (by decide)) ?_
      refine State.bump_agree (sub hL (by decide)) ?_
      exact h
    · refine State.suspect_agree (sub hL (by decide)) ?_
      refine State.log_agree (sub hL (by decide)) ?_
      refine State.noteMargin_agree (sub hL (by decide)) ?_
      refine State.bump_agree (sub hL (by decide)) ?_
      exact h

theorem State.awlEnd_agree {L s0 s sid pass} (hL : [.regs, .sched, .ras] ⊆ L) (h : Agree L s0 s) : Agree L s0 (State.awlEnd s sid pass) := by
  unfold State.awlEnd
  split
  · split
    · refine Agree.ite ?_ ?_
      · refine State.awlPass_agree (sub hL (by decide)) ?_
        refine State.bump_agree (sub hL (by decide)) ?_
        refine Agree.sched_write (mem_of hL (by decide)) ?_ _
        exact h
      · refine State.awlFail_agree (sub hL (by decide)) ?_
        refine State.bump_agree (sub hL (by decide)) ?_
        refine Agree.sched_write (mem_of hL (by decide)) ?_ _
        exact h
    · exact h
  · exact h

theorem State.wedge_agree {L s0 s x} (hL : [.regs, .sched, .ras, .fabric] ⊆ L) (h : Agree L s0 s) : Agree L s0 (State.wedge s x) := by
  unfold State.wedge
  refine Agree.ite ?_ ?_
  · refine State.setRas_agree (sub hL (by decide)) ?_
    refine Agree.ite ?_ ?_
    · refine State.setFld_agree (sub hL (by decide)) ?_
      refine State.log_agree (sub hL (by decide)) ?_
      refine State.setFld_agree (sub hL (by decide)) ?_
      refine State.setRas_agree (sub hL (by decide)) ?_
      refine Agree.ite ?_ ?_
      · refine State.requeue_agree (sub hL (by decide)) ?_
        refine State.setPort_agree (sub hL (by decide)) ?_
        refine State.setJobs_agree (sub hL (by decide)) ?_
        exact h
      · refine State.setJobs_agree (sub hL (by decide)) ?_
        exact h
    · refine State.log_agree (sub hL (by decide)) ?_
      refine State.setFld_agree (sub hL (by decide)) ?_
      refine State.setRas_agree (sub hL (by decide)) ?_
      refine Agree.ite ?_ ?_
      · refine State.requeue_agree (sub hL (by decide)) ?_
        refine State.setPort_agree (sub hL (by decide)) ?_
        refine State.setJobs_agree (sub hL (by decide)) ?_
        exact h
      · refine State.setJobs_agree (sub hL (by decide)) ?_
        exact h
  · refine Agree.ite ?_ ?_
    · refine State.setFld_agree (sub hL (by decide)) ?_
      refine State.log_agree (sub hL (by decide)) ?_
      refine State.setFld_agree (sub hL (by decide)) ?_
      refine State.setRas_agree (sub hL (by decide)) ?_
      refine Agree.ite ?_ ?_
      · refine State.requeue_agree (sub hL (by decide)) ?_
        refine State.setPort_agree (sub hL (by decide)) ?_
        refine State.setJobs_agree (sub hL (by decide)) ?_
        exact h
      · refine State.setJobs_agree (sub hL (by decide)) ?_
        exact h
    · refine State.log_agree (sub hL (by decide)) ?_
      refine State.setFld_agree (sub hL (by decide)) ?_
      refine State.setRas_agree (sub hL (by decide)) ?_
      refine Agree.ite ?_ ?_
      · refine State.requeue_agree (sub hL (by decide)) ?_
        refine State.setPort_agree (sub hL (by decide)) ?_
        refine State.setJobs_agree (sub hL (by decide)) ?_
        exact h
      · refine State.setJobs_agree (sub hL (by decide)) ?_
        exact h

theorem State.wedgeAll_agree {L s0 s} (hL : [.regs, .sched, .ras, .fabric] ⊆ L) (h : Agree L s0 s) : Agree L s0 (State.wedgeAll s) := by
  unfold State.wedgeAll
  refine Agree.fold ?_ ?_
  · intro t1 x1 h1
    show Agree L s0 _
    refine State.wedge_agree (sub hL (by decide)) ?_
    exact h1
  · exact h

theorem State.wedged_agree {L s0 s kind idx} (hL : [.ras] ⊆ L) (h : Agree L s0 s) : Agree L s0 (State.wedged s kind idx) := by
  unfold State.wedged
  refine State.foundWedged_agree (sub hL (by decide)) ?_
  exact h

theorem State.thermal_agree {L s0 s x} (hL : [.power, .regs, .ras] ⊆ L) (h : Agree L s0 s) : Agree L s0 (State.thermal s x) := by
  unfold State.thermal
  refine Agree.ite ?_ ?_
  · refine Agree.power_ras_write (mem_of hL (by decide)) (mem_of hL (by decide)) ?_ _ _
    refine State.log_agree (sub hL (by decide)) ?_
    refine State.setFld_agree (sub hL (by decide)) ?_
    refine Agree.fold ?_ ?_
    · intro t1 x1 h1
      show Agree L s0 _
      refine State.setFld_agree (sub hL (by decide)) ?_
      refine Agree.ite ?_ ?_
      · refine State.setFld_agree (sub hL (by decide)) ?_
        refine State.setFld_agree (sub hL (by decide)) ?_
        exact h1
      · refine Agree.ite ?_ ?_
        · refine State.setFld_agree (sub hL (by decide)) ?_
          refine State.setFld_agree (sub hL (by decide)) ?_
          exact h1
        · refine State.setFld_agree (sub hL (by decide)) ?_
          exact h1
    · refine Agree.ite ?_ ?_
      · refine State.faultStruck_agree (sub hL (by decide)) ?_
        refine State.log_agree (sub hL (by decide)) ?_
        refine State.setFld_agree (sub hL (by decide)) ?_
        refine State.setFld_agree (sub hL (by decide)) ?_
        refine State.setFld_agree (sub hL (by decide)) ?_
        exact h
      · refine State.setFld_agree (sub hL (by decide)) ?_
        refine State.setFld_agree (sub hL (by decide)) ?_
        refine State.setFld_agree (sub hL (by decide)) ?_
        exact h
  · refine Agree.fold ?_ ?_
    · intro t2 x2 h2
      show Agree L s0 _
      refine State.setFld_agree (sub hL (by decide)) ?_
      refine Agree.ite ?_ ?_
      · refine State.setFld_agree (sub hL (by decide)) ?_
        refine State.setFld_agree (sub hL (by decide)) ?_
        exact h2
      · refine Agree.ite ?_ ?_
        · refine State.setFld_agree (sub hL (by decide)) ?_
          refine State.setFld_agree (sub hL (by decide)) ?_
          exact h2
        · refine State.setFld_agree (sub hL (by decide)) ?_
          exact h2
    · refine Agree.ite ?_ ?_
      · refine State.faultStruck_agree (sub hL (by decide)) ?_
        refine State.log_agree (sub hL (by decide)) ?_
        refine State.setFld_agree (sub hL (by decide)) ?_
        refine State.setFld_agree (sub hL (by decide)) ?_
        refine State.setFld_agree (sub hL (by decide)) ?_
        exact h
      · refine State.setFld_agree (sub hL (by decide)) ?_
        refine State.setFld_agree (sub hL (by decide)) ?_
        refine State.setFld_agree (sub hL (by decide)) ?_
        exact h

theorem State.eventAck_agree {L s0 s seq} (hL : [.ras] ⊆ L) (h : Agree L s0 s) : Agree L s0 (State.eventAck s seq) := by
  unfold State.eventAck
  refine State.setRas_agree (sub hL (by decide)) ?_
  exact h

theorem State.resendEvents_agree {L s0 s} (hL : [.ras] ⊆ L) (h : Agree L s0 s) : Agree L s0 (State.resendEvents s) := by
  unfold State.resendEvents
  refine Agree.ite ?_ ?_
  · exact h
  · refine State.setRas_agree (sub hL (by decide)) ?_
    exact h

theorem State.mgmtPort_agree {L s0 s down} (hL : [.ras] ⊆ L) (h : Agree L s0 s) : Agree L s0 (State.mgmtPort s down) := by
  unfold State.mgmtPort
  refine Agree.ite ?_ ?_
  · refine State.setRas_agree (sub hL (by decide)) ?_
    exact h
  · refine State.setRas_agree (sub hL (by decide)) ?_
    exact h

theorem State.mctp_agree {L s0 s viaSmbus mtype body} (hL : [.freshCount, .ras] ⊆ L) (h : Agree L s0 s) : Agree L s0 (State.mctp s viaSmbus mtype body) := by
  unfold State.mctp
  refine Agree.ite ?_ ?_
  · refine State.fresh_agree (sub hL (by decide)) ?_
    refine State.setRas_agree (sub hL (by decide)) ?_
    exact h
  · exact h

end Sys2Proof.Machine
end

