-- ==== Sys2Proof/Laws/KeepStart.lean ====
section
/-! SUPPORT. What the operations of Machine/Start.lean may touch. -/

namespace Sys2Proof.Machine

open Sys2Proof

theorem State.setBoot_agree {L s0 s b'} (hL : [.boot] ⊆ L) (h : Agree L s0 s) : Agree L s0 (State.setBoot s b') := by
  unfold State.setBoot
  refine Agree.boot_write (mem_of hL (by decide)) ?_ _
  exact h

theorem State.norWrite_agree {L s0 s a l} (hL : [.boot] ⊆ L) (h : Agree L s0 s) : Agree L s0 (State.norWrite s a l) := by
  unfold State.norWrite
  refine State.setBoot_agree (sub hL (by decide)) ?_
  exact h

theorem State.writeBoot_agree {L s0 s active try_ tried} (hL : [.boot] ⊆ L) (h : Agree L s0 s) : Agree L s0 (State.writeBoot s active try_ tried) := by
  unfold State.writeBoot
  refine State.norWrite_agree (sub hL (by decide)) ?_
  exact h

theorem State.applyImage_agree {L s0 s slot} (hL : [.regs] ⊆ L) (h : Agree L s0 s) : Agree L s0 (State.applyImage s slot) := by
  unfold State.applyImage
  refine State.setFld_agree (sub hL (by decide)) (State.setFld_agree (sub hL (by decide)) (State.setFld_agree (sub hL (by decide))
    (State.setWide_agree (sub hL (by decide)) (State.setFld_agree (sub hL (by decide)) ?_))))
  refine Agree.fold (fun t x ht => State.setFld_agree (sub hL (by decide)) ht) ?_
  exact Agree.regs_write (mem_of hL (by decide)) h _ (fun hc => State.canonical_regs hc (fun hm => foldl_wf (fun m x hx => SMap.set_wf hx) hm))

theorem State.setStart_agree {L s0 s v} (hL : [.regs, .boot, .fabric] ⊆ L) (h : Agree L s0 s) : Agree L s0 (State.setStart s v) := by
  unfold State.setStart
  refine Agree.ite ?_ ?_
  · refine State.send_agree (sub hL (by decide)) ?_
    refine State.setBoot_agree (sub hL (by decide)) ?_
    refine State.setFld_agree (sub hL (by decide)) ?_
    exact h
  · refine State.setBoot_agree (sub hL (by decide)) ?_
    refine State.setFld_agree (sub hL (by decide)) ?_
    exact h

theorem State.halt_agree {L s0 s cause} (hL : [.time, .regs, .boot, .fabric] ⊆ L) (h : Agree L s0 s) : Agree L s0 (State.halt s cause) := by
  unfold State.halt
  refine Agree.time_write (mem_of hL (by decide)) ?_ _
  refine State.setStart_agree (sub hL (by decide)) ?_
  refine State.setFld_agree (sub hL (by decide)) ?_
  exact h

theorem State.coldReset_agree {L s0 s} (hL : [.time, .regs, .latches, .heldMsgs, .linkOut, .mem, .rings, .sched, .colls, .parts, .pages, .ras, .boot, .fabric, .flash, .link, .attn, .emb, .nb] ⊆ L) (h : Agree L s0 s) : Agree L s0 (State.coldReset s) := by
  have hl : Agree [.mem, .pages, .flash] s s.loseMemory := State.loseMemory_agree (fun _ hx => hx) (Agree.refl _ s)
  refine Agree.trans h ?_
  unfold State.coldReset
  refine State.setFld_agree (sub hL (by decide)) (State.setFld_agree (sub hL (by decide)) (State.setFld_agree (sub hL (by decide))
    (State.setFld_agree (sub hL (by decide)) ?_)))
  refine ⟨fun _ => rfl, fun _ => rfl, fun _ => rfl, ?_, ?_, ?_, ?_, ?_, ?_, ?_, ?_, ?_, ?_, ?_, ?_, ?_, ?_, ?_, ?_, ?_, ?_, ?_, Nat.le_refl _, fun hs => ?_⟩
  case refine_20 =>
    have hm := hl.keeps hs
    rw [State.canonical_iff] at hm hs ⊢
    exact ⟨rfl, rfl, hm.2.2.1, rfl, rfl, rfl, hm.2.2.2.2.2.2.1, hs.2.2.2.2.2.2.2.1, hs.2.2.2.2.2.2.2.2⟩
  all_goals exact fun hn => absurd (mem_of hL (by decide)) hn

theorem State.bootOrder_agree {L s0 s} (hL : [.regs, .boot] ⊆ L) (h : Agree L s0 s) : Agree L s0 (State.bootOrder s).1 := by
  unfold State.bootOrder
  refine Agree.iteFst ?_ ?_
  · refine State.writeBoot_agree (sub hL (by decide)) ?_
    exact h
  · refine Agree.iteFst ?_ ?_
    · refine State.setFld_agree (sub hL (by decide)) ?_
      refine State.writeBoot_agree (sub hL (by decide)) ?_
      exact h
    · exact h

theorem State.runRom_agree {L s0 s} (hL : [.time, .regs, .boot, .fabric] ⊆ L) (h : Agree L s0 s) : Agree L s0 (State.runRom s) := by
  unfold State.runRom
  try dsimp only
  split
  · refine State.halt_agree (sub hL (by decide)) ?_
    refine State.bootOrder_agree (sub hL (by decide)) ?_
    exact h
  · refine Agree.time_write (mem_of hL (by decide)) ?_ _
    refine State.setFld_agree (sub hL (by decide)) ?_
    refine State.setFld_agree (sub hL (by decide)) ?_
    refine State.applyImage_agree (sub hL (by decide)) ?_
    refine State.bootOrder_agree (sub hL (by decide)) ?_
    exact h

theorem State.resetRelease_agree {L s0 s} (hL : [.power, .time, .regs, .boot, .fabric] ⊆ L) (h : Agree L s0 s) : Agree L s0 (State.resetRelease s) := by
  unfold State.resetRelease
  refine Agree.ite ?_ ?_
  · refine Agree.ite ?_ ?_
    · refine State.runRom_agree (sub hL (by decide)) ?_
      refine Agree.power_write (mem_of hL (by decide)) ?_ _
      exact h
    · refine Agree.power_write (mem_of hL (by decide)) ?_ _
      exact h
  · exact h

theorem State.nodeReset_agree {L s0 s ns} (hL : [.power, .time, .regs, .latches, .heldMsgs, .linkOut, .mem, .rings, .sched, .colls, .parts, .pages, .ras, .boot, .fabric, .flash, .link, .attn, .emb, .nb] ⊆ L) (h : Agree L s0 s) : Agree L s0 (State.nodeReset s ns) := by
  unfold State.nodeReset
  refine Agree.ite ?_ ?_
  · refine Agree.power_write (mem_of hL (by decide)) ?_ _
    refine State.coldReset_agree (sub hL (by decide)) ?_
    exact h
  · exact h

theorem State.powerDown_agree {L s0 s} (hL : [.power, .time, .regs, .latches, .heldMsgs, .linkOut, .mem, .rings, .sched, .colls, .parts, .pages, .ras, .boot, .fabric, .flash, .link, .attn, .emb, .nb] ⊆ L) (h : Agree L s0 s) : Agree L s0 (State.powerDown s) := by
  unfold State.powerDown
  refine Agree.power_write (mem_of hL (by decide)) ?_ _
  refine State.coldReset_agree (sub hL (by decide)) ?_
  exact h

theorem State.setPower_agree {L s0 s p} (hL : [.power] ⊆ L) (h : Agree L s0 s) : Agree L s0 (State.setPower s p) := by
  unfold State.setPower
  refine Agree.power_write (mem_of hL (by decide)) ?_ _
  exact h

theorem State.modEnAssert_agree {L s0 s} (hL : [.power] ⊆ L) (h : Agree L s0 s) : Agree L s0 (State.modEnAssert s) := by
  unfold State.modEnAssert
  refine Agree.ite ?_ ?_
  · exact h
  · refine State.setPower_agree (sub hL (by decide)) ?_
    exact h

theorem State.rampDone_agree {L s0 s} (hL : [.power, .time, .regs, .boot, .fabric] ⊆ L) (h : Agree L s0 s) : Agree L s0 (State.rampDone s) := by
  unfold State.rampDone
  refine Agree.ite ?_ ?_
  · refine Agree.ite ?_ ?_
    · refine State.setPower_agree (sub hL (by decide)) ?_
      exact h
    · refine State.runRom_agree (sub hL (by decide)) ?_
      refine State.setPower_agree (sub hL (by decide)) ?_
      refine State.setPower_agree (sub hL (by decide)) ?_
      exact h
  · exact h

theorem State.modEnDeassert_agree {L s0 s} (hL : [.power, .time, .regs, .latches, .heldMsgs, .linkOut, .mem, .rings, .sched, .colls, .parts, .pages, .ras, .boot, .fabric, .flash, .link, .attn, .emb, .nb] ⊆ L) (h : Agree L s0 s) : Agree L s0 (State.modEnDeassert s) := by
  unfold State.modEnDeassert
  refine Agree.ite ?_ ?_
  · refine State.setPower_agree (sub hL (by decide)) ?_
    refine Agree.ite ?_ ?_
    · refine State.powerDown_agree (sub hL (by decide)) ?_
      exact h
    · exact h
  · exact h

theorem State.shutOff_agree {L s0 s} (hL : [.power, .time, .regs, .latches, .heldMsgs, .linkOut, .mem, .rings, .sched, .colls, .parts, .pages, .ras, .boot, .fabric, .flash, .link, .attn, .emb, .nb] ⊆ L) (h : Agree L s0 s) : Agree L s0 (State.shutOff s) := by
  unfold State.shutOff
  refine State.setPower_agree (sub hL (by decide)) ?_
  refine State.powerDown_agree (sub hL (by decide)) ?_
  exact h

theorem State.railOut_agree {L s0 s} (hL : [.power, .time, .regs, .latches, .heldMsgs, .linkOut, .mem, .rings, .sched, .colls, .parts, .pages, .ras, .boot, .fabric, .flash, .link, .attn, .emb, .nb] ⊆ L) (h : Agree L s0 s) : Agree L s0 (State.railOut s) := by
  unfold State.railOut
  refine Agree.ite ?_ ?_
  · refine State.shutOff_agree (sub hL (by decide)) ?_
    exact h
  · exact h

theorem State.undervoltage_agree {L s0 s ns} (hL : [.power, .time, .regs, .latches, .heldMsgs, .linkOut, .mem, .rings, .sched, .colls, .parts, .pages, .ras, .boot, .fabric, .flash, .link, .attn, .emb, .nb] ⊆ L) (h : Agree L s0 s) : Agree L s0 (State.undervoltage s ns) := by
  unfold State.undervoltage
  refine Agree.ite ?_ ?_
  · refine Agree.ite ?_ ?_
    · refine State.shutOff_agree (sub hL (by decide)) ?_
      exact h
    · refine State.setPower_agree (sub hL (by decide)) ?_
      exact h
  · exact h

theorem State.thermalShutdown_agree {L s0 s dieC stackC} (hL : [.power, .time, .regs, .latches, .heldMsgs, .linkOut, .mem, .rings, .sched, .colls, .parts, .pages, .ras, .boot, .fabric, .flash, .link, .attn, .emb, .nb] ⊆ L) (h : Agree L s0 s) : Agree L s0 (State.thermalShutdown s dieC stackC) := by
  unfold State.thermalShutdown
  refine Agree.ite ?_ ?_
  · refine Agree.ite ?_ ?_
    · refine State.shutOff_agree (sub hL (by decide)) ?_
      exact h
    · exact h
  · exact h

theorem State.applyRecord_agree {L s0 s x} (hL : [.regs, .ras, .link] ⊆ L) (h : Agree L s0 s) : Agree L s0 (State.applyRecord s x) := by
  unfold State.applyRecord
  try dsimp only
  split
  · refine Agree.ite ?_ ?_
    · exact h
    · refine Agree.ite ?_ ?_
      · refine State.setAwlState_agree (sub hL (by decide)) ?_
        refine State.markPc_agree (sub hL (by decide)) ?_
        exact h
      · refine State.markPc_agree (sub hL (by decide)) ?_
        exact h
  · refine Agree.ite ?_ ?_
    · refine State.setFld_agree (sub hL (by decide)) ?_
      exact h
    · exact h
  · refine Agree.ite ?_ ?_
    · refine State.setPort_agree (sub hL (by decide)) ?_
      exact h
    · exact h
  · refine Agree.ite ?_ ?_
    · refine State.setFld_agree (sub hL (by decide)) ?_
      exact h
    · refine State.setLink_agree (sub hL (by decide)) ?_
      refine State.setFld_agree (sub hL (by decide)) ?_
      refine State.setFld_agree (sub hL (by decide)) ?_
      exact h
  · refine State.setFld_agree (sub hL (by decide)) ?_
    exact h
  · split
    · refine State.setFld_agree (sub hL (by decide)) ?_
      refine State.setAwlState_agree (sub hL (by decide)) ?_
      exact h
    · exact h

theorem State.enterTrain_agree {L s0 s} (hL : [.regs, .ras, .boot, .fabric, .link] ⊆ L) (h : Agree L s0 s) : Agree L s0 (State.enterTrain s) := by
  unfold State.enterTrain
  refine Agree.ite ?_ ?_
  · refine Agree.fold ?_ ?_
    · intro t1 x1 h1
      show Agree L s0 _
      refine State.applyRecord_agree (sub hL (by decide)) ?_
      exact h1
    · refine State.setStart_agree (sub hL (by decide)) ?_
      exact h
  · refine State.log_agree (sub hL (by decide)) ?_
    refine State.setRas_agree (sub hL (by decide)) ?_
    refine State.setStart_agree (sub hL (by decide)) ?_
    exact h

theorem State.noteChannel_agree {L s0 s c} (hL : [.regs] ⊆ L) (h : Agree L s0 s) : Agree L s0 (State.noteChannel s c) := by
  unfold State.noteChannel
  refine State.setFld_agree (sub hL (by decide)) ?_
  refine State.setFld_agree (sub hL (by decide)) ?_
  refine State.setFld_agree (sub hL (by decide)) ?_
  exact h

theorem State.logUnused_agree {L s0 s cs} (hL : [.regs, .ras] ⊆ L) (h : Agree L s0 s) : Agree L s0 (State.logUnused s cs) := by
  unfold State.logUnused
  refine Agree.fold ?_ ?_
  · intro t1 x1 h1
    show Agree L s0 _
    refine Agree.fold ?_ ?_
    · intro t2 x2 h2
      show Agree L s0 _
      refine State.log_agree (sub hL (by decide)) ?_
      exact h2
    · exact h1
  · exact h

theorem State.trainingDone_agree {L s0 s d2dOk channels} (hL : [.time, .regs, .ras, .boot, .fabric] ⊆ L) (h : Agree L s0 s) : Agree L s0 (State.trainingDone s d2dOk channels) := by
  unfold State.trainingDone
  refine Agree.ite ?_ ?_
  · exact h
  · refine Agree.ite ?_ ?_
    · refine State.halt_agree (sub hL (by decide)) ?_
      exact h
    · refine State.setStart_agree (sub hL (by decide)) ?_
      refine State.logUnused_agree (sub hL (by decide)) ?_
      refine Agree.fold ?_ ?_
      · intro t1 x1 h1
        show Agree L s0 _
        refine State.noteChannel_agree (sub hL (by decide)) ?_
        exact h1
      · refine Agree.fold ?_ ?_
        · intro t2 x2 h2
          show Agree L s0 _
          refine Agree.ite ?_ ?_
          · refine State.setFld_agree (sub hL (by decide)) ?_
            exact h2
          · exact h2
        · exact h

theorem State.marchResult_agree {L s0 s t'} (hL : [.regs, .ras] ⊆ L) (h : Agree L s0 s) : Agree L s0 (State.marchResult s t') := by
  unfold State.marchResult
  refine Agree.ite ?_ ?_
  · exact h
  · refine Agree.fold ?_ ?_
    · intro t1 x1 h1
      show Agree L s0 _
      refine Agree.ite ?_ ?_
      · refine State.waitRetire_agree (sub hL (by decide)) ?_
        exact h1
      · exact h1
    · refine State.setFld_agree (sub hL (by decide)) ?_
      refine State.setFld_agree (sub hL (by decide)) ?_
      refine State.setFld_agree (sub hL (by decide)) ?_
      refine State.setFld_agree (sub hL (by decide)) ?_
      exact h

theorem State.sramResult_agree {L s0 s t'} (hL : [.time, .regs, .boot, .fabric] ⊆ L) (h : Agree L s0 s) : Agree L s0 (State.sramResult s t') := by
  unfold State.sramResult
  refine Agree.ite ?_ ?_
  · refine State.halt_agree (sub hL (by decide)) ?_
    refine State.setFld_agree (sub hL (by decide)) ?_
    refine State.setFld_agree (sub hL (by decide)) ?_
    refine State.setFld_agree (sub hL (by decide)) ?_
    refine State.setFld_agree (sub hL (by decide)) ?_
    exact h
  · refine Agree.ite ?_ ?_
    · refine State.halt_agree (sub hL (by decide)) ?_
      refine State.setFld_agree (sub hL (by decide)) ?_
      refine State.setFld_agree (sub hL (by decide)) ?_
      refine State.setFld_agree (sub hL (by decide)) ?_
      refine State.setFld_agree (sub hL (by decide)) ?_
      exact h
    · refine State.setFld_agree (sub hL (by decide)) ?_
      refine State.setFld_agree (sub hL (by decide)) ?_
      refine State.setFld_agree (sub hL (by decide)) ?_
      refine State.setFld_agree (sub hL (by decide)) ?_
      exact h

theorem State.bistWave_agree {L s0 s w} (hL : [.time, .regs, .ras, .boot, .fabric] ⊆ L) (h : Agree L s0 s) : Agree L s0 (State.bistWave s w) := by
  unfold State.bistWave
  refine Agree.ite ?_ ?_
  · exact h
  · refine Agree.ite ?_ ?_
    · refine State.halt_agree (sub hL (by decide)) ?_
      refine Agree.fold ?_ ?_
      · intro t1 x1 h1
        show Agree L s0 _
        refine Agree.ite ?_ ?_
        · exact h1
        · refine Agree.ite ?_ ?_
          · refine State.waitRetire_agree (sub hL (by decide)) ?_
            refine State.setFld_agree (sub hL (by decide)) ?_
            exact h1
          · refine State.setFld_agree (sub hL (by decide)) ?_
            exact h1
      · refine Agree.fold ?_ ?_
        · intro t2 x2 h2
          show Agree L s0 _
          refine State.marchResult_agree (sub hL (by decide)) ?_
          exact h2
        · refine Agree.fold ?_ ?_
          · intro t3 x3 h3
            show Agree L s0 _
            refine Agree.ite ?_ ?_
            · exact h3
            · refine Agree.ite ?_ ?_
              · refine State.setBoot_agree (sub hL (by decide)) ?_
                refine State.setFld_agree (sub hL (by decide)) ?_
                exact h3
              · refine State.setFld_agree (sub hL (by decide)) ?_
                exact h3
          · refine State.bumpBy_agree (sub hL (by decide)) ?_
            refine State.bump_agree (sub hL (by decide)) ?_
            exact h
    · try dsimp only
      split
      · refine State.sramResult_agree (sub hL (by decide)) ?_
        refine Agree.fold ?_ ?_
        · intro t4 x4 h4
          show Agree L s0 _
          refine Agree.ite ?_ ?_
          · exact h4
          · refine Agree.ite ?_ ?_
            · refine State.waitRetire_agree (sub hL (by decide)) ?_
              refine State.setFld_agree (sub hL (by decide)) ?_
              exact h4
            · refine State.setFld_agree (sub hL (by decide)) ?_
              exact h4
        · refine Agree.fold ?_ ?_
          · intro t5 x5 h5
            show Agree L s0 _
            refine State.marchResult_agree (sub hL (by decide)) ?_
            exact h5
          · refine Agree.fold ?_ ?_
            · intro t6 x6 h6
              show Agree L s0 _
              refine Agree.ite ?_ ?_
              · exact h6
              · refine Agree.ite ?_ ?_
                · refine State.setBoot_agree (sub hL (by decide)) ?_
                  refine State.setFld_agree (sub hL (by decide)) ?_
                  exact h6
                · refine State.setFld_agree (sub hL (by decide)) ?_
                  exact h6
            · refine State.bumpBy_agree (sub hL (by decide)) ?_
              refine State.bump_agree (sub hL (by decide)) ?_
              exact h
      · refine Agree.fold ?_ ?_
        · intro t7 x7 h7
          show Agree L s0 _
          refine Agree.ite ?_ ?_
          · exact h7
          · refine Agree.ite ?_ ?_
            · refine State.waitRetire_agree (sub hL (by decide)) ?_
              refine State.setFld_agree (sub hL (by decide)) ?_
              exact h7
            · refine State.setFld_agree (sub hL (by decide)) ?_
              exact h7
        · refine Agree.fold ?_ ?_
          · intro t8 x8 h8
            show Agree L s0 _
            refine State.marchResult_agree (sub hL (by decide)) ?_
            exact h8
          · refine Agree.fold ?_ ?_
            · intro t9 x9 h9
              show Agree L s0 _
              refine Agree.ite ?_ ?_
              · exact h9
              · refine Agree.ite ?_ ?_
                · refine State.setBoot_agree (sub hL (by decide)) ?_
                  refine State.setFld_agree (sub hL (by decide)) ?_
                  exact h9
                · refine State.setFld_agree (sub hL (by decide)) ?_
                  exact h9
            · refine State.bumpBy_agree (sub hL (by decide)) ?_
              refine State.bump_agree (sub hL (by decide)) ?_
              exact h

theorem State.waveSplit_agree {L s0 s powerW} (hL : [.regs] ⊆ L) (h : Agree L s0 s) : Agree L s0 (State.waveSplit s powerW) := by
  unfold State.waveSplit
  refine Agree.ite ?_ ?_
  · refine State.bump_agree (sub hL (by decide)) ?_
    exact h
  · exact h

theorem State.retestWave_agree {L s0 s b' pass} (hL : [.regs, .ras, .boot] ⊆ L) (h : Agree L s0 s) : Agree L s0 (State.retestWave s b' pass) := by
  unfold State.retestWave
  refine Agree.ite ?_ ?_
  · refine Agree.ite ?_ ?_
    · refine State.log_agree (sub hL (by decide)) ?_
      refine State.bump_agree (sub hL (by decide)) ?_
      refine State.setFld_agree (sub hL (by decide)) ?_
      refine State.setBoot_agree (sub hL (by decide)) ?_
      refine Agree.ite ?_ ?_
      · exact h
      · refine State.bump_agree (sub hL (by decide)) ?_
        exact h
    · refine State.waitRetire_agree (sub hL (by decide)) ?_
      refine State.setFld_agree (sub hL (by decide)) ?_
      refine State.setBoot_agree (sub hL (by decide)) ?_
      refine Agree.ite ?_ ?_
      · exact h
      · refine State.bump_agree (sub hL (by decide)) ?_
        exact h
  · exact h

theorem State.startScan_agree {L s0 s sbTotal userGb} (hL : [.regs, .boot, .flash] ⊆ L) (h : Agree L s0 s) : Agree L s0 (State.startScan s sbTotal userGb) := by
  unfold State.startScan
  refine Agree.ite ?_ ?_
  · refine State.setBoot_agree (sub hL (by decide)) ?_
    refine State.mapRebuild_agree (sub hL (by decide)) ?_
    exact h
  · exact h

theorem State.enterRebuild_agree {L s0 s} (hL : [.regs, .boot, .fabric] ⊆ L) (h : Agree L s0 s) : Agree L s0 (State.enterRebuild s) := by
  unfold State.enterRebuild
  refine Agree.ite ?_ ?_
  · refine State.setStart_agree (sub hL (by decide)) ?_
    exact h
  · exact h

theorem State.halfSole1_agree {L s0 s} (hL : [.regs, .boot, .fabric] ⊆ L) (h : Agree L s0 s) : Agree L s0 (State.halfSole1 s) := by
  unfold State.halfSole1
  refine Agree.ite ?_ ?_
  · refine State.setFld_agree (sub hL (by decide)) ?_
    refine State.setStart_agree (sub hL (by decide)) ?_
    exact h
  · exact h

theorem State.halfSole2_agree {L s0 s} (hL : [.regs, .boot, .fabric] ⊆ L) (h : Agree L s0 s) : Agree L s0 (State.halfSole2 s) := by
  unfold State.halfSole2
  refine Agree.ite ?_ ?_
  · refine State.setFld_agree (sub hL (by decide)) ?_
    refine State.setStart_agree (sub hL (by decide)) ?_
    exact h
  · exact h

theorem State.full_agree {L s0 s} (hL : [.regs, .boot, .fabric] ⊆ L) (h : Agree L s0 s) : Agree L s0 (State.full s) := by
  unfold State.full
  refine Agree.ite ?_ ?_
  · refine Agree.ite ?_ ?_
    · refine State.writeBoot_agree (sub hL (by decide)) ?_
      refine State.setFld_agree (sub hL (by decide)) ?_
      refine State.setStart_agree (sub hL (by decide)) ?_
      exact h
    · refine State.setFld_agree (sub hL (by decide)) ?_
      refine State.setStart_agree (sub hL (by decide)) ?_
      exact h
  · exact h

theorem State.advanceStart_agree {L s0 s} (hL : [.regs, .boot, .fabric] ⊆ L) (h : Agree L s0 s) : Agree L s0 (State.advanceStart s) := by
  unfold State.advanceStart
  split
  · refine State.enterRebuild_agree (sub hL (by decide)) ?_
    exact h
  · refine State.halfSole1_agree (sub hL (by decide)) ?_
    exact h
  · refine State.halfSole2_agree (sub hL (by decide)) ?_
    exact h
  · refine State.full_agree (sub hL (by decide)) ?_
    exact h
  · exact h

end Sys2Proof.Machine
end

