-- ==== Sys2Proof/Laws/KeepMailbox.lean ====
section
/-! SUPPORT. What the operations of Machine/Mailbox.lean may touch. -/

namespace Sys2Proof.Machine

open Sys2Proof

theorem State.mbFinish_agree {L s0 s st out} (hL : [.regs] ⊆ L) (h : Agree L s0 s) : Agree L s0 (State.mbFinish s st out) := by
  unfold State.mbFinish
  refine State.setFld_agree (sub hL (by decide)) ?_
  refine State.bump_agree (sub hL (by decide)) ?_
  refine State.setFld_agree (sub hL (by decide)) ?_
  refine State.setFld_agree (sub hL (by decide)) ?_
  refine State.setRegs_agree (sub hL (by decide)) ?_
  exact h

theorem State.mbRun_agree {L s0 s code f} (hL : [.regs] ⊆ L) (hf : ∀ y t b, f y = some (t, b) → Agree L s0 y → Agree L s0 t)
    (h : Agree L s0 s) : Agree L s0 (State.mbRun s code f) := by
  unfold State.mbRun
  refine Agree.ite ?_ h
  split
  · exact State.mbFinish_agree (sub hL (by decide)) (hf _ _ _ (by assumption) h)
  · exact State.mbFinish_agree (sub hL (by decide)) h

theorem State.mbStart_agree {L s0 s code} (hL : [.regs] ⊆ L) (h : Agree L s0 s) : Agree L s0 (State.mbStart s code) := by
  unfold State.mbStart
  refine Agree.ite ?_ ?_
  · refine State.setFld_agree (sub hL (by decide)) ?_
    refine State.setFld_agree (sub hL (by decide)) ?_
    exact h
  · refine State.mbFinish_agree (sub hL (by decide)) ?_
    refine State.setFld_agree (sub hL (by decide)) ?_
    refine State.setFld_agree (sub hL (by decide)) ?_
    exact h

theorem State.getInfo_agree {L s0 s t b} (he : State.getInfo s = some (t, b)) (_ : ([] : List Area) ⊆ L) (h : Agree L s0 s) : Agree L s0 t := by
  unfold State.getInfo at he
  try dsimp only at he
  obtain ⟨rfl, -⟩ := Prod.mk.inj (Option.some.inj he)
  exact h

theorem State.slotWrite_agree {L s0 s t b} (he : State.slotWrite s = some (t, b)) (hL : [.boot] ⊆ L) (h : Agree L s0 s) : Agree L s0 t := by
  unfold State.slotWrite at he
  try dsimp only at he
  split at he
  · cases he
  · obtain ⟨rfl, -⟩ := Prod.mk.inj (Option.some.inj he)
    refine State.norWrite_agree (sub hL (by decide)) ?_
    refine State.setBoot_agree (sub hL (by decide)) ?_
    exact h

theorem State.slotTry_agree {L s0 s t b} (he : State.slotTry s = some (t, b)) (hL : [.boot] ⊆ L) (h : Agree L s0 s) : Agree L s0 t := by
  unfold State.slotTry at he
  try dsimp only at he
  split at he
  · cases he
  · obtain ⟨rfl, -⟩ := Prod.mk.inj (Option.some.inj he)
    refine State.writeBoot_agree (sub hL (by decide)) ?_
    exact h

theorem State.retireRead_agree {L s0 s t b} (he : State.retireRead s = some (t, b)) (_ : ([] : List Area) ⊆ L) (h : Agree L s0 s) : Agree L s0 t := by
  unfold State.retireRead at he
  try dsimp only at he
  split at he
  · obtain ⟨rfl, -⟩ := Prod.mk.inj (Option.some.inj he)
    exact h
  · cases he

theorem State.retireClear_agree {L s0 s t b} (he : State.retireClear s = some (t, b)) (hL : [.ras] ⊆ L) (h : Agree L s0 s) : Agree L s0 t := by
  unfold State.retireClear at he
  try dsimp only at he
  split at he
  · obtain ⟨rfl, -⟩ := Prod.mk.inj (Option.some.inj he)
    refine State.setRas_agree (sub hL (by decide)) ?_
    exact h
  · cases he

theorem State.setKey_agree {L s0 s d k} (hL : [.regs, .boot] ⊆ L) (h : Agree L s0 s) : Agree L s0 (State.setKey s d k) := by
  unfold State.setKey
  refine State.setFld_agree (sub hL (by decide)) ?_
  refine State.setBoot_agree (sub hL (by decide)) ?_
  exact h

theorem State.keyGen_agree {L s0 s t b} (he : State.keyGen s = some (t, b)) (hL : [.regs, .boot] ⊆ L) (h : Agree L s0 s) : Agree L s0 t := by
  unfold State.keyGen at he
  try dsimp only at he
  split at he
  · cases he
  · obtain ⟨rfl, -⟩ := Prod.mk.inj (Option.some.inj he)
    refine State.setBoot_agree (sub hL (by decide)) ?_
    refine State.setKey_agree (sub hL (by decide)) ?_
    exact h

theorem State.keyImport_agree {L s0 s t b} (he : State.keyImport s = some (t, b)) (hL : [.regs, .boot] ⊆ L) (h : Agree L s0 s) : Agree L s0 t := by
  unfold State.keyImport at he
  try dsimp only at he
  split at he
  · cases he
  · obtain ⟨rfl, -⟩ := Prod.mk.inj (Option.some.inj he)
    refine State.setKey_agree (sub hL (by decide)) ?_
    exact h

theorem State.keyLoad_agree {L s0 s t b} (he : State.keyLoad s = some (t, b)) (hL : [.regs, .boot] ⊆ L) (h : Agree L s0 s) : Agree L s0 t := by
  unfold State.keyLoad at he
  try dsimp only at he
  split at he
  · cases he
  · split at he
    · split at he
      · obtain ⟨rfl, -⟩ := Prod.mk.inj (Option.some.inj he)
        refine State.setKey_agree (sub hL (by decide)) ?_
        exact h
      · cases he
    · cases he

theorem State.keyErase_agree {L s0 s t b} (he : State.keyErase s = some (t, b)) (hL : [.regs, .boot] ⊆ L) (h : Agree L s0 s) : Agree L s0 t := by
  unfold State.keyErase at he
  try dsimp only at he
  split at he
  · cases he
  · obtain ⟨rfl, -⟩ := Prod.mk.inj (Option.some.inj he)
    refine State.setKey_agree (sub hL (by decide)) ?_
    exact h

theorem State.imageKeyProvision_agree {L s0 s t b} (he : State.imageKeyProvision s = some (t, b)) (hL : [.regs, .boot] ⊆ L) (h : Agree L s0 s) : Agree L s0 t := by
  unfold State.imageKeyProvision at he
  try dsimp only at he
  split at he
  · split at he
    · obtain ⟨rfl, -⟩ := Prod.mk.inj (Option.some.inj he)
      refine State.setFld_agree (sub hL (by decide)) ?_
      refine State.setBoot_agree (sub hL (by decide)) ?_
      exact h
    · cases he
  · cases he

theorem State.imageKeyRevoke_agree {L s0 s t b} (he : State.imageKeyRevoke s = some (t, b)) (hL : [.regs] ⊆ L) (h : Agree L s0 s) : Agree L s0 t := by
  unfold State.imageKeyRevoke at he
  try dsimp only at he
  split at he
  · obtain ⟨rfl, -⟩ := Prod.mk.inj (Option.some.inj he)
    refine State.setFld_agree (sub hL (by decide)) ?_
    exact h
  · cases he

theorem State.secFloorRaise_agree {L s0 s t b} (he : State.secFloorRaise s = some (t, b)) (hL : [.regs] ⊆ L) (h : Agree L s0 s) : Agree L s0 t := by
  unfold State.secFloorRaise at he
  try dsimp only at he
  split at he
  · obtain ⟨rfl, -⟩ := Prod.mk.inj (Option.some.inj he)
    refine State.setFld_agree (sub hL (by decide)) ?_
    exact h
  · cases he

theorem State.reserveLeaf_agree {L s0 s leaf} (hL : [.regs, .boot] ⊆ L) (h : Agree L s0 s) : Agree L s0 (State.reserveLeaf s leaf) := by
  unfold State.reserveLeaf
  refine Agree.ite ?_ ?_
  · exact h
  · refine State.norWrite_agree (sub hL (by decide)) ?_
    refine Agree.ite ?_ ?_
    · refine State.setFld_agree (sub hL (by decide)) ?_
      exact h
    · exact h

theorem State.attestQuote_agree {L s0 s sinceS t b} (he : State.attestQuote s sinceS = some (t, b)) (hL : [.regs, .boot] ⊆ L) (h : Agree L s0 s) : Agree L s0 t := by
  unfold State.attestQuote at he
  try dsimp only at he
  split at he
  · cases he
  · obtain ⟨rfl, -⟩ := Prod.mk.inj (Option.some.inj he)
    refine State.bump_agree (sub hL (by decide)) ?_
    refine State.setFld_agree (sub hL (by decide)) ?_
    refine State.reserveLeaf_agree (sub hL (by decide)) ?_
    exact h

theorem State.attestCert_agree {L s0 s t b} (he : State.attestCert s = some (t, b)) (_ : ([] : List Area) ⊆ L) (h : Agree L s0 s) : Agree L s0 t := by
  unfold State.attestCert at he
  try dsimp only at he
  obtain ⟨rfl, -⟩ := Prod.mk.inj (Option.some.inj he)
  exact h

theorem State.cacheRebuilt_agree {L s0 s} (hL : [.regs] ⊆ L) (h : Agree L s0 s) : Agree L s0 (State.cacheRebuilt s) := by
  unfold State.cacheRebuilt
  refine State.setFld_agree (sub hL (by decide)) ?_
  exact h

end Sys2Proof.Machine
end

