-- ==== Sys2Proof/Laws/KeepRegs.lean ====
section
/-! SUPPORT. What the operations of Machine/Regs.lean may touch. -/

namespace Sys2Proof.Machine

open Sys2Proof

theorem State.regRead_agree {L s0 s reader a} (hL : [.latches] ⊆ L) (h : Agree L s0 s) : Agree L s0 (State.regRead s reader a).1 := by
  unfold State.regRead
  split
  · refine Agree.latches_write (mem_of hL (by decide)) ?_ _ (fun hc => State.canonical_latches hc SMap.set_wf)
    exact h
  · refine Agree.iteFst ?_ ?_
    · exact h
    · exact h

theorem State.putRows_agree {L s0 a w l} : ∀ {s}, ([.regs] ⊆ L) → Agree L s0 s → Agree L s0 (State.putRows s a w l) := by
  induction l with
  | nil => intro s _ h; exact h
  | cons x t ih =>
    intro s hL h
    refine ih hL ?_
    split
    · exact State.setFld_agree (sub hL (by decide)) h
    · exact State.setFld_agree (sub hL (by decide)) h
    · exact h
    · exact h
    · exact h

theorem State.shadowPut_agree {L s0 s a w} (hL : [.regs] ⊆ L) (h : Agree L s0 s) : Agree L s0 (State.shadowPut s a w) := by
  unfold State.shadowPut
  refine Agree.ite ?_ ?_
  · refine State.setFld_agree (sub hL (by decide)) ?_
    exact h
  · refine Agree.fold ?_ ?_
    · intro t1 x1 h1
      show Agree L s0 _
      refine State.setFld_agree (sub hL (by decide)) ?_
      exact h1
    · exact h

theorem State.regWrite_agree {L s0 s a w} (hL : [.freshCount, .regs, .linkOut, .mem, .pages, .ras, .flash, .link, .nb] ⊆ L) (h : Agree L s0 s) : Agree L s0 (State.regWrite s a w) := by
  unfold State.regWrite
  refine Agree.ite ?_ ?_
  · refine Agree.ite ?_ ?_
    · refine State.accessErr_agree (sub hL (by decide)) ?_
      exact h
    · refine State.shadowPut_agree (sub hL (by decide)) ?_
      exact h
  · refine Agree.ite ?_ ?_
    · refine State.accessErr_agree (sub hL (by decide)) ?_
      exact h
    · refine Agree.ite ?_ ?_
      · refine State.mbStart_agree (sub hL (by decide)) ?_
        refine Agree.ite ?_ ?_
        · refine State.accessErr_agree (sub hL (by decide)) ?_
          refine State.putRows_agree (sub hL (by decide)) ?_
          exact h
        · refine State.putRows_agree (sub hL (by decide)) ?_
          exact h
      · refine Agree.ite ?_ ?_
        · refine State.kill_agree (sub hL (by decide)) ?_
          refine Agree.ite ?_ ?_
          · refine State.accessErr_agree (sub hL (by decide)) ?_
            refine State.putRows_agree (sub hL (by decide)) ?_
            exact h
          · refine State.putRows_agree (sub hL (by decide)) ?_
            exact h
        · refine Agree.ite ?_ ?_
          · refine State.revive_agree (sub hL (by decide)) ?_
            refine Agree.ite ?_ ?_
            · refine State.accessErr_agree (sub hL (by decide)) ?_
              refine State.putRows_agree (sub hL (by decide)) ?_
              exact h
            · refine State.putRows_agree (sub hL (by decide)) ?_
              exact h
          · refine Agree.ite ?_ ?_
            · refine State.accessErr_agree (sub hL (by decide)) ?_
              refine State.putRows_agree (sub hL (by decide)) ?_
              exact h
            · refine State.putRows_agree (sub hL (by decide)) ?_
              exact h

theorem State.regAnswer_agree {L s0 s agent x} (hL : [.linkOut] ⊆ L) (h : Agree L s0 s) : Agree L s0 (State.regAnswer s agent x) := by
  unfold State.regAnswer
  refine Agree.ite ?_ ?_
  · refine State.toLink_agree (sub hL (by decide)) ?_
    exact h
  · exact h

theorem State.serveReg_agree {L s0 s m} (hL : [.freshCount, .regs, .latches, .linkOut, .mem, .pages, .ras, .flash, .link, .nb] ⊆ L) (h : Agree L s0 s) : Agree L s0 (State.serveReg s m) := by
  unfold State.serveReg
  refine Agree.ite ?_ ?_
  · refine State.regAnswer_agree (sub hL (by decide)) ?_
    exact h
  · refine Agree.ite ?_ ?_
    · refine State.regAnswer_agree (sub hL (by decide)) ?_
      refine State.regWrite_agree (sub hL (by decide)) ?_
      exact h
    · refine State.regAnswer_agree (sub hL (by decide)) ?_
      refine State.regRead_agree (sub hL (by decide)) ?_
      exact h

theorem State.regMessage_agree {L s0 s m} (hL : [.freshCount, .regs, .latches, .heldMsgs, .linkOut, .mem, .pages, .ras, .flash, .link, .nb] ⊆ L) (h : Agree L s0 s) : Agree L s0 (State.regMessage s m) := by
  unfold State.regMessage
  refine Agree.ite ?_ ?_
  · exact h
  · refine Agree.ite ?_ ?_
    · refine Agree.heldMsgs_write (mem_of hL (by decide)) ?_ _
      exact h
    · refine State.serveReg_agree (sub hL (by decide)) ?_
      exact h

theorem State.serveHeld_agree {L s0 s} (hL : [.freshCount, .time, .regs, .latches, .heldMsgs, .linkOut, .mem, .pages, .ras, .flash, .link, .nb] ⊆ L) (h : Agree L s0 s) : Agree L s0 (State.serveHeld s) := by
  unfold State.serveHeld
  split
  · exact h
  · refine State.serveReg_agree (sub hL (by decide)) ?_
    refine Agree.time_heldMsgs_write (mem_of hL (by decide)) (mem_of hL (by decide)) ?_ _ _
    exact h

theorem State.ctrlWrite_agree {L s0 s agent dom b' bit on} (hL : [.freshCount, .regs, .latches, .heldMsgs, .linkOut, .mem, .pages, .ras, .flash, .link, .nb] ⊆ L) (h : Agree L s0 s) : Agree L s0 (State.ctrlWrite s agent dom b' bit on) := by
  unfold State.ctrlWrite
  refine Agree.ite ?_ ?_
  · refine State.regMessage_agree (sub hL (by decide)) ?_
    exact h
  · exact h

theorem State.copyPending_agree {L s0 s b'} (hL : [.regs] ⊆ L) (h : Agree L s0 s) : Agree L s0 (State.copyPending s b') := by
  unfold State.copyPending
  refine Agree.fold ?_ ?_
  · intro t1 x1 h1
    show Agree L s0 _
    refine Agree.fold ?_ ?_
    · intro t2 x2 h2
      show Agree L s0 _
      refine State.setFld_agree (sub hL (by decide)) ?_
      exact h2
    · exact h1
  · exact h

theorem State.committed_agree {L s0 s b'} (hL : [.regs] ⊆ L) (h : Agree L s0 s) : Agree L s0 (State.committed s b') := by
  unfold State.committed
  refine State.setFld_agree (sub hL (by decide)) ?_
  refine State.setFld_agree (sub hL (by decide)) ?_
  exact h

theorem State.dropLine_agree {L s0 s l} (hL : [.linkOut, .link] ⊆ L) (h : Agree L s0 s) : Agree L s0 (State.dropLine s l) := by
  unfold State.dropLine
  refine Agree.ite ?_ ?_
  · refine State.setDir_agree (sub hL (by decide)) ?_
    exact h
  · refine Agree.ite ?_ ?_
    · refine State.setDir_agree (sub hL (by decide)) ?_
      exact h
    · refine State.sendSnoops_agree (sub hL (by decide)) ?_
      exact h

theorem State.clearRegions_agree {L s0 s cs} (hL : [.linkOut, .mem, .pages, .flash, .link] ⊆ L) (h : Agree L s0 s) : Agree L s0 (State.clearRegions s cs) := by
  unfold State.clearRegions
  refine Agree.ite ?_ ?_
  · exact h
  · refine State.wipe_agree (sub hL (by decide)) ?_
    refine Agree.fold ?_ ?_
    · intro t1 x1 h1
      show Agree L s0 _
      refine State.dropLine_agree (sub hL (by decide)) ?_
      exact h1
    · exact h

theorem State.commitSecurity_agree {L s0 s} (hL : [.regs, .linkOut, .mem, .pages, .flash, .link] ⊆ L) (h : Agree L s0 s) : Agree L s0 (State.commitSecurity s) := by
  unfold State.commitSecurity
  refine Agree.ite ?_ ?_
  · refine State.committed_agree (sub hL (by decide)) ?_
    refine State.clearRegions_agree (sub hL (by decide)) ?_
    refine State.copyPending_agree (sub hL (by decide)) ?_
    exact h
  · refine State.setFld_agree (sub hL (by decide)) ?_
    refine State.setFld_agree (sub hL (by decide)) ?_
    exact h

theorem State.commitPort_agree {L s0 s p} (hL : [.regs, .fabric] ⊆ L) (h : Agree L s0 s) : Agree L s0 (State.commitPort s p) := by
  unfold State.commitPort
  refine Agree.ite ?_ ?_
  · refine State.committed_agree (sub hL (by decide)) ?_
    refine State.resetCredits_agree (sub hL (by decide)) ?_ ?_
    · refine State.copyPending_agree (sub hL (by decide)) ?_
      exact h
    · exact h
  · refine State.setFld_agree (sub hL (by decide)) ?_
    refine State.setFld_agree (sub hL (by decide)) ?_
    exact h

theorem State.checkEntry_agree {L s0 s k e} (hL : [.regs] ⊆ L) (h : Agree L s0 s) : Agree L s0 (State.checkEntry s k e) := by
  unfold State.checkEntry
  refine Agree.ite ?_ ?_
  · refine State.setFld_agree (sub hL (by decide)) ?_
    refine State.setFld_agree (sub hL (by decide)) ?_
    exact h
  · exact h

theorem State.commitLibrary_agree {L s0 s k} (hL : [.regs] ⊆ L) (h : Agree L s0 s) : Agree L s0 (State.commitLibrary s k) := by
  unfold State.commitLibrary
  refine State.committed_agree (sub hL (by decide)) ?_
  refine Agree.fold ?_ ?_
  · intro t1 x1 h1
    show Agree L s0 _
    refine State.checkEntry_agree (sub hL (by decide)) ?_
    exact h1
  · refine State.copyPending_agree (sub hL (by decide)) ?_
    exact h

theorem State.checkRing_agree {L s0 s d r} (hL : [.regs] ⊆ L) (h : Agree L s0 s) : Agree L s0 (State.checkRing s d r) := by
  unfold State.checkRing
  refine Agree.ite ?_ ?_
  · refine State.setFld_agree (sub hL (by decide)) ?_
    refine State.setFld_agree (sub hL (by decide)) ?_
    exact h
  · exact h

theorem State.commitRings_agree {L s0 s} (hL : [.regs] ⊆ L) (h : Agree L s0 s) : Agree L s0 (State.commitRings s) := by
  unfold State.commitRings
  refine State.committed_agree (sub hL (by decide)) ?_
  refine Agree.fold ?_ ?_
  · intro t1 x1 h1
    show Agree L s0 _
    refine State.checkRing_agree (sub hL (by decide)) ?_
    exact h1
  · refine State.copyPending_agree (sub hL (by decide)) ?_
    exact h

theorem State.commitBlk_agree {L s0 s b'} (hL : [.regs, .linkOut, .mem, .pages, .fabric, .flash, .link] ⊆ L) (h : Agree L s0 s) : Agree L s0 (State.commitBlk s b') := by
  unfold State.commitBlk
  refine Agree.ite ?_ ?_
  · exact h
  · split
    · refine State.committed_agree (sub hL (by decide)) ?_
      refine State.copyPending_agree (sub hL (by decide)) ?_
      exact h
    · refine State.commitLibrary_agree (sub hL (by decide)) ?_
      exact h
    · refine State.commitPort_agree (sub hL (by decide)) ?_
      exact h
    · refine State.commitRings_agree (sub hL (by decide)) ?_
      exact h
    · refine State.commitSecurity_agree (sub hL (by decide)) ?_
      exact h

theorem State.commits_agree {L s0 s} (hL : [.regs, .linkOut, .mem, .pages, .fabric, .flash, .link] ⊆ L) (h : Agree L s0 s) : Agree L s0 (State.commits s) := by
  unfold State.commits
  refine Agree.ite ?_ ?_
  · exact h
  · refine Agree.fold ?_ ?_
    · intro t1 x1 h1
      show Agree L s0 _
      refine State.commitBlk_agree (sub hL (by decide)) ?_
      exact h1
    · exact h

theorem State.releaseAt_agree {L s0 s} (hL : [.regs] ⊆ L) (h : Agree L s0 s) : Agree L s0 (State.releaseAt s) := by
  unfold State.releaseAt
  refine Agree.ite ?_ ?_
  · refine Agree.ite ?_ ?_
    · refine State.setFld_agree (sub hL (by decide)) ?_
      refine State.setFld_agree (sub hL (by decide)) ?_
      refine State.setFld_agree (sub hL (by decide)) ?_
      exact h
    · refine State.setFld_agree (sub hL (by decide)) ?_
      refine State.setFld_agree (sub hL (by decide)) ?_
      exact h
  · exact h

end Sys2Proof.Machine
end

