-- ==== Sys2Proof/Laws/KeepSlices.lean ====
section
/-! SUPPORT. What the operations of Machine/Slices.lean may touch. -/

namespace Sys2Proof.Machine

open Sys2Proof

theorem State.askPage_agree {L s0 s p} (hL : [.regs, .pages, .flash] ⊆ L) (h : Agree L s0 s) : Agree L s0 (State.askPage s p) := by
  unfold State.askPage
  refine Agree.ite ?_ ?_
  · refine Agree.ite ?_ ?_
    · refine State.setFlash_agree (sub hL (by decide)) ⟨rfl, rfl⟩ ?_
      exact h
    · refine State.fetchPage_agree (sub hL (by decide)) ?_
      exact h
  · exact h

theorem State.markSlow_agree {L s0 s id} (hL : [.sched] ⊆ L) (h : Agree L s0 s) : Agree L s0 (State.markSlow s id) := by
  unfold State.markSlow
  split
  · split
    · refine State.putJob_agree (sub hL (by decide)) ?_
      exact h
    · refine State.putJob_agree (sub hL (by decide)) ?_
      exact h
    · refine State.putJob_agree (sub hL (by decide)) ?_
      exact h
    · refine State.putJob_agree (sub hL (by decide)) ?_
      exact h
    · refine State.putJob_agree (sub hL (by decide)) ?_
      exact h
    · exact h
    · exact h
    · exact h
    · exact h
    · exact h
    · exact h
    · exact h
    · exact h
    · exact h
    · exact h
    · exact h
  · exact h

theorem State.dataReady_agree {L s0 s rs jobs} (hL : [.regs, .linkOut, .mem, .sched, .pages, .ras, .flash, .link, .nb] ⊆ L) (h : Agree L s0 s) : Agree L s0 (State.dataReady s rs jobs).1 := by
  unfold State.dataReady
  refine Agree.iteFst ?_ ?_
  · refine Agree.ite ?_ ?_
    · refine Agree.fold ?_ ?_
      · intro t1 x1 h1
        show Agree L s0 _
        refine State.askPage_agree (sub hL (by decide)) ?_
        exact h1
      · exact h
    · refine Agree.fold ?_ ?_
      · intro t2 x2 h2
        show Agree L s0 _
        refine State.markSlow_agree (sub hL (by decide)) ?_
        exact h2
      · refine Agree.fold ?_ ?_
        · intro t3 x3 h3
          show Agree L s0 _
          refine State.askPage_agree (sub hL (by decide)) ?_
          exact h3
        · exact h
  · refine State.nodeReads_agree (sub hL (by decide)) ?_
    exact h

theorem State.endMaint_agree {L s0 s j st} (hL : [.freshCount, .regs, .linkOut, .mem, .rings, .sched, .pages, .ras, .flash, .link, .nb] ⊆ L) (h : Agree L s0 s) : Agree L s0 (State.endMaint s j st) := by
  unfold State.endMaint
  refine State.dropJob_agree (sub hL (by decide)) ?_
  refine State.failMaint_agree (sub hL (by decide)) ?_
  exact h

theorem State.endJob_agree {L s0 s j st} (hL : [.freshCount, .regs, .linkOut, .mem, .rings, .sched, .colls, .pages, .ras, .fabric, .flash, .link, .emb, .nb] ⊆ L) (h : Agree L s0 s) : Agree L s0 (State.endJob s j st) := by
  unfold State.endJob
  split
  · refine State.finishQuery_agree (sub hL (by decide)) ?_
    exact h
  · refine State.doomJob_agree (sub hL (by decide)) ?_
    exact h
  · refine State.endMaint_agree (sub hL (by decide)) ?_
    exact h
  · refine State.endMaint_agree (sub hL (by decide)) ?_
    refine State.setSlot_agree (sub hL (by decide)) ?_
    exact h
  · refine State.endMaint_agree (sub hL (by decide)) ?_
    refine State.setSlot_agree (sub hL (by decide)) ?_
    exact h
  · refine State.finishHint_agree (sub hL (by decide)) ?_
    exact h
  · refine Agree.ite ?_ ?_
    · refine State.endEngine_agree (sub hL (by decide)) ?_
      exact h
    · exact h
  · refine State.endAttend_agree (sub hL (by decide)) ?_
    exact h
  · refine State.endMerge_agree (sub hL (by decide)) ?_
    exact h
  · refine State.endLookup_agree (sub hL (by decide)) ?_
    exact h
  · refine State.endEmbShare_agree (sub hL (by decide)) ?_
    exact h
  · refine State.endEmbUpdate_agree (sub hL (by decide)) ?_
    exact h
  · split
    · refine State.endStep_agree (sub hL (by decide)) ?_
      exact h
    · refine State.dropJob_agree (sub hL (by decide)) ?_
      refine State.postRecord_agree (sub hL (by decide)) ?_
      refine State.countEnd_agree (sub hL (by decide)) ?_
      refine State.fresh_agree (sub hL (by decide)) ?_
      exact h
  · refine State.dropJob_agree (sub hL (by decide)) ?_
    refine State.postRecord_agree (sub hL (by decide)) ?_
    refine State.countEnd_agree (sub hL (by decide)) ?_
    exact h
  · refine State.dropJob_agree (sub hL (by decide)) ?_
    refine State.postRecord_agree (sub hL (by decide)) ?_
    refine State.countEnd_agree (sub hL (by decide)) ?_
    refine State.setTab_agree (sub hL (by decide)) ?_
    exact h
  · refine Agree.ite ?_ ?_
    · refine State.endNb_agree (sub hL (by decide)) ?_
      exact h
    · exact h

theorem State.endJobs_agree {L s0 s l st} (hL : [.freshCount, .regs, .linkOut, .mem, .rings, .sched, .colls, .pages, .ras, .fabric, .flash, .link, .emb, .nb] ⊆ L) (h : Agree L s0 s) : Agree L s0 (State.endJobs s l st) := by
  unfold State.endJobs
  refine Agree.fold ?_ ?_
  · intro t1 x1 h1
    show Agree L s0 _
    split
    · refine State.endJob_agree (sub hL (by decide)) ?_
      exact h1
    · exact h1
  · exact h

theorem State.endDoomed_agree {L s0 s} (hL : [.freshCount, .regs, .linkOut, .mem, .rings, .sched, .colls, .pages, .ras, .fabric, .flash, .link, .emb, .nb] ⊆ L) (h : Agree L s0 s) : Agree L s0 (State.endDoomed s) := by
  unfold State.endDoomed
  refine Agree.fold ?_ ?_
  · intro t1 x1 h1
    show Agree L s0 _
    split
    · split
      · refine State.endJob_agree (sub hL (by decide)) ?_
        exact h1
      · exact h1
    · exact h1
  · exact h

theorem State.chargeSorter_agree {L s0 s i d c} (hL : [.sched] ⊆ L) (h : Agree L s0 s) : Agree L s0 (State.chargeSorter s i d c) := by
  unfold State.chargeSorter
  refine Agree.sched_write (mem_of hL (by decide)) ?_ _
  exact h

theorem State.noteStart_agree {L s0 s x} (hL : [.freshCount, .mem, .sched, .ras, .nb] ⊆ L) (h : Agree L s0 s) : Agree L s0 (State.noteStart s x) := by
  unfold State.noteStart
  split
  · split
    · refine State.putPass_agree (sub hL (by decide)) ?_
      exact h
    · exact h
  · split
    · refine State.putPass_agree (sub hL (by decide)) ?_
      exact h
    · exact h
  · split
    · refine State.putPass_agree (sub hL (by decide)) ?_
      exact h
    · exact h
  · split
    · refine State.putCompact_agree (sub hL (by decide)) ?_
      exact h
    · exact h
  · split
    · refine State.putCompact_agree (sub hL (by decide)) ?_
      exact h
    · exact h
  · refine State.setRas_agree (sub hL (by decide)) ?_
    exact h
  · refine State.nbStart_agree (sub hL (by decide)) ?_
    exact h

theorem State.startSlice_agree {L s0 s k i t' c d pages} (hL : [.freshCount, .time, .mem, .sched, .pages, .ras, .nb] ⊆ L) (h : Agree L s0 s) : Agree L s0 (State.startSlice s k i t' c d pages) := by
  unfold State.startSlice
  refine Agree.time_write (mem_of hL (by decide)) ?_ _
  refine Agree.ite ?_ ?_
  · refine State.chargeSorter_agree (sub hL (by decide)) ?_
    refine State.setJobs_agree (sub hL (by decide)) ?_
    refine Agree.fold ?_ ?_
    · intro t1 x1 h1
      show Agree L s0 _
      refine State.countAccess_agree (sub hL (by decide)) ?_
      exact h1
    · refine Agree.sched_write (mem_of hL (by decide)) ?_ _
      refine State.noteStart_agree (sub hL (by decide)) ?_
      exact h
  · refine State.setJobs_agree (sub hL (by decide)) ?_
    refine Agree.fold ?_ ?_
    · intro t2 x2 h2
      show Agree L s0 _
      refine State.countAccess_agree (sub hL (by decide)) ?_
      exact h2
    · refine Agree.sched_write (mem_of hL (by decide)) ?_ _
      refine State.noteStart_agree (sub hL (by decide)) ?_
      exact h

theorem State.sliceAdmit_agree {L s0 s k i t'} (hL : [.freshCount, .time, .regs, .linkOut, .mem, .rings, .sched, .colls, .pages, .ras, .fabric, .flash, .link, .emb, .nb] ⊆ L) (h : Agree L s0 s) : Agree L s0 (State.sliceAdmit s k i t') := by
  unfold State.sliceAdmit
  refine Agree.ite ?_ ?_
  · exact h
  · split
    · exact h
    · refine Agree.ite ?_ ?_
      · refine State.endJobs_agree (sub hL (by decide)) ?_
        refine State.countShareRefused_agree (sub hL (by decide)) ?_
        exact h
      · refine Agree.ite ?_ ?_
        · exact h
        · refine Agree.ite ?_ ?_
          · refine State.endJobs_agree (sub hL (by decide)) ?_
            refine State.bumpBy_agree (sub hL (by decide)) ?_
            exact h
          · refine Agree.ite ?_ ?_
            · refine State.startSlice_agree (sub hL (by decide)) ?_
              refine State.dataReady_agree (sub hL (by decide)) ?_
              exact h
            · refine State.dataReady_agree (sub hL (by decide)) ?_
              exact h

theorem State.dropStaged_agree {L s0 s pages} (hL : [.flash] ⊆ L) (h : Agree L s0 s) : Agree L s0 (State.dropStaged s pages) := by
  unfold State.dropStaged
  refine State.setFlash_agree (sub hL (by decide)) ⟨rfl, rfl⟩ ?_
  exact h

theorem State.settleFrames_agree {L s0 s jobs} (hL : [.sched, .flash] ⊆ L) (h : Agree L s0 s) : Agree L s0 (State.settleFrames s jobs) := by
  unfold State.settleFrames
  refine Agree.ite ?_ h
  have hf : Agree [.sched] s (jobs.foldl (fun s j => s.doomJob j .refused) s) :=
    Agree.fold (fun t x ht => State.doomJob_agree (fun _ hx => hx) ht) (Agree.refl _ s)
  have e := hf.flash_eq (by decide)
  refine State.setFlash_agree (sub hL (by decide)) ⟨by rw [e], by rw [e]⟩ ?_
  exact Agree.fold (fun t x ht => State.doomJob_agree (sub hL (by decide)) ht) h

theorem State.sliceEnds_agree {L s0 s sid code f} (hL : [.regs, .sched, .flash] ⊆ L)
    (hf : ∀ y0 y1, Agree L s0 y0 → Agree L s0 (f y0 y1)) (h : Agree L s0 s) : Agree L s0 (State.sliceEnds s sid code f) := by
  unfold State.sliceEnds
  split
  · exact h
  · refine Agree.ite h ?_
    try dsimp only
    split
    · exact h
    · refine State.dropStaged_agree (sub hL (by decide)) (State.settleFrames_agree (sub hL (by decide)) (hf _ _ ?_))
      exact State.endSlice_agree (by assumption) (sub hL (by decide)) h

theorem State.endRouteWalk_agree {L s0 s x} (hL : [.freshCount, .regs, .linkOut, .mem, .rings, .sched, .pages, .ras, .fabric, .flash, .link, .nb] ⊆ L) (h : Agree L s0 s) : Agree L s0 (State.endRouteWalk s x) := by
  unfold State.endRouteWalk
  split
  · split
    · refine Agree.ite ?_ ?_
      · refine State.finishWalk_agree (sub hL (by decide)) ?_
        exact h
      · refine State.putQuery_agree (sub hL (by decide)) ?_
        exact h
    · exact h
  · exact h

theorem State.endTableBuild_agree {L s0 s x} (hL : [.freshCount, .regs, .sched] ⊆ L) (h : Agree L s0 s) : Agree L s0 (State.endTableBuild s x) := by
  unfold State.endTableBuild
  split
  · split
    · refine Agree.ite ?_ ?_
      · refine State.doomJob_agree (sub hL (by decide)) ?_
        refine State.putQuery_agree (sub hL (by decide)) ?_
        refine State.fresh_agree (sub hL (by decide)) ?_
        exact h
      · refine Agree.ite ?_ ?_
        · refine State.quantizeStep_agree (sub hL (by decide)) ?_
          refine State.fresh_agree (sub hL (by decide)) ?_
          exact h
        · refine State.putQuery_agree (sub hL (by decide)) ?_
          refine State.fresh_agree (sub hL (by decide)) ?_
          exact h
    · exact h
  · exact h

theorem State.endRebuild_agree {L s0 s x} (hL : [.freshCount, .regs, .sched] ⊆ L) (h : Agree L s0 s) : Agree L s0 (State.endRebuild s x) := by
  unfold State.endRebuild
  split
  · split
    · refine Agree.ite ?_ ?_
      · refine State.rebuildStep_agree (sub hL (by decide)) ?_
        exact h
      · refine State.putQuery_agree (sub hL (by decide)) ?_
        exact h
    · exact h
  · exact h

theorem State.endSketchPass_agree {L s0 s x} (hL : [.regs, .sched] ⊆ L) (h : Agree L s0 s) : Agree L s0 (State.endSketchPass s x) := by
  unfold State.endSketchPass
  split
  · split
    · split
      · refine State.passSliceEnd_agree (sub hL (by decide)) ?_
        refine State.runSketch_agree (sub hL (by decide)) ?_
        refine State.tileRead_agree (sub hL (by decide)) ?_
        exact h
      · refine State.passSliceEnd_agree (sub hL (by decide)) ?_
        exact h
    · exact h
  · exact h

theorem State.endCodePass_agree {L s0 s x} (hL : [.regs, .sched] ⊆ L) (h : Agree L s0 s) : Agree L s0 (State.endCodePass s x) := by
  unfold State.endCodePass
  split
  · split
    · split
      · refine State.passSliceEnd_agree (sub hL (by decide)) ?_
        refine State.runCode_agree (sub hL (by decide)) ?_
        refine State.tileRead_agree (sub hL (by decide)) ?_
        exact h
      · refine State.passSliceEnd_agree (sub hL (by decide)) ?_
        exact h
    · exact h
  · exact h

theorem State.endSideSlice_agree {L s0 s x} (hL : [.regs, .sched] ⊆ L) (h : Agree L s0 s) : Agree L s0 (State.endSideSlice s x) := by
  unfold State.endSideSlice
  split
  · split
    · split
      · refine State.passSliceEnd_agree (sub hL (by decide)) ?_
        refine State.runSide_agree (sub hL (by decide)) ?_
        refine State.tileRead_agree (sub hL (by decide)) ?_
        exact h
      · refine State.passSliceEnd_agree (sub hL (by decide)) ?_
        exact h
    · exact h
  · exact h

theorem State.endLocalSelect_agree {L s0 s x} (hL : [.regs, .linkOut, .mem, .rings, .sched, .pages, .ras, .fabric, .flash, .link, .nb] ⊆ L) (h : Agree L s0 s) : Agree L s0 (State.endLocalSelect s x) := by
  unfold State.endLocalSelect
  split
  · split
    · refine State.runSelect_agree (sub hL (by decide)) ?_
      exact h
    · exact h
  · exact h

theorem State.endRerank_agree {L s0 s x} (hL : [.freshCount, .sched] ⊆ L) (h : Agree L s0 s) : Agree L s0 (State.endRerank s x) := by
  unfold State.endRerank
  split
  · split
    · refine State.runRerank_agree (sub hL (by decide)) ?_
      exact h
    · exact h
  · exact h

theorem State.endFanIn_agree {L s0 s x} (hL : [.regs, .linkOut, .mem, .rings, .sched, .pages, .ras, .fabric, .flash, .link, .nb] ⊆ L) (h : Agree L s0 s) : Agree L s0 (State.endFanIn s x) := by
  unfold State.endFanIn
  split
  · split
    · refine State.runFanIn_agree (sub hL (by decide)) ?_
      exact h
    · exact h
  · exact h

theorem State.endInsertEncode_agree {L s0 s x} (hL : [.freshCount, .regs, .linkOut, .mem, .sched, .pages, .ras, .flash, .link, .nb] ⊆ L) (h : Agree L s0 s) : Agree L s0 (State.endInsertEncode s x) := by
  unfold State.endInsertEncode
  split
  · split
    · refine State.runEncode_agree (sub hL (by decide)) ?_
      exact h
    · exact h
  · exact h

theorem State.endMainFold_agree {L s0 s x} (hL : [.regs, .linkOut, .mem, .sched, .pages, .ras, .flash, .link, .nb] ⊆ L) (h : Agree L s0 s) : Agree L s0 (State.endMainFold s x) := by
  unfold State.endMainFold
  split
  · split
    · refine State.runMainFold_agree (sub hL (by decide)) ?_
      refine State.bump_agree (sub hL (by decide)) ?_
      exact h
    · exact h
  · exact h

theorem State.endSideFold_agree {L s0 s x} (hL : [.regs, .linkOut, .mem, .sched, .pages, .ras, .flash, .link, .nb] ⊆ L) (h : Agree L s0 s) : Agree L s0 (State.endSideFold s x) := by
  unfold State.endSideFold
  split
  · split
    · refine State.runSideFold_agree (sub hL (by decide)) ?_
      refine State.bump_agree (sub hL (by decide)) ?_
      exact h
    · exact h
  · exact h

theorem State.endRouteCopy_agree {L s0 s x} (hL : [.freshCount, .regs, .linkOut, .mem, .sched, .pages, .ras, .flash, .link, .nb] ⊆ L) (h : Agree L s0 s) : Agree L s0 (State.endRouteCopy s x) := by
  unfold State.endRouteCopy
  split
  · split
    · refine Agree.ite ?_ ?_
      · refine State.finishRouteEdit_agree (sub hL (by decide)) ?_
        exact h
      · refine State.putJob_agree (sub hL (by decide)) ?_
        exact h
    · exact h
  · exact h

theorem State.endGemm_agree {L s0 s x} (hL : [.freshCount, .regs, .linkOut, .mem, .rings, .sched, .pages, .ras, .flash, .link, .nb] ⊆ L) (h : Agree L s0 s) : Agree L s0 (State.endGemm s x) := by
  unfold State.endGemm
  split
  · split
    · refine State.runGemm_agree (sub hL (by decide)) ?_
      exact h
    · exact h
  · exact h

theorem State.endVectorOp_agree {L s0 s x} (hL : [.freshCount, .regs, .linkOut, .mem, .rings, .sched, .pages, .ras, .flash, .link, .nb] ⊆ L) (h : Agree L s0 s) : Agree L s0 (State.endVectorOp s x) := by
  unfold State.endVectorOp
  split
  · split
    · refine State.runVector_agree (sub hL (by decide)) ?_
      exact h
    · exact h
  · exact h

theorem State.endKvProject_agree {L s0 s x} (hL : [.freshCount, .regs, .sched] ⊆ L) (h : Agree L s0 s) : Agree L s0 (State.endKvProject s x) := by
  unfold State.endKvProject
  split
  · split
    · refine State.runProject_agree (sub hL (by decide)) ?_
      exact h
    · exact h
  · exact h

theorem State.endRotateWrite_agree {L s0 s x} (hL : [.regs, .linkOut, .mem, .rings, .sched, .pages, .ras, .fabric, .flash, .link, .nb] ⊆ L) (h : Agree L s0 s) : Agree L s0 (State.endRotateWrite s x) := by
  unfold State.endRotateWrite
  split
  · split
    · refine State.runRotate_agree (sub hL (by decide)) ?_
      exact h
    · exact h
  · exact h

theorem State.endFused_agree {L s0 s x} (hL : [.freshCount, .regs, .sched] ⊆ L) (h : Agree L s0 s) : Agree L s0 (State.endFused s x) := by
  unfold State.endFused
  split
  · split
    · refine State.runFused_agree (sub hL (by decide)) ?_
      refine State.bump_agree (sub hL (by decide)) ?_
      exact h
    · exact h
  · exact h

theorem State.endCombine_agree {L s0 s x} (hL : [.freshCount, .regs, .linkOut, .mem, .rings, .sched, .pages, .ras, .fabric, .flash, .link, .nb] ⊆ L) (h : Agree L s0 s) : Agree L s0 (State.endCombine s x) := by
  unfold State.endCombine
  split
  · split
    · refine State.runCombine_agree (sub hL (by decide)) ?_
      exact h
    · exact h
  · exact h

theorem State.endMergeSlice_agree {L s0 s x} (hL : [.freshCount, .regs, .linkOut, .mem, .rings, .sched, .pages, .ras, .flash, .link, .nb] ⊆ L) (h : Agree L s0 s) : Agree L s0 (State.endMergeSlice s x) := by
  unfold State.endMergeSlice
  split
  · split
    · refine State.runMerge_agree (sub hL (by decide)) ?_
      exact h
    · exact h
  · exact h

theorem State.endSort_agree {L s0 s x} (hL : [.regs, .linkOut, .mem, .rings, .sched, .pages, .ras, .fabric, .flash, .link, .emb, .nb] ⊆ L) (h : Agree L s0 s) : Agree L s0 (State.endSort s x) := by
  unfold State.endSort
  split
  · split
    · refine State.runSort_agree (sub hL (by decide)) ?_
      exact h
    · exact h
  · exact h

theorem State.endPooling_agree {L s0 s x} (hL : [.freshCount, .regs, .sched, .ras, .fabric, .emb] ⊆ L) (h : Agree L s0 s) : Agree L s0 (State.endPooling s x) := by
  unfold State.endPooling
  split
  · split
    · refine State.runPooling_agree (sub hL (by decide)) ?_
      exact h
    · exact h
  · exact h

theorem State.endCombineBags_agree {L s0 s x} (hL : [.freshCount, .regs, .linkOut, .mem, .rings, .sched, .pages, .ras, .flash, .link, .nb] ⊆ L) (h : Agree L s0 s) : Agree L s0 (State.endCombineBags s x) := by
  unfold State.endCombineBags
  split
  · split
    · refine State.runLookupCombine_agree (sub hL (by decide)) ?_
      exact h
    · exact h
  · exact h

theorem State.endStepApply_agree {L s0 s x} (hL : [.regs, .linkOut, .mem, .rings, .sched, .pages, .ras, .flash, .link, .emb, .nb] ⊆ L) (h : Agree L s0 s) : Agree L s0 (State.endStepApply s x) := by
  unfold State.endStepApply
  split
  · split
    · refine State.runApply_agree (sub hL (by decide)) ?_
      exact h
    · exact h
  · exact h

theorem State.endNbApply_agree {L s0 s x} (hL : [.regs, .linkOut, .mem, .rings, .sched, .pages, .ras, .flash, .link, .emb, .nb] ⊆ L) (h : Agree L s0 s) : Agree L s0 (State.endNbApply s x) := by
  unfold State.endNbApply
  split
  · split
    · refine State.runApply_agree (sub hL (by decide)) ?_
      exact h
    · exact h
  · exact h

theorem State.endNbPool_agree {L s0 s x} (hL : [.regs, .linkOut, .mem, .sched, .pages, .ras, .flash, .link, .nb] ⊆ L) (h : Agree L s0 s) : Agree L s0 (State.endNbPool s x) := by
  unfold State.endNbPool
  split
  · split
    · refine State.endPool_agree (sub hL (by decide)) ?_
      exact h
    · exact h
  · exact h

theorem State.endNbRun_agree {L s0 s x} (hL : [.freshCount, .regs, .linkOut, .mem, .rings, .sched, .pages, .ras, .flash, .link, .nb] ⊆ L) (h : Agree L s0 s) : Agree L s0 (State.endNbRun s x) := by
  unfold State.endNbRun
  split
  · split
    · split
      · refine State.endNbSlice_agree (sub hL (by decide)) ?_
        exact h
      · exact h
    · split
      · refine State.nbClear_agree (sub hL (by decide)) ?_
        exact h
      · refine State.nbClear_agree (sub hL (by decide)) ?_
        exact h
  · exact h

theorem State.nbFinish_agree {L s0 s sid code f} (hL : [.freshCount, .regs, .linkOut, .mem, .sched, .pages, .ras, .flash, .link, .nb] ⊆ L)
    (hf : ∀ y0 y1, Agree L s0 y0 → Agree L s0 (f y0 y1)) (h : Agree L s0 s) : Agree L s0 (State.nbFinish s sid code f) := by
  unfold State.nbFinish
  split
  · exact h
  · refine Agree.ite h ?_
    refine Agree.ite ?_ ?_
    · exact State.sliceEnds_agree (sub hL (by decide)) hf (State.nbRunAll_agree (sub hL (by decide)) h)
    · exact State.nbRunAll_agree (sub hL (by decide)) h

theorem State.stopNb_agree {L s0 s x} (hL : [.freshCount, .regs, .linkOut, .mem, .sched, .pages, .ras, .flash, .link, .nb] ⊆ L) (h : Agree L s0 s) : Agree L s0 (State.stopNb s x) := by
  unfold State.stopNb
  split
  · refine State.nbClear_agree (sub hL (by decide)) ?_
    exact h
  · split
    · split
      · refine State.nbClear_agree (sub hL (by decide)) ?_
        refine State.putJob_agree (sub hL (by decide)) ?_
        exact h
      · exact h
    · exact h
  · refine Agree.fold ?_ ?_
    · intro t1 x1 h1
      show Agree L s0 _
      refine State.undefine_agree (sub hL (by decide)) ?_
      exact h1
    · exact h
  · exact h

theorem State.overrunSlice_agree {L s0 s x} (hL : [.freshCount, .regs, .linkOut, .mem, .sched, .pages, .ras, .flash, .link, .nb] ⊆ L) (h : Agree L s0 s) : Agree L s0 (State.overrunSlice s x) := by
  unfold State.overrunSlice
  refine State.checkOverruns_agree (sub hL (by decide)) ?_
  refine State.dropStaged_agree (sub hL (by decide)) ?_
  refine Agree.fold ?_ ?_
  · intro t1 x1 h1
    show Agree L s0 _
    refine State.doomJob_agree (sub hL (by decide)) ?_
    exact h1
  · refine Agree.sched_write (mem_of hL (by decide)) ?_ _
    refine State.log_agree (sub hL (by decide)) ?_
    refine State.countOverrun_agree (sub hL (by decide)) ?_
    refine Agree.sched_write (mem_of hL (by decide)) ?_ _
    refine State.stopNb_agree (sub hL (by decide)) ?_
    exact h

theorem State.overrun_agree {L s0 s sid} (hL : [.freshCount, .time, .regs, .linkOut, .mem, .sched, .pages, .ras, .flash, .link, .nb] ⊆ L) (h : Agree L s0 s) : Agree L s0 (State.overrun s sid) := by
  unfold State.overrun
  split
  · refine Agree.time_write (mem_of hL (by decide)) ?_ _
    refine State.overrunSlice_agree (sub hL (by decide)) ?_
    exact h
  · exact h

end Sys2Proof.Machine
end

