-- ==== Sys2Proof/Laws/KeepStitch.lean ====
section
/-! SUPPORT. What the operations of Machine/Stitch.lean may touch. -/

namespace Sys2Proof.Machine

open Sys2Proof

theorem State.overruns_agree {L s0 s} (hL : [.freshCount, .regs, .linkOut, .mem, .sched, .pages, .ras, .flash, .link, .nb] ⊆ L) (h : Agree L s0 s) : Agree L s0 (State.overruns s) := by
  unfold State.overruns
  refine Agree.fold ?_ ?_
  · intro t1 x1 h1
    show Agree L s0 _
    refine State.overrunSlice_agree (sub hL (by decide)) ?_
    exact h1
  · exact h

theorem State.newEpoch_agree {L s0 s corr} (hL : [.time, .regs, .sched, .flash] ⊆ L) (h : Agree L s0 s) : Agree L s0 (State.newEpoch s corr) := by
  unfold State.newEpoch
  refine Agree.ite ?_ ?_
  · refine State.setFld_agree (sub hL (by decide)) ?_
    refine State.setFlash_agree (sub hL (by decide)) ⟨rfl, rfl⟩ ?_
    refine Agree.sched_write (mem_of hL (by decide)) ?_ _
    refine Agree.time_write (mem_of hL (by decide)) ?_ _
    exact h
  · refine State.setFlash_agree (sub hL (by decide)) ⟨rfl, rfl⟩ ?_
    refine Agree.sched_write (mem_of hL (by decide)) ?_ _
    refine Agree.time_write (mem_of hL (by decide)) ?_ _
    exact h

theorem State.countWaits_agree {L s0 s} (hL : [.sched] ⊆ L) (h : Agree L s0 s) : Agree L s0 (State.countWaits s) := by
  unfold State.countWaits
  refine State.setJobs_agree (sub hL (by decide)) ?_
  exact h

theorem State.expire_agree {L s0 s id} (hL : [.freshCount, .regs, .linkOut, .mem, .rings, .sched, .colls, .pages, .ras, .fabric, .flash, .link, .emb, .nb] ⊆ L) (h : Agree L s0 s) : Agree L s0 (State.expire s id) := by
  unfold State.expire
  split
  · refine Agree.ite ?_ ?_
    · refine State.endJob_agree (sub hL (by decide)) ?_
      exact h
    · exact h
  · exact h

theorem State.expireAll_agree {L s0 s} (hL : [.freshCount, .regs, .linkOut, .mem, .rings, .sched, .colls, .pages, .ras, .fabric, .flash, .link, .emb, .nb] ⊆ L) (h : Agree L s0 s) : Agree L s0 (State.expireAll s) := by
  unfold State.expireAll
  refine Agree.fold ?_ ?_
  · intro t1 x1 h1
    show Agree L s0 _
    refine State.expire_agree (sub hL (by decide)) ?_
    exact h1
  · exact h

theorem State.settle_agree {L s0 s x} (hL : [.freshCount, .power, .regs, .linkOut, .mem, .rings, .sched, .colls, .pages, .ras, .boot, .fabric, .flash, .link, .emb, .nb] ⊆ L) (h : Agree L s0 s) : Agree L s0 (State.settle s x) := by
  unfold State.settle
  refine State.endDoomed_agree (sub hL (by decide)) ?_
  refine State.expireAll_agree (sub hL (by decide)) ?_
  refine State.countWaits_agree (sub hL (by decide)) ?_
  refine State.endFence_agree (sub hL (by decide)) ?_
  refine State.wedgeAll_agree (sub hL (by decide)) ?_
  refine State.retireAll_agree (sub hL (by decide)) ?_
  refine State.dropEvents_agree (sub hL (by decide)) ?_
  refine State.thermal_agree (sub hL (by decide)) ?_
  exact h

theorem State.firstBoundary_agree {L s0 s} (hL : [.time, .regs, .ras, .boot, .fabric, .link] ⊆ L) (h : Agree L s0 s) : Agree L s0 (State.firstBoundary s) := by
  unfold State.firstBoundary
  refine Agree.ite ?_ ?_
  · refine State.enterTrain_agree (sub hL (by decide)) ?_
    refine Agree.time_write (mem_of hL (by decide)) ?_ _
    exact h
  · refine Agree.time_write (mem_of hL (by decide)) ?_ _
    exact h

theorem State.actions_agree {L s0 s} (hL : [.freshCount, .time, .regs, .linkOut, .mem, .rings, .sched, .colls, .parts, .pages, .ras, .boot, .fabric, .flash, .link, .emb, .nb] ⊆ L) (h : Agree L s0 s) : Agree L s0 (State.actions s) := by
  unfold State.actions
  refine State.gateRestart_agree (sub hL (by decide)) ?_
  refine State.closeSteps_agree (sub hL (by decide)) ?_
  refine State.embSwaps_agree (sub hL (by decide)) ?_
  refine State.layoutSwaps_agree (sub hL (by decide)) ?_
  refine State.versionSwaps_agree (sub hL (by decide)) ?_
  refine State.firstBoundary_agree (sub hL (by decide)) ?_
  refine State.commits_agree (sub hL (by decide)) ?_
  refine State.releaseAt_agree (sub hL (by decide)) ?_
  refine State.activateMap_agree (sub hL (by decide)) ?_
  exact h

theorem State.setCut_agree {L s0 s j q} (hL : [.sched] ⊆ L) (h : Agree L s0 s) : Agree L s0 (State.setCut s j q) := by
  unfold State.setCut
  refine Agree.ite ?_ ?_
  · refine State.putQuery_agree (sub hL (by decide)) ?_
    exact h
  · exact h

theorem State.setCuts_agree {L s0 s} (hL : [.sched] ⊆ L) (h : Agree L s0 s) : Agree L s0 (State.setCuts s) := by
  unfold State.setCuts
  refine Agree.fold ?_ ?_
  · intro t1 x1 h1
    show Agree L s0 _
    split
    · refine State.setCut_agree (sub hL (by decide)) ?_
      exact h1
    · exact h1
  · exact h

theorem State.releases_agree {L s0 s} (hL : [.regs, .linkOut, .mem, .rings, .colls, .parts, .pages, .ras, .flash, .link, .nb] ⊆ L) (h : Agree L s0 s) : Agree L s0 (State.releases s) := by
  unfold State.releases
  refine Agree.fold ?_ ?_
  · intro t1 x1 h1
    show Agree L s0 _
    refine State.releaseSlots_agree (sub hL (by decide)) ?_
    exact h1
  · refine Agree.fold ?_ ?_
    · intro t2 x2 h2
      show Agree L s0 _
      refine State.releaseLayouts_agree (sub hL (by decide)) ?_
      exact h2
    · exact h

theorem State.tierWindow_agree {L s0 s} (hL : [.freshCount, .regs, .linkOut, .mem, .rings, .sched, .pages, .ras, .flash, .link, .nb] ⊆ L) (h : Agree L s0 s) : Agree L s0 (State.tierWindow s) := by
  unfold State.tierWindow
  refine State.handVectors_agree (sub hL (by decide)) ?_
  refine State.driveHints_agree (sub hL (by decide)) ?_
  refine State.journalFlush_agree (sub hL (by decide)) ?_
  refine Agree.fold ?_ ?_
  · intro t1 x1 h1
    show Agree L s0 _
    refine State.wbFlush_agree (sub hL (by decide)) ?_
    exact h1
  · refine Agree.ite ?_ ?_
    · refine State.migrate_agree (sub hL (by decide)) ?_
      refine State.applyDiscards_agree (sub hL (by decide)) ?_
      refine Agree.fold ?_ ?_
      · intro t2 x2 h2
        show Agree L s0 _
        refine State.leaveWriting_agree (sub hL (by decide)) ?_
        exact h2
      · refine State.evictWaiting_agree (sub hL (by decide)) ?_
        exact h
    · refine State.applyDiscards_agree (sub hL (by decide)) ?_
      refine Agree.fold ?_ ?_
      · intro t3 x3 h3
        show Agree L s0 _
        refine State.leaveWriting_agree (sub hL (by decide)) ?_
        exact h3
      · refine State.evictWaiting_agree (sub hL (by decide)) ?_
        exact h

theorem State.searchWindow_agree {L s0 s} (hL : [.sched] ⊆ L) (h : Agree L s0 s) : Agree L s0 (State.searchWindow s) := by
  unfold State.searchWindow
  refine Agree.fold ?_ ?_
  · intro t1 x1 h1
    show Agree L s0 _
    try dsimp only
    split
    · refine State.issueReads_agree (sub hL (by decide)) ?_
      exact h1
    · exact h1
  · refine State.formPasses_agree (sub hL (by decide)) ?_
    refine State.formPasses_agree (sub hL (by decide)) ?_
    exact h

theorem State.window_agree {L s0 s} (hL : [.freshCount, .regs, .linkOut, .mem, .rings, .sched, .colls, .parts, .pages, .ras, .boot, .fabric, .flash, .link, .attn, .emb, .nb] ⊆ L) (h : Agree L s0 s) : Agree L s0 (State.window s) := by
  unfold State.window
  refine State.drive_agree (sub hL (by decide)) ?_
  refine State.visitRings_agree (sub hL (by decide)) ?_
  refine State.tryLookups_agree (sub hL (by decide)) ?_
  refine State.tryShares_agree (sub hL (by decide)) ?_
  refine State.searchWindow_agree (sub hL (by decide)) ?_
  refine State.tierWindow_agree (sub hL (by decide)) ?_
  refine State.releases_agree (sub hL (by decide)) ?_
  refine State.embBoundary_agree (sub hL (by decide)) ?_
  refine State.advanceStart_agree (sub hL (by decide)) ?_
  refine State.setCuts_agree (sub hL (by decide)) ?_
  refine State.readTabs_agree (sub hL (by decide)) ?_
  refine State.readSlots_agree (sub hL (by decide)) ?_
  refine State.readCollections_agree (sub hL (by decide)) ?_
  exact h

theorem State.openStitch_agree {L s0 s} (hL : [.time] ⊆ L) (h : Agree L s0 s) : Agree L s0 (State.openStitch s) := by
  unfold State.openStitch
  refine Agree.time_write (mem_of hL (by decide)) ?_ _
  exact h

theorem State.boundary_agree {L s0 s x} (hL : [.freshCount, .power, .time, .regs, .linkOut, .mem, .rings, .sched, .colls, .parts, .pages, .ras, .boot, .fabric, .flash, .link, .attn, .emb, .nb] ⊆ L) (h : Agree L s0 s) : Agree L s0 (State.boundary s x) := by
  unfold State.boundary
  refine Agree.ite ?_ ?_
  · refine State.window_agree (sub hL (by decide)) ?_
    refine State.openStitch_agree (sub hL (by decide)) ?_
    refine State.actions_agree (sub hL (by decide)) ?_
    refine State.settle_agree (sub hL (by decide)) ?_
    refine State.newEpoch_agree (sub hL (by decide)) ?_
    refine State.overruns_agree (sub hL (by decide)) ?_
    refine State.egressClose_agree (sub hL (by decide)) ?_
    exact h
  · exact h

theorem State.tick_agree {L s0 s} (hL : [.time] ⊆ L) (h : Agree L s0 s) : Agree L s0 (State.tick s) := by
  unfold State.tick
  refine Agree.ite ?_ ?_
  · refine Agree.time_write (mem_of hL (by decide)) ?_ _
    exact h
  · exact h

theorem State.commitAtRelease_agree {L s0 s} (hL : [.regs, .linkOut, .mem, .pages, .fabric, .flash, .link] ⊆ L) (h : Agree L s0 s) : Agree L s0 (State.commitAtRelease s) := by
  unfold State.commitAtRelease
  refine Agree.ite ?_ ?_
  · refine State.commits_agree (sub hL (by decide)) ?_
    refine State.releaseAt_agree (sub hL (by decide)) ?_
    exact h
  · exact h

theorem State.atWindow_agree {L s0 s f} (hf : ∀ y0, Agree L s0 y0 → Agree L s0 (f y0)) (h : Agree L s0 s) :
    Agree L s0 (State.atWindow s f) := Agree.ite (hf s h) h

theorem State.passesOf_agree {L s0 s c p} (hL : [.sched] ⊆ L) (h : Agree L s0 s) : Agree L s0 (State.passesOf s c p) := by
  unfold State.passesOf
  refine State.formPasses_agree (sub hL (by decide)) ?_
  refine State.formPasses_agree (sub hL (by decide)) ?_
  exact h

theorem State.issueOf_agree {L s0 s job} (hL : [.sched] ⊆ L) (h : Agree L s0 s) : Agree L s0 (State.issueOf s job) := by
  unfold State.issueOf
  refine State.atWindow_agree ?_ ?_
  · intro t1_0 h1_0
    show Agree L s0 _
    split
    · refine State.issueReads_agree (sub hL (by decide)) ?_
      exact h1_0
    · exact h1_0
  · exact h

theorem State.shareTimeout_agree {L s0 s lookup n} (hL : [.freshCount, .regs, .sched, .ras, .fabric, .emb] ⊆ L) (h : Agree L s0 s) : Agree L s0 (State.shareTimeout s lookup n) := by
  unfold State.shareTimeout
  refine Agree.ite ?_ ?_
  · split
    · refine Agree.ite ?_ ?_
      · refine State.tryLookup_agree (sub hL (by decide)) ?_
        exact h
      · exact h
    · exact h
  · split
    · refine Agree.ite ?_ ?_
      · refine State.tryShare_agree (sub hL (by decide)) ?_
        exact h
      · exact h
    · exact h

theorem State.syncMessage_agree {L s0 s offset seconds} (hL : [.time, .regs] ⊆ L) (h : Agree L s0 s) : Agree L s0 (State.syncMessage s offset seconds) := by
  unfold State.syncMessage
  refine Agree.ite ?_ ?_
  · exact h
  · refine Agree.time_write (mem_of hL (by decide)) ?_ _
    refine State.setFld_agree (sub hL (by decide)) ?_
    refine State.setFld_agree (sub hL (by decide)) ?_
    exact h

theorem State.peerDelay_agree {L s0 s p ns} (hL : [.time] ⊆ L) (h : Agree L s0 s) : Agree L s0 (State.peerDelay s p ns) := by
  unfold State.peerDelay
  refine Agree.ite ?_ ?_
  · refine Agree.time_write (mem_of hL (by decide)) ?_ _
    exact h
  · exact h

theorem State.syncLoss_agree {L s0 s} (hL : [.regs] ⊆ L) (h : Agree L s0 s) : Agree L s0 (State.syncLoss s) := by
  unfold State.syncLoss
  refine Agree.ite ?_ ?_
  · refine State.setFld_agree (sub hL (by decide)) ?_
    refine State.setFld_agree (sub hL (by decide)) ?_
    exact h
  · exact h

theorem State.holdoverOut_agree {L s0 s ns} (hL : [.time, .regs] ⊆ L) (h : Agree L s0 s) : Agree L s0 (State.holdoverOut s ns) := by
  unfold State.holdoverOut
  refine Agree.ite ?_ ?_
  · refine Agree.time_write (mem_of hL (by decide)) ?_ _
    refine State.setFld_agree (sub hL (by decide)) ?_
    refine State.setFld_agree (sub hL (by decide)) ?_
    exact h
  · exact h

theorem State.pps_agree {L s0 s second} (hL : [.power, .time] ⊆ L) (h : Agree L s0 s) : Agree L s0 (State.pps s second) := by
  unfold State.pps
  refine Agree.ite ?_ ?_
  · refine Agree.power_time_write (mem_of hL (by decide)) (mem_of hL (by decide)) ?_ _ _
    exact h
  · exact h

theorem State.joinEpoch_agree {L s0 s} (hL : [.freshCount, .time, .regs, .linkOut, .mem, .rings, .sched, .colls, .pages, .ras, .fabric, .flash, .link, .emb, .nb] ⊆ L) (h : Agree L s0 s) : Agree L s0 (State.joinEpoch s) := by
  unfold State.joinEpoch
  split
  · exact h
  · refine Agree.ite ?_ ?_
    · exact h
    · refine Agree.ite ?_ ?_
      · refine State.logMember_agree (sub hL (by decide)) ?_
        refine State.setFld_agree (sub hL (by decide)) ?_
        refine Agree.time_write (mem_of hL (by decide)) ?_ _
        refine State.endJobs_agree (sub hL (by decide)) ?_
        refine State.setFabric_agree (sub hL (by decide)) ?_
        exact h
      · refine State.logMember_agree (sub hL (by decide)) ?_
        refine State.setFld_agree (sub hL (by decide)) ?_
        refine State.setFld_agree (sub hL (by decide)) ?_
        refine State.setFabric_agree (sub hL (by decide)) ?_
        exact h

end Sys2Proof.Machine
end

