-- ==== Sys2Proof/Laws/KeepFaultRows.lean ====
section
/-! SUPPORT. What the operations of Machine/FaultRows.lean may touch. -/

namespace Sys2Proof.Machine

open Sys2Proof

theorem execRetirement_agree {L s0 kind idx s t} (he : execRetirement kind idx s = .next t) (hL : [.freshCount, .regs, .mem, .sched, .pages, .ras, .boot, .flash] ⊆ L) (h : Agree L s0 s) : Agree L s0 t := by
  unfold execRetirement at he
  refine node_agree he (fun u hu => ?_) h
  show Agree L s0 _
  refine State.retirement_agree (sub hL (by decide)) ?_
  exact hu

theorem execRemapCopyDone_agree {L s0 stack s t} (he : execRemapCopyDone stack s = .next t) (hL : [.freshCount, .regs, .pages, .ras, .flash] ⊆ L) (h : Agree L s0 s) : Agree L s0 t := by
  unfold execRemapCopyDone at he
  refine node_agree he (fun u hu => ?_) h
  show Agree L s0 _
  refine State.copyDone_agree (sub hL (by decide)) ?_
  exact hu

theorem execD2dLaneFault_agree {L s0 shank lane s t} (he : execD2dLaneFault shank lane s = .next t) (hL : [.regs, .ras] ⊆ L) (h : Agree L s0 s) : Agree L s0 t := by
  unfold execD2dLaneFault at he
  refine node_agree he (fun u hu => ?_) h
  show Agree L s0 _
  refine State.d2dLaneFault_agree (sub hL (by decide)) ?_
  exact hu

theorem execScrub_agree {L s0 line stack pc outcome bytes s t} (he : execScrub line stack pc outcome bytes s = .next t) (hL : [.regs, .mem, .ras] ⊆ L) (h : Agree L s0 s) : Agree L s0 t := by
  unfold execScrub at he
  refine node_agree he (fun u hu => ?_) h
  show Agree L s0 _
  refine State.scrub_agree (sub hL (by decide)) ?_
  exact hu

theorem execAwlSlice_agree {L s0 sid pass s t} (he : execAwlSlice sid pass s = .next t) (hL : [.regs, .sched, .ras] ⊆ L) (h : Agree L s0 s) : Agree L s0 t := by
  unfold execAwlSlice at he
  refine node_agree he (fun u hu => ?_) h
  show Agree L s0 _
  refine State.awlEnd_agree (sub hL (by decide)) ?_
  exact hu

theorem execEyeMeasurement_agree {L s0 wymer lane mv mui s t} (he : execEyeMeasurement wymer lane mv mui s = .next t) (hL : [.regs, .ras] ⊆ L) (h : Agree L s0 s) : Agree L s0 t := by
  unfold execEyeMeasurement at he
  refine node_agree he (fun u hu => ?_) h
  show Agree L s0 _
  refine State.eye_agree (sub hL (by decide)) ?_
  exact hu

theorem execOpticalPoll_agree {L s0 module power low s t} (he : execOpticalPoll module power low s = .next t) (hL : [.regs, .ras] ⊆ L) (h : Agree L s0 s) : Agree L s0 t := by
  unfold execOpticalPoll at he
  refine node_agree he (fun u hu => ?_) h
  show Agree L s0 _
  refine State.optical_agree (sub hL (by decide)) ?_
  exact hu

theorem execDroop_agree {L s0 s t} (he : execDroop s = .next t) (hL : [.regs] ⊆ L) (h : Agree L s0 s) : Agree L s0 t := by
  unfold execDroop at he
  refine node_agree he (fun u hu => ?_) h
  show Agree L s0 _
  refine State.bump_agree (sub hL (by decide)) ?_
  exact hu

theorem execWedged_agree {L s0 kind idx s t} (he : execWedged kind idx s = .next t) (hL : [.ras] ⊆ L) (h : Agree L s0 s) : Agree L s0 t := by
  unfold execWedged at he
  refine node_agree he (fun u hu => ?_) h
  show Agree L s0 _
  refine State.wedged_agree (sub hL (by decide)) ?_
  exact hu

theorem execPldmResend_agree {L s0 s t} (he : execPldmResend s = .next t) (hL : [.ras] ⊆ L) (h : Agree L s0 s) : Agree L s0 t := by
  unfold execPldmResend at he
  refine node_agree he (fun u hu => ?_) h
  show Agree L s0 _
  refine State.resendEvents_agree (sub hL (by decide)) ?_
  exact hu

theorem execEventAcknowledgement_agree {L s0 seq s t} (he : execEventAcknowledgement seq s = .next t) (hL : [.ras] ⊆ L) (h : Agree L s0 s) : Agree L s0 t := by
  unfold execEventAcknowledgement at he
  refine node_agree he (fun u hu => ?_) h
  show Agree L s0 _
  refine State.eventAck_agree (sub hL (by decide)) ?_
  exact hu

theorem execMctpMessage_agree {L s0 viaSmbus mtype body s t} (he : execMctpMessage viaSmbus mtype body s = .next t) (hL : [.freshCount, .ras] ⊆ L) (h : Agree L s0 s) : Agree L s0 t := by
  unfold execMctpMessage at he
  refine node_agree he (fun u hu => ?_) h
  show Agree L s0 _
  refine State.mctp_agree (sub hL (by decide)) ?_
  exact hu

theorem execManagementPortDown_agree {L s0 down s t} (he : execManagementPortDown down s = .next t) (hL : [.ras] ⊆ L) (h : Agree L s0 s) : Agree L s0 t := by
  unfold execManagementPortDown at he
  refine node_agree he (fun u hu => ?_) h
  show Agree L s0 _
  refine State.mgmtPort_agree (sub hL (by decide)) ?_
  exact hu

end Sys2Proof.Machine
end

