-- ==== Sys2Proof/Laws/KeepModuleRows.lean ====
section
/-! SUPPORT. What the operations of Machine/ModuleRows.lean may touch. -/

namespace Sys2Proof.Machine

open Sys2Proof

theorem execNodeReset_agree {L s0 pulseNs s t} (he : execNodeReset pulseNs s = .next t) (hL : [.power, .time, .regs, .latches, .heldMsgs, .linkOut, .mem, .rings, .sched, .colls, .parts, .pages, .ras, .boot, .fabric, .flash, .link, .attn, .emb, .nb] ⊆ L) (h : Agree L s0 s) : Agree L s0 t := by
  unfold execNodeReset at he
  obtain rfl := Host.Outcome.next.inj he
  refine State.nodeReset_agree (sub hL (by decide)) ?_
  exact h

theorem execResetRelease_agree {L s0 s t} (he : execResetRelease s = .next t) (hL : [.power, .time, .regs, .boot, .fabric] ⊆ L) (h : Agree L s0 s) : Agree L s0 t := by
  unfold execResetRelease at he
  obtain rfl := Host.Outcome.next.inj he
  refine State.resetRelease_agree (sub hL (by decide)) ?_
  exact h

theorem execTrainingDone_agree {L s0 d2dOk channels s t} (he : execTrainingDone d2dOk channels s = .next t) (hL : [.time, .regs, .ras, .boot, .fabric] ⊆ L) (h : Agree L s0 s) : Agree L s0 t := by
  unfold execTrainingDone at he
  refine node_agree he (fun u hu => ?_) h
  show Agree L s0 _
  refine State.trainingDone_agree (sub hL (by decide)) ?_
  exact hu

theorem execBistWave_agree {L s0 w s t} (he : execBistWave w s = .next t) (hL : [.time, .regs, .ras, .boot, .fabric] ⊆ L) (h : Agree L s0 s) : Agree L s0 t := by
  unfold execBistWave at he
  refine node_agree he (fun u hu => ?_) h
  show Agree L s0 _
  refine State.bistWave_agree (sub hL (by decide)) ?_
  exact hu

theorem execWaveSplit_agree {L s0 powerW s t} (he : execWaveSplit powerW s = .next t) (hL : [.regs] ⊆ L) (h : Agree L s0 s) : Agree L s0 t := by
  unfold execWaveSplit at he
  refine node_agree he (fun u hu => ?_) h
  show Agree L s0 _
  refine State.waveSplit_agree (sub hL (by decide)) ?_
  exact hu

theorem execRetestWave_agree {L s0 block pass s t} (he : execRetestWave block pass s = .next t) (hL : [.regs, .ras, .boot] ⊆ L) (h : Agree L s0 s) : Agree L s0 t := by
  unfold execRetestWave at he
  refine node_agree he (fun u hu => ?_) h
  show Agree L s0 _
  refine State.retestWave_agree (sub hL (by decide)) ?_
  exact hu

theorem execHalfSole1_agree {L s0 s t} (he : execHalfSole1 s = .next t) (hL : [.regs, .boot, .fabric] ⊆ L) (h : Agree L s0 s) : Agree L s0 t := by
  unfold execHalfSole1 at he
  refine node_agree he (fun u hu => ?_) h
  show Agree L s0 _
  refine State.halfSole1_agree (sub hL (by decide)) ?_
  exact hu

theorem execHalfSole2_agree {L s0 s t} (he : execHalfSole2 s = .next t) (hL : [.regs, .boot, .fabric] ⊆ L) (h : Agree L s0 s) : Agree L s0 t := by
  unfold execHalfSole2 at he
  refine node_agree he (fun u hu => ?_) h
  show Agree L s0 _
  refine State.halfSole2_agree (sub hL (by decide)) ?_
  exact hu

theorem execFull_agree {L s0 s t} (he : execFull s = .next t) (hL : [.regs, .boot, .fabric] ⊆ L) (h : Agree L s0 s) : Agree L s0 t := by
  unfold execFull at he
  refine node_agree he (fun u hu => ?_) h
  show Agree L s0 _
  refine State.full_agree (sub hL (by decide)) ?_
  exact hu

theorem execModEnAssert_agree {L s0 s t} (he : execModEnAssert s = .next t) (hL : [.power] ⊆ L) (h : Agree L s0 s) : Agree L s0 t := by
  unfold execModEnAssert at he
  obtain rfl := Host.Outcome.next.inj he
  refine State.modEnAssert_agree (sub hL (by decide)) ?_
  exact h

theorem execRampDone_agree {L s0 s t} (he : execRampDone s = .next t) (hL : [.power, .time, .regs, .boot, .fabric] ⊆ L) (h : Agree L s0 s) : Agree L s0 t := by
  unfold execRampDone at he
  obtain rfl := Host.Outcome.next.inj he
  refine State.rampDone_agree (sub hL (by decide)) ?_
  exact h

theorem execModEnDeassert_agree {L s0 s t} (he : execModEnDeassert s = .next t) (hL : [.power, .time, .regs, .latches, .heldMsgs, .linkOut, .mem, .rings, .sched, .colls, .parts, .pages, .ras, .boot, .fabric, .flash, .link, .attn, .emb, .nb] ⊆ L) (h : Agree L s0 s) : Agree L s0 t := by
  unfold execModEnDeassert at he
  obtain rfl := Host.Outcome.next.inj he
  refine State.modEnDeassert_agree (sub hL (by decide)) ?_
  exact h

theorem execRailOutOfBand_agree {L s0 s t} (he : execRailOutOfBand s = .next t) (hL : [.power, .time, .regs, .latches, .heldMsgs, .linkOut, .mem, .rings, .sched, .colls, .parts, .pages, .ras, .boot, .fabric, .flash, .link, .attn, .emb, .nb] ⊆ L) (h : Agree L s0 s) : Agree L s0 t := by
  unfold execRailOutOfBand at he
  obtain rfl := Host.Outcome.next.inj he
  refine State.railOut_agree (sub hL (by decide)) ?_
  exact h

theorem execInputUndervoltage_agree {L s0 ns s t} (he : execInputUndervoltage ns s = .next t) (hL : [.power, .time, .regs, .latches, .heldMsgs, .linkOut, .mem, .rings, .sched, .colls, .parts, .pages, .ras, .boot, .fabric, .flash, .link, .attn, .emb, .nb] ⊆ L) (h : Agree L s0 s) : Agree L s0 t := by
  unfold execInputUndervoltage at he
  obtain rfl := Host.Outcome.next.inj he
  refine State.undervoltage_agree (sub hL (by decide)) ?_
  exact h

theorem execHardwareThermalShutdown_agree {L s0 dieC stackC s t} (he : execHardwareThermalShutdown dieC stackC s = .next t) (hL : [.power, .time, .regs, .latches, .heldMsgs, .linkOut, .mem, .rings, .sched, .colls, .parts, .pages, .ras, .boot, .fabric, .flash, .link, .attn, .emb, .nb] ⊆ L) (h : Agree L s0 s) : Agree L s0 t := by
  unfold execHardwareThermalShutdown at he
  obtain rfl := Host.Outcome.next.inj he
  refine State.thermalShutdown_agree (sub hL (by decide)) ?_
  exact h

theorem execAttestReady_agree {L s0 s t} (he : execAttestReady s = .next t) (hL : [.regs] ⊆ L) (h : Agree L s0 s) : Agree L s0 t := by
  unfold execAttestReady at he
  refine node_agree he (fun u hu => ?_) h
  show Agree L s0 _
  refine State.cacheRebuilt_agree (sub hL (by decide)) ?_
  exact hu

theorem execGetInfo_agree {L s0 s t} (he : execGetInfo s = .next t) (hL : [.regs] ⊆ L) (h : Agree L s0 s) : Agree L s0 t := by
  unfold execGetInfo at he
  refine node_agree he (fun u hu => ?_) h
  show Agree L s0 _
  refine State.mbRun_agree (sub hL (by decide)) ?_ ?_
  · intro t1_0 t b he h1_0
    try dsimp only at he
    refine State.getInfo_agree he nosub ?_
    exact h1_0
  · exact hu

theorem execSlotWrite_agree {L s0 s t} (he : execSlotWrite s = .next t) (hL : [.regs, .boot] ⊆ L) (h : Agree L s0 s) : Agree L s0 t := by
  unfold execSlotWrite at he
  refine node_agree he (fun u hu => ?_) h
  show Agree L s0 _
  refine State.mbRun_agree (sub hL (by decide)) ?_ ?_
  · intro t1_0 t b he h1_0
    try dsimp only at he
    refine State.slotWrite_agree he (sub hL (by decide)) ?_
    exact h1_0
  · exact hu

theorem execSlotTry_agree {L s0 s t} (he : execSlotTry s = .next t) (hL : [.regs, .boot] ⊆ L) (h : Agree L s0 s) : Agree L s0 t := by
  unfold execSlotTry at he
  refine node_agree he (fun u hu => ?_) h
  show Agree L s0 _
  refine State.mbRun_agree (sub hL (by decide)) ?_ ?_
  · intro t1_0 t b he h1_0
    try dsimp only at he
    refine State.slotTry_agree he (sub hL (by decide)) ?_
    exact h1_0
  · exact hu

theorem execRetireRead_agree {L s0 s t} (he : execRetireRead s = .next t) (hL : [.regs] ⊆ L) (h : Agree L s0 s) : Agree L s0 t := by
  unfold execRetireRead at he
  refine node_agree he (fun u hu => ?_) h
  show Agree L s0 _
  refine State.mbRun_agree (sub hL (by decide)) ?_ ?_
  · intro t1_0 t b he h1_0
    try dsimp only at he
    refine State.retireRead_agree he nosub ?_
    exact h1_0
  · exact hu

theorem execRetireClear_agree {L s0 s t} (he : execRetireClear s = .next t) (hL : [.regs, .ras] ⊆ L) (h : Agree L s0 s) : Agree L s0 t := by
  unfold execRetireClear at he
  refine node_agree he (fun u hu => ?_) h
  show Agree L s0 _
  refine State.mbRun_agree (sub hL (by decide)) ?_ ?_
  · intro t1_0 t b he h1_0
    try dsimp only at he
    refine State.retireClear_agree he (sub hL (by decide)) ?_
    exact h1_0
  · exact hu

theorem execKeyGen_agree {L s0 s t} (he : execKeyGen s = .next t) (hL : [.regs, .boot] ⊆ L) (h : Agree L s0 s) : Agree L s0 t := by
  unfold execKeyGen at he
  refine node_agree he (fun u hu => ?_) h
  show Agree L s0 _
  refine State.mbRun_agree (sub hL (by decide)) ?_ ?_
  · intro t1_0 t b he h1_0
    try dsimp only at he
    refine State.keyGen_agree he (sub hL (by decide)) ?_
    exact h1_0
  · exact hu

theorem execKeyImport_agree {L s0 s t} (he : execKeyImport s = .next t) (hL : [.regs, .boot] ⊆ L) (h : Agree L s0 s) : Agree L s0 t := by
  unfold execKeyImport at he
  refine node_agree he (fun u hu => ?_) h
  show Agree L s0 _
  refine State.mbRun_agree (sub hL (by decide)) ?_ ?_
  · intro t1_0 t b he h1_0
    try dsimp only at he
    refine State.keyImport_agree he (sub hL (by decide)) ?_
    exact h1_0
  · exact hu

theorem execKeyLoad_agree {L s0 s t} (he : execKeyLoad s = .next t) (hL : [.regs, .boot] ⊆ L) (h : Agree L s0 s) : Agree L s0 t := by
  unfold execKeyLoad at he
  refine node_agree he (fun u hu => ?_) h
  show Agree L s0 _
  refine State.mbRun_agree (sub hL (by decide)) ?_ ?_
  · intro t1_0 t b he h1_0
    try dsimp only at he
    refine State.keyLoad_agree he (sub hL (by decide)) ?_
    exact h1_0
  · exact hu

theorem execKeyErase_agree {L s0 s t} (he : execKeyErase s = .next t) (hL : [.regs, .boot] ⊆ L) (h : Agree L s0 s) : Agree L s0 t := by
  unfold execKeyErase at he
  refine node_agree he (fun u hu => ?_) h
  show Agree L s0 _
  refine State.mbRun_agree (sub hL (by decide)) ?_ ?_
  · intro t1_0 t b he h1_0
    try dsimp only at he
    refine State.keyErase_agree he (sub hL (by decide)) ?_
    exact h1_0
  · exact hu

theorem execImageKeyProvision_agree {L s0 s t} (he : execImageKeyProvision s = .next t) (hL : [.regs, .boot] ⊆ L) (h : Agree L s0 s) : Agree L s0 t := by
  unfold execImageKeyProvision at he
  refine node_agree he (fun u hu => ?_) h
  show Agree L s0 _
  refine State.mbRun_agree (sub hL (by decide)) ?_ ?_
  · intro t1_0 t b he h1_0
    try dsimp only at he
    refine State.imageKeyProvision_agree he (sub hL (by decide)) ?_
    exact h1_0
  · exact hu

theorem execImageKeyRevoke_agree {L s0 s t} (he : execImageKeyRevoke s = .next t) (hL : [.regs] ⊆ L) (h : Agree L s0 s) : Agree L s0 t := by
  unfold execImageKeyRevoke at he
  refine node_agree he (fun u hu => ?_) h
  show Agree L s0 _
  refine State.mbRun_agree (sub hL (by decide)) ?_ ?_
  · intro t1_0 t b he h1_0
    try dsimp only at he
    refine State.imageKeyRevoke_agree he (sub hL (by decide)) ?_
    exact h1_0
  · exact hu

theorem execSecFloorRaise_agree {L s0 s t} (he : execSecFloorRaise s = .next t) (hL : [.regs] ⊆ L) (h : Agree L s0 s) : Agree L s0 t := by
  unfold execSecFloorRaise at he
  refine node_agree he (fun u hu => ?_) h
  show Agree L s0 _
  refine State.mbRun_agree (sub hL (by decide)) ?_ ?_
  · intro t1_0 t b he h1_0
    try dsimp only at he
    refine State.secFloorRaise_agree he (sub hL (by decide)) ?_
    exact h1_0
  · exact hu

theorem execAttest_agree {L s0 sinceS s t} (he : execAttest sinceS s = .next t) (hL : [.regs, .boot] ⊆ L) (h : Agree L s0 s) : Agree L s0 t := by
  unfold execAttest at he
  refine node_agree he (fun u hu => ?_) h
  show Agree L s0 _
  refine State.mbRun_agree (sub hL (by decide)) ?_ ?_
  · intro t1_0 t b he h1_0
    try dsimp only at he
    refine State.attestQuote_agree he (sub hL (by decide)) ?_
    exact h1_0
  · exact hu

theorem execAttestCertCmd_agree {L s0 s t} (he : execAttestCertCmd s = .next t) (hL : [.regs] ⊆ L) (h : Agree L s0 s) : Agree L s0 t := by
  unfold execAttestCertCmd at he
  refine node_agree he (fun u hu => ?_) h
  show Agree L s0 _
  refine State.mbRun_agree (sub hL (by decide)) ?_ ?_
  · intro t1_0 t b he h1_0
    try dsimp only at he
    refine State.attestCert_agree he nosub ?_
    exact h1_0
  · exact hu

end Sys2Proof.Machine
end

