-- ==== Sys2Proof/Laws/KeepStitchRows.lean ====
section
/-! SUPPORT. What the operations of Machine/StitchRows.lean may touch. -/

namespace Sys2Proof.Machine

open Sys2Proof

theorem execStitchBoundary_agree {L s0 inp s t} (he : execStitchBoundary inp s = .next t) (hL : [.freshCount, .power, .time, .regs, .linkOut, .mem, .rings, .sched, .colls, .parts, .pages, .ras, .boot, .fabric, .flash, .link, .attn, .emb, .nb] ⊆ L) (h : Agree L s0 s) : Agree L s0 t := by
  unfold execStitchBoundary at he
  refine node_agree he (fun u hu => ?_) h
  show Agree L s0 _
  refine State.boundary_agree (sub hL (by decide)) ?_
  exact hu

theorem execCommitAtRelease_agree {L s0 s t} (he : execCommitAtRelease s = .next t) (hL : [.regs, .linkOut, .mem, .pages, .fabric, .flash, .link] ⊆ L) (h : Agree L s0 s) : Agree L s0 t := by
  unfold execCommitAtRelease at he
  refine node_agree he (fun u hu => ?_) h
  show Agree L s0 _
  refine State.commitAtRelease_agree (sub hL (by decide)) ?_
  exact hu

theorem execCommitWrite_agree {L s0 agent dom b' s t} (he : execCommitWrite agent dom b' s = .next t) (hL : [.freshCount, .regs, .latches, .heldMsgs, .linkOut, .mem, .pages, .ras, .flash, .link, .nb] ⊆ L) (h : Agree L s0 s) : Agree L s0 t := by
  unfold execCommitWrite at he
  refine node_agree he (fun u hu => ?_) h
  show Agree L s0 _
  refine State.ctrlWrite_agree (sub hL (by decide)) ?_
  exact hu

theorem execCommitWithdraw_agree {L s0 agent dom b' s t} (he : execCommitWithdraw agent dom b' s = .next t) (hL : [.freshCount, .regs, .latches, .heldMsgs, .linkOut, .mem, .pages, .ras, .flash, .link, .nb] ⊆ L) (h : Agree L s0 s) : Agree L s0 t := by
  unfold execCommitWithdraw at he
  refine node_agree he (fun u hu => ?_) h
  show Agree L s0 _
  refine State.ctrlWrite_agree (sub hL (by decide)) ?_
  exact hu

theorem execHoldSet_agree {L s0 agent dom s t} (he : execHoldSet agent dom s = .next t) (hL : [.freshCount, .regs, .latches, .heldMsgs, .linkOut, .mem, .pages, .ras, .flash, .link, .nb] ⊆ L) (h : Agree L s0 s) : Agree L s0 t := by
  unfold execHoldSet at he
  refine node_agree he (fun u hu => ?_) h
  show Agree L s0 _
  refine State.ctrlWrite_agree (sub hL (by decide)) ?_
  exact hu

theorem execHoldClear_agree {L s0 agent dom s t} (he : execHoldClear agent dom s = .next t) (hL : [.freshCount, .regs, .latches, .heldMsgs, .linkOut, .mem, .pages, .ras, .flash, .link, .nb] ⊆ L) (h : Agree L s0 s) : Agree L s0 t := by
  unfold execHoldClear at he
  refine node_agree he (fun u hu => ?_) h
  show Agree L s0 _
  refine State.ctrlWrite_agree (sub hL (by decide)) ?_
  exact hu

theorem execAtEnSet_agree {L s0 agent dom s t} (he : execAtEnSet agent dom s = .next t) (hL : [.freshCount, .regs, .latches, .heldMsgs, .linkOut, .mem, .pages, .ras, .flash, .link, .nb] ⊆ L) (h : Agree L s0 s) : Agree L s0 t := by
  unfold execAtEnSet at he
  refine node_agree he (fun u hu => ?_) h
  show Agree L s0 _
  refine State.ctrlWrite_agree (sub hL (by decide)) ?_
  exact hu

theorem execShadowWrite_agree {L s0 agent dom off data s t} (he : execShadowWrite agent dom off data s = .next t) (hL : [.freshCount, .regs, .latches, .heldMsgs, .linkOut, .mem, .pages, .ras, .flash, .link, .nb] ⊆ L) (h : Agree L s0 s) : Agree L s0 t := by
  unfold execShadowWrite at he
  refine node_agree he (fun u hu => ?_) h
  show Agree L s0 _
  refine State.regMessage_agree (sub hL (by decide)) ?_
  exact hu

theorem execRegWr_agree {L s0 agent dom off data s t} (he : execRegWr agent dom off data s = .next t) (hL : [.freshCount, .regs, .latches, .heldMsgs, .linkOut, .mem, .pages, .ras, .flash, .link, .nb] ⊆ L) (h : Agree L s0 s) : Agree L s0 t := by
  unfold execRegWr at he
  refine node_agree he (fun u hu => ?_) h
  show Agree L s0 _
  refine State.regMessage_agree (sub hL (by decide)) ?_
  exact hu

theorem execLowRegisterRead_agree {L s0 agent dom off s t} (he : execLowRegisterRead agent dom off s = .next t) (hL : [.freshCount, .regs, .latches, .heldMsgs, .linkOut, .mem, .pages, .ras, .flash, .link, .nb] ⊆ L) (h : Agree L s0 s) : Agree L s0 t := by
  unfold execLowRegisterRead at he
  refine node_agree he (fun u hu => ?_) h
  show Agree L s0 _
  refine State.regMessage_agree (sub hL (by decide)) ?_
  exact hu

theorem execHeldRegisterMessage_agree {L s0 s t} (he : execHeldRegisterMessage s = .next t) (hL : [.freshCount, .time, .regs, .latches, .heldMsgs, .linkOut, .mem, .pages, .ras, .flash, .link, .nb] ⊆ L) (h : Agree L s0 s) : Agree L s0 t := by
  unfold execHeldRegisterMessage at he
  refine node_agree he (fun u hu => ?_) h
  show Agree L s0 _
  refine State.serveHeld_agree (sub hL (by decide)) ?_
  exact hu

theorem execSyncMessage_agree {L s0 offsetNs seconds s t} (he : execSyncMessage offsetNs seconds s = .next t) (hL : [.time, .regs] ⊆ L) (h : Agree L s0 s) : Agree L s0 t := by
  unfold execSyncMessage at he
  refine node_agree he (fun u hu => ?_) h
  show Agree L s0 _
  refine State.syncMessage_agree (sub hL (by decide)) ?_
  exact hu

theorem execPeerDelayMessage_agree {L s0 port delayNs s t} (he : execPeerDelayMessage port delayNs s = .next t) (hL : [.time] ⊆ L) (h : Agree L s0 s) : Agree L s0 t := by
  unfold execPeerDelayMessage at he
  refine node_agree he (fun u hu => ?_) h
  show Agree L s0 _
  refine State.peerDelay_agree (sub hL (by decide)) ?_
  exact hu

theorem execSyncLoss_agree {L s0 s t} (he : execSyncLoss s = .next t) (hL : [.regs] ⊆ L) (h : Agree L s0 s) : Agree L s0 t := by
  unfold execSyncLoss at he
  refine node_agree he (fun u hu => ?_) h
  show Agree L s0 _
  refine State.syncLoss_agree (sub hL (by decide)) ?_
  exact hu

theorem execHoldoverLimitExceeded_agree {L s0 errorNs s t} (he : execHoldoverLimitExceeded errorNs s = .next t) (hL : [.time, .regs] ⊆ L) (h : Agree L s0 s) : Agree L s0 t := by
  unfold execHoldoverLimitExceeded at he
  refine node_agree he (fun u hu => ?_) h
  show Agree L s0 _
  refine State.holdoverOut_agree (sub hL (by decide)) ?_
  exact hu

theorem execPpsPulse_agree {L s0 second s t} (he : execPpsPulse second s = .next t) (hL : [.power, .time] ⊆ L) (h : Agree L s0 s) : Agree L s0 t := by
  unfold execPpsPulse at he
  refine node_agree he (fun u hu => ?_) h
  show Agree L s0 _
  refine State.pps_agree (sub hL (by decide)) ?_
  exact hu

theorem execSliceAdmit_agree {L s0 kind idx start s t} (he : execSliceAdmit kind idx start s = .next t) (hL : [.freshCount, .time, .regs, .linkOut, .mem, .rings, .sched, .colls, .pages, .ras, .fabric, .flash, .link, .emb, .nb] ⊆ L) (h : Agree L s0 s) : Agree L s0 t := by
  unfold execSliceAdmit at he
  refine node_agree he (fun u hu => ?_) h
  show Agree L s0 _
  refine State.sliceAdmit_agree (sub hL (by decide)) ?_
  exact hu

theorem execOverrun_agree {L s0 sid s t} (he : execOverrun sid s = .next t) (hL : [.freshCount, .time, .regs, .linkOut, .mem, .sched, .pages, .ras, .flash, .link, .nb] ⊆ L) (h : Agree L s0 s) : Agree L s0 t := by
  unfold execOverrun at he
  refine node_agree he (fun u hu => ?_) h
  show Agree L s0 _
  refine State.overrun_agree (sub hL (by decide)) ?_
  exact hu

theorem execOverrunLimit_agree {L s0 e idx s t} (he : execOverrunLimit e idx s = .next t) (hL : [.regs, .ras] ⊆ L) (h : Agree L s0 s) : Agree L s0 t := by
  unfold execOverrunLimit at he
  refine node_agree he (fun u hu => ?_) h
  show Agree L s0 _
  refine State.checkOverruns_agree (sub hL (by decide)) ?_
  exact hu

theorem execAdmitWaitExpiry_agree {L s0 job s t} (he : execAdmitWaitExpiry job s = .next t) (hL : [.freshCount, .regs, .linkOut, .mem, .rings, .sched, .colls, .pages, .ras, .fabric, .flash, .link, .emb, .nb] ⊆ L) (h : Agree L s0 s) : Agree L s0 t := by
  unfold execAdmitWaitExpiry at he
  refine node_agree he (fun u hu => ?_) h
  show Agree L s0 _
  refine State.expire_agree (sub hL (by decide)) ?_
  exact hu

end Sys2Proof.Machine
end

