-- ==== Sys2Proof/Laws/Bits.lean ====
section
/-! SUPPORT. The laws of bit fields: what is put reads back, and every other field stays. -/
namespace Sys2Proof

/-- A word in three parts: above a field, the field, below it. -/
theorem word_split (w lo n : Nat) : w = w / 2 ^ (lo + n) * 2 ^ (lo + n) + fieldOf w lo n * 2 ^ lo + w % 2 ^ lo := by
  unfold fieldOf
  rw [Nat.shiftRight_eq_div_pow, Nat.pow_add, ← Nat.div_div_eq_div_mul]
  have h1 := Nat.div_add_mod w (2 ^ lo)
  have h2 := Nat.div_add_mod (w / 2 ^ lo) (2 ^ n)
  calc w = 2 ^ lo * (w / 2 ^ lo) + w % 2 ^ lo := h1.symm
    _ = 2 ^ lo * (2 ^ n * (w / 2 ^ lo / 2 ^ n) + w / 2 ^ lo % 2 ^ n) + w % 2 ^ lo := by rw [h2]
    _ = _ := by ring

theorem fieldOf_lt (w lo n : Nat) : fieldOf w lo n < 2 ^ n := Nat.mod_lt _ (Nat.two_pow_pos n)

/-- The word after a field is put. -/
theorem fieldPut_eq (w lo n v : Nat) : fieldPut w lo n v = w / 2 ^ (lo + n) * 2 ^ (lo + n) + v % 2 ^ n * 2 ^ lo + w % 2 ^ lo := by
  unfold fieldPut
  rw [Nat.shiftLeft_eq, Nat.shiftLeft_eq]
  have h := word_split w lo n
  omega

/-- Parts of such a word. -/
theorem parts_eq (a b c lo n : Nat) (hb : b < 2 ^ n) (hc : c < 2 ^ lo) :
    (a * 2 ^ (lo + n) + b * 2 ^ lo + c) / 2 ^ (lo + n) = a ∧ fieldOf (a * 2 ^ (lo + n) + b * 2 ^ lo + c) lo n = b ∧
      (a * 2 ^ (lo + n) + b * 2 ^ lo + c) % 2 ^ lo = c := by
  have hp : 0 < 2 ^ lo := Nat.two_pow_pos lo
  have hq : 0 < 2 ^ n := Nat.two_pow_pos n
  have e : a * 2 ^ (lo + n) + b * 2 ^ lo + c = 2 ^ lo * (2 ^ n * a + b) + c := by rw [Nat.pow_add]; ring
  have d1 : (2 ^ lo * (2 ^ n * a + b) + c) / 2 ^ lo = 2 ^ n * a + b := by
    rw [Nat.mul_add_div hp, Nat.div_eq_of_lt hc, Nat.add_zero]
  refine ⟨?_, ?_, ?_⟩
  · rw [e, Nat.pow_add, ← Nat.div_div_eq_div_mul, d1, Nat.mul_add_div hq, Nat.div_eq_of_lt hb, Nat.add_zero]
  · unfold fieldOf
    rw [Nat.shiftRight_eq_div_pow, e, d1, Nat.mul_add_mod, Nat.mod_eq_of_lt hb]
  · rw [e, Nat.mul_add_mod, Nat.mod_eq_of_lt hc]

theorem fieldPut_lt {w lo n v m : Nat} (hw : w < 2 ^ m) (h : lo + n ≤ m) : fieldPut w lo n v < 2 ^ m := by
  rw [fieldPut_eq]
  have hv : v % 2 ^ n < 2 ^ n := Nat.mod_lt _ (Nat.two_pow_pos n)
  have hc : w % 2 ^ lo < 2 ^ lo := Nat.mod_lt _ (Nat.two_pow_pos lo)
  have hm : 2 ^ m = 2 ^ (m - (lo + n)) * 2 ^ (lo + n) := by rw [← Nat.pow_add]; congr 1; omega
  have ha : w / 2 ^ (lo + n) < 2 ^ (m - (lo + n)) := by
    rw [Nat.div_lt_iff_lt_mul (Nat.two_pow_pos _), ← hm]; exact hw
  have h1 : v % 2 ^ n * 2 ^ lo + w % 2 ^ lo < 2 ^ (lo + n) := by
    rw [Nat.pow_add]
    have : (v % 2 ^ n + 1) * 2 ^ lo ≤ 2 ^ n * 2 ^ lo := Nat.mul_le_mul_right _ hv
    rw [Nat.add_mul, Nat.one_mul] at this
    rw [Nat.mul_comm (2 ^ lo)]
    omega
  have h2 : (w / 2 ^ (lo + n) + 1) * 2 ^ (lo + n) ≤ 2 ^ (m - (lo + n)) * 2 ^ (lo + n) := Nat.mul_le_mul_right _ ha
  rw [Nat.add_mul, Nat.one_mul] at h2
  omega

/-- The field that was put. -/
theorem fieldOf_fieldPut_same (w lo n v : Nat) : fieldOf (fieldPut w lo n v) lo n = v % 2 ^ n := by
  rw [fieldPut_eq]
  exact (parts_eq _ _ _ lo n (Nat.mod_lt _ (Nat.two_pow_pos n)) (Nat.mod_lt _ (Nat.two_pow_pos lo))).2.1

/-- A field below. -/
theorem fieldOf_fieldPut_below (w lo n v a b : Nat) (h : a + b ≤ lo) : fieldOf (fieldPut w lo n v) a b = fieldOf w a b := by
  have hlow := (parts_eq (w / 2 ^ (lo + n)) (v % 2 ^ n) (w % 2 ^ lo) lo n (Nat.mod_lt _ (Nat.two_pow_pos n)) (Nat.mod_lt _ (Nat.two_pow_pos lo))).2.2
  rw [← fieldPut_eq] at hlow
  have key : ∀ x, fieldOf x a b = fieldOf (x % 2 ^ lo) a b := by
    intro x
    unfold fieldOf
    rw [Nat.shiftRight_eq_div_pow, Nat.shiftRight_eq_div_pow]
    have hl : 2 ^ lo = 2 ^ a * (2 ^ b * 2 ^ (lo - a - b)) := by rw [← Nat.pow_add, ← Nat.pow_add]; congr 1; omega
    rw [hl, Nat.mod_mul_right_div_self, Nat.mod_mul_right_mod]
  rw [key, hlow, ← key]

/-- A field above. -/
theorem fieldOf_fieldPut_above (w lo n v a b : Nat) (h : lo + n ≤ a) : fieldOf (fieldPut w lo n v) a b = fieldOf w a b := by
  have hhi := (parts_eq (w / 2 ^ (lo + n)) (v % 2 ^ n) (w % 2 ^ lo) lo n (Nat.mod_lt _ (Nat.two_pow_pos n)) (Nat.mod_lt _ (Nat.two_pow_pos lo))).1
  rw [← fieldPut_eq] at hhi
  have key : ∀ x, fieldOf x a b = (x / 2 ^ (lo + n)) / 2 ^ (a - (lo + n)) % 2 ^ b := by
    intro x
    unfold fieldOf
    rw [Nat.shiftRight_eq_div_pow, Nat.div_div_eq_div_mul, ← Nat.pow_add]
    congr 3; omega
  rw [key, hhi, ← key]

end Sys2Proof
end

