-- ==== Sys2Proof/Laws/State.lean ====
section
/-! SUPPORT. The state's named writes, field by field: each leaves every other field as it was, and a register field reads back
what was put there. -/

namespace Sys2Proof.Machine

open Sys2Proof

@[simp] theorem State.setReg_pending (s : State) (a : Nat) (w : Word) : (s.setReg a w).pending = s.pending := rfl
@[simp] theorem State.setReg_freshCount (s : State) (a : Nat) (w : Word) : (s.setReg a w).freshCount = s.freshCount := rfl
@[simp] theorem State.setReg_power (s : State) (a : Nat) (w : Word) : (s.setReg a w).power = s.power := rfl
@[simp] theorem State.setReg_time (s : State) (a : Nat) (w : Word) : (s.setReg a w).time = s.time := rfl
@[simp] theorem State.setReg_latches (s : State) (a : Nat) (w : Word) : (s.setReg a w).latches = s.latches := rfl
@[simp] theorem State.setReg_heldMsgs (s : State) (a : Nat) (w : Word) : (s.setReg a w).heldMsgs = s.heldMsgs := rfl
@[simp] theorem State.setReg_linkOut (s : State) (a : Nat) (w : Word) : (s.setReg a w).linkOut = s.linkOut := rfl
@[simp] theorem State.setReg_mem (s : State) (a : Nat) (w : Word) : (s.setReg a w).mem = s.mem := rfl
@[simp] theorem State.setReg_rings (s : State) (a : Nat) (w : Word) : (s.setReg a w).rings = s.rings := rfl
@[simp] theorem State.setReg_sched (s : State) (a : Nat) (w : Word) : (s.setReg a w).sched = s.sched := rfl
@[simp] theorem State.setReg_colls (s : State) (a : Nat) (w : Word) : (s.setReg a w).colls = s.colls := rfl
@[simp] theorem State.setReg_parts (s : State) (a : Nat) (w : Word) : (s.setReg a w).parts = s.parts := rfl
@[simp] theorem State.setReg_pages (s : State) (a : Nat) (w : Word) : (s.setReg a w).pages = s.pages := rfl
@[simp] theorem State.setReg_ras (s : State) (a : Nat) (w : Word) : (s.setReg a w).ras = s.ras := rfl
@[simp] theorem State.setReg_boot (s : State) (a : Nat) (w : Word) : (s.setReg a w).boot = s.boot := rfl
@[simp] theorem State.setReg_fabric (s : State) (a : Nat) (w : Word) : (s.setReg a w).fabric = s.fabric := rfl
@[simp] theorem State.setReg_flash (s : State) (a : Nat) (w : Word) : (s.setReg a w).flash = s.flash := rfl
@[simp] theorem State.setReg_link (s : State) (a : Nat) (w : Word) : (s.setReg a w).link = s.link := rfl
@[simp] theorem State.setReg_attn (s : State) (a : Nat) (w : Word) : (s.setReg a w).attn = s.attn := rfl
@[simp] theorem State.setReg_emb (s : State) (a : Nat) (w : Word) : (s.setReg a w).emb = s.emb := rfl
@[simp] theorem State.setReg_nb (s : State) (a : Nat) (w : Word) : (s.setReg a w).nb = s.nb := rfl

@[simp] theorem State.setFld_pending (s : State) (f : Fld) (v : Nat) : (s.setFld f v).pending = s.pending := rfl
@[simp] theorem State.setFld_freshCount (s : State) (f : Fld) (v : Nat) : (s.setFld f v).freshCount = s.freshCount := rfl
@[simp] theorem State.setFld_power (s : State) (f : Fld) (v : Nat) : (s.setFld f v).power = s.power := rfl
@[simp] theorem State.setFld_time (s : State) (f : Fld) (v : Nat) : (s.setFld f v).time = s.time := rfl
@[simp] theorem State.setFld_latches (s : State) (f : Fld) (v : Nat) : (s.setFld f v).latches = s.latches := rfl
@[simp] theorem State.setFld_heldMsgs (s : State) (f : Fld) (v : Nat) : (s.setFld f v).heldMsgs = s.heldMsgs := rfl
@[simp] theorem State.setFld_linkOut (s : State) (f : Fld) (v : Nat) : (s.setFld f v).linkOut = s.linkOut := rfl
@[simp] theorem State.setFld_mem (s : State) (f : Fld) (v : Nat) : (s.setFld f v).mem = s.mem := rfl
@[simp] theorem State.setFld_rings (s : State) (f : Fld) (v : Nat) : (s.setFld f v).rings = s.rings := rfl
@[simp] theorem State.setFld_sched (s : State) (f : Fld) (v : Nat) : (s.setFld f v).sched = s.sched := rfl
@[simp] theorem State.setFld_colls (s : State) (f : Fld) (v : Nat) : (s.setFld f v).colls = s.colls := rfl
@[simp] theorem State.setFld_parts (s : State) (f : Fld) (v : Nat) : (s.setFld f v).parts = s.parts := rfl
@[simp] theorem State.setFld_pages (s : State) (f : Fld) (v : Nat) : (s.setFld f v).pages = s.pages := rfl
@[simp] theorem State.setFld_ras (s : State) (f : Fld) (v : Nat) : (s.setFld f v).ras = s.ras := rfl
@[simp] theorem State.setFld_boot (s : State) (f : Fld) (v : Nat) : (s.setFld f v).boot = s.boot := rfl
@[simp] theorem State.setFld_fabric (s : State) (f : Fld) (v : Nat) : (s.setFld f v).fabric = s.fabric := rfl
@[simp] theorem State.setFld_flash (s : State) (f : Fld) (v : Nat) : (s.setFld f v).flash = s.flash := rfl
@[simp] theorem State.setFld_link (s : State) (f : Fld) (v : Nat) : (s.setFld f v).link = s.link := rfl
@[simp] theorem State.setFld_attn (s : State) (f : Fld) (v : Nat) : (s.setFld f v).attn = s.attn := rfl
@[simp] theorem State.setFld_emb (s : State) (f : Fld) (v : Nat) : (s.setFld f v).emb = s.emb := rfl
@[simp] theorem State.setFld_nb (s : State) (f : Fld) (v : Nat) : (s.setFld f v).nb = s.nb := rfl

@[simp] theorem State.bumpBy_pending (s : State) (f : Fld) (n : Nat) : (s.bumpBy f n).pending = s.pending := rfl
@[simp] theorem State.bumpBy_freshCount (s : State) (f : Fld) (n : Nat) : (s.bumpBy f n).freshCount = s.freshCount := rfl
@[simp] theorem State.bumpBy_power (s : State) (f : Fld) (n : Nat) : (s.bumpBy f n).power = s.power := rfl
@[simp] theorem State.bumpBy_time (s : State) (f : Fld) (n : Nat) : (s.bumpBy f n).time = s.time := rfl
@[simp] theorem State.bumpBy_latches (s : State) (f : Fld) (n : Nat) : (s.bumpBy f n).latches = s.latches := rfl
@[simp] theorem State.bumpBy_heldMsgs (s : State) (f : Fld) (n : Nat) : (s.bumpBy f n).heldMsgs = s.heldMsgs := rfl
@[simp] theorem State.bumpBy_linkOut (s : State) (f : Fld) (n : Nat) : (s.bumpBy f n).linkOut = s.linkOut := rfl
@[simp] theorem State.bumpBy_mem (s : State) (f : Fld) (n : Nat) : (s.bumpBy f n).mem = s.mem := rfl
@[simp] theorem State.bumpBy_rings (s : State) (f : Fld) (n : Nat) : (s.bumpBy f n).rings = s.rings := rfl
@[simp] theorem State.bumpBy_sched (s : State) (f : Fld) (n : Nat) : (s.bumpBy f n).sched = s.sched := rfl
@[simp] theorem State.bumpBy_colls (s : State) (f : Fld) (n : Nat) : (s.bumpBy f n).colls = s.colls := rfl
@[simp] theorem State.bumpBy_parts (s : State) (f : Fld) (n : Nat) : (s.bumpBy f n).parts = s.parts := rfl
@[simp] theorem State.bumpBy_pages (s : State) (f : Fld) (n : Nat) : (s.bumpBy f n).pages = s.pages := rfl
@[simp] theorem State.bumpBy_ras (s : State) (f : Fld) (n : Nat) : (s.bumpBy f n).ras = s.ras := rfl
@[simp] theorem State.bumpBy_boot (s : State) (f : Fld) (n : Nat) : (s.bumpBy f n).boot = s.boot := rfl
@[simp] theorem State.bumpBy_fabric (s : State) (f : Fld) (n : Nat) : (s.bumpBy f n).fabric = s.fabric := rfl
@[simp] theorem State.bumpBy_flash (s : State) (f : Fld) (n : Nat) : (s.bumpBy f n).flash = s.flash := rfl
@[simp] theorem State.bumpBy_link (s : State) (f : Fld) (n : Nat) : (s.bumpBy f n).link = s.link := rfl
@[simp] theorem State.bumpBy_attn (s : State) (f : Fld) (n : Nat) : (s.bumpBy f n).attn = s.attn := rfl
@[simp] theorem State.bumpBy_emb (s : State) (f : Fld) (n : Nat) : (s.bumpBy f n).emb = s.emb := rfl
@[simp] theorem State.bumpBy_nb (s : State) (f : Fld) (n : Nat) : (s.bumpBy f n).nb = s.nb := rfl

@[simp] theorem State.bump_pending (s : State) (f : Fld) : (s.bump f).pending = s.pending := rfl
@[simp] theorem State.bump_freshCount (s : State) (f : Fld) : (s.bump f).freshCount = s.freshCount := rfl
@[simp] theorem State.bump_power (s : State) (f : Fld) : (s.bump f).power = s.power := rfl
@[simp] theorem State.bump_time (s : State) (f : Fld) : (s.bump f).time = s.time := rfl
@[simp] theorem State.bump_latches (s : State) (f : Fld) : (s.bump f).latches = s.latches := rfl
@[simp] theorem State.bump_heldMsgs (s : State) (f : Fld) : (s.bump f).heldMsgs = s.heldMsgs := rfl
@[simp] theorem State.bump_linkOut (s : State) (f : Fld) : (s.bump f).linkOut = s.linkOut := rfl
@[simp] theorem State.bump_mem (s : State) (f : Fld) : (s.bump f).mem = s.mem := rfl
@[simp] theorem State.bump_rings (s : State) (f : Fld) : (s.bump f).rings = s.rings := rfl
@[simp] theorem State.bump_sched (s : State) (f : Fld) : (s.bump f).sched = s.sched := rfl
@[simp] theorem State.bump_colls (s : State) (f : Fld) : (s.bump f).colls = s.colls := rfl
@[simp] theorem State.bump_parts (s : State) (f : Fld) : (s.bump f).parts = s.parts := rfl
@[simp] theorem State.bump_pages (s : State) (f : Fld) : (s.bump f).pages = s.pages := rfl
@[simp] theorem State.bump_ras (s : State) (f : Fld) : (s.bump f).ras = s.ras := rfl
@[simp] theorem State.bump_boot (s : State) (f : Fld) : (s.bump f).boot = s.boot := rfl
@[simp] theorem State.bump_fabric (s : State) (f : Fld) : (s.bump f).fabric = s.fabric := rfl
@[simp] theorem State.bump_flash (s : State) (f : Fld) : (s.bump f).flash = s.flash := rfl
@[simp] theorem State.bump_link (s : State) (f : Fld) : (s.bump f).link = s.link := rfl
@[simp] theorem State.bump_attn (s : State) (f : Fld) : (s.bump f).attn = s.attn := rfl
@[simp] theorem State.bump_emb (s : State) (f : Fld) : (s.bump f).emb = s.emb := rfl
@[simp] theorem State.bump_nb (s : State) (f : Fld) : (s.bump f).nb = s.nb := rfl

@[simp] theorem State.setWide_pending (s : State) (f g : Fld) (n : Nat) : (s.setWide f g n).pending = s.pending := rfl
@[simp] theorem State.setWide_freshCount (s : State) (f g : Fld) (n : Nat) : (s.setWide f g n).freshCount = s.freshCount := rfl
@[simp] theorem State.setWide_power (s : State) (f g : Fld) (n : Nat) : (s.setWide f g n).power = s.power := rfl
@[simp] theorem State.setWide_time (s : State) (f g : Fld) (n : Nat) : (s.setWide f g n).time = s.time := rfl
@[simp] theorem State.setWide_latches (s : State) (f g : Fld) (n : Nat) : (s.setWide f g n).latches = s.latches := rfl
@[simp] theorem State.setWide_heldMsgs (s : State) (f g : Fld) (n : Nat) : (s.setWide f g n).heldMsgs = s.heldMsgs := rfl
@[simp] theorem State.setWide_linkOut (s : State) (f g : Fld) (n : Nat) : (s.setWide f g n).linkOut = s.linkOut := rfl
@[simp] theorem State.setWide_mem (s : State) (f g : Fld) (n : Nat) : (s.setWide f g n).mem = s.mem := rfl
@[simp] theorem State.setWide_rings (s : State) (f g : Fld) (n : Nat) : (s.setWide f g n).rings = s.rings := rfl
@[simp] theorem State.setWide_sched (s : State) (f g : Fld) (n : Nat) : (s.setWide f g n).sched = s.sched := rfl
@[simp] theorem State.setWide_colls (s : State) (f g : Fld) (n : Nat) : (s.setWide f g n).colls = s.colls := rfl
@[simp] theorem State.setWide_parts (s : State) (f g : Fld) (n : Nat) : (s.setWide f g n).parts = s.parts := rfl
@[simp] theorem State.setWide_pages (s : State) (f g : Fld) (n : Nat) : (s.setWide f g n).pages = s.pages := rfl
@[simp] theorem State.setWide_ras (s : State) (f g : Fld) (n : Nat) : (s.setWide f g n).ras = s.ras := rfl
@[simp] theorem State.setWide_boot (s : State) (f g : Fld) (n : Nat) : (s.setWide f g n).boot = s.boot := rfl
@[simp] theorem State.setWide_fabric (s : State) (f g : Fld) (n : Nat) : (s.setWide f g n).fabric = s.fabric := rfl
@[simp] theorem State.setWide_flash (s : State) (f g : Fld) (n : Nat) : (s.setWide f g n).flash = s.flash := rfl
@[simp] theorem State.setWide_link (s : State) (f g : Fld) (n : Nat) : (s.setWide f g n).link = s.link := rfl
@[simp] theorem State.setWide_attn (s : State) (f g : Fld) (n : Nat) : (s.setWide f g n).attn = s.attn := rfl
@[simp] theorem State.setWide_emb (s : State) (f g : Fld) (n : Nat) : (s.setWide f g n).emb = s.emb := rfl
@[simp] theorem State.setWide_nb (s : State) (f g : Fld) (n : Nat) : (s.setWide f g n).nb = s.nb := rfl

@[simp] theorem State.fresh_pending (s : State) : (s.fresh).pending = s.pending := rfl
@[simp] theorem State.fresh_power (s : State) : (s.fresh).power = s.power := rfl
@[simp] theorem State.fresh_time (s : State) : (s.fresh).time = s.time := rfl
@[simp] theorem State.fresh_regs (s : State) : (s.fresh).regs = s.regs := rfl
@[simp] theorem State.fresh_latches (s : State) : (s.fresh).latches = s.latches := rfl
@[simp] theorem State.fresh_heldMsgs (s : State) : (s.fresh).heldMsgs = s.heldMsgs := rfl
@[simp] theorem State.fresh_linkOut (s : State) : (s.fresh).linkOut = s.linkOut := rfl
@[simp] theorem State.fresh_mem (s : State) : (s.fresh).mem = s.mem := rfl
@[simp] theorem State.fresh_rings (s : State) : (s.fresh).rings = s.rings := rfl
@[simp] theorem State.fresh_sched (s : State) : (s.fresh).sched = s.sched := rfl
@[simp] theorem State.fresh_colls (s : State) : (s.fresh).colls = s.colls := rfl
@[simp] theorem State.fresh_parts (s : State) : (s.fresh).parts = s.parts := rfl
@[simp] theorem State.fresh_pages (s : State) : (s.fresh).pages = s.pages := rfl
@[simp] theorem State.fresh_ras (s : State) : (s.fresh).ras = s.ras := rfl
@[simp] theorem State.fresh_boot (s : State) : (s.fresh).boot = s.boot := rfl
@[simp] theorem State.fresh_fabric (s : State) : (s.fresh).fabric = s.fabric := rfl
@[simp] theorem State.fresh_flash (s : State) : (s.fresh).flash = s.flash := rfl
@[simp] theorem State.fresh_link (s : State) : (s.fresh).link = s.link := rfl
@[simp] theorem State.fresh_attn (s : State) : (s.fresh).attn = s.attn := rfl
@[simp] theorem State.fresh_emb (s : State) : (s.fresh).emb = s.emb := rfl
@[simp] theorem State.fresh_nb (s : State) : (s.fresh).nb = s.nb := rfl

@[simp] theorem State.setPage_pending (s : State) (p : Nat) (v : Page) : (s.setPage p v).pending = s.pending := rfl
@[simp] theorem State.setPage_freshCount (s : State) (p : Nat) (v : Page) : (s.setPage p v).freshCount = s.freshCount := rfl
@[simp] theorem State.setPage_power (s : State) (p : Nat) (v : Page) : (s.setPage p v).power = s.power := rfl
@[simp] theorem State.setPage_time (s : State) (p : Nat) (v : Page) : (s.setPage p v).time = s.time := rfl
@[simp] theorem State.setPage_regs (s : State) (p : Nat) (v : Page) : (s.setPage p v).regs = s.regs := rfl
@[simp] theorem State.setPage_latches (s : State) (p : Nat) (v : Page) : (s.setPage p v).latches = s.latches := rfl
@[simp] theorem State.setPage_heldMsgs (s : State) (p : Nat) (v : Page) : (s.setPage p v).heldMsgs = s.heldMsgs := rfl
@[simp] theorem State.setPage_linkOut (s : State) (p : Nat) (v : Page) : (s.setPage p v).linkOut = s.linkOut := rfl
@[simp] theorem State.setPage_mem (s : State) (p : Nat) (v : Page) : (s.setPage p v).mem = s.mem := rfl
@[simp] theorem State.setPage_rings (s : State) (p : Nat) (v : Page) : (s.setPage p v).rings = s.rings := rfl
@[simp] theorem State.setPage_sched (s : State) (p : Nat) (v : Page) : (s.setPage p v).sched = s.sched := rfl
@[simp] theorem State.setPage_colls (s : State) (p : Nat) (v : Page) : (s.setPage p v).colls = s.colls := rfl
@[simp] theorem State.setPage_parts (s : State) (p : Nat) (v : Page) : (s.setPage p v).parts = s.parts := rfl
@[simp] theorem State.setPage_ras (s : State) (p : Nat) (v : Page) : (s.setPage p v).ras = s.ras := rfl
@[simp] theorem State.setPage_boot (s : State) (p : Nat) (v : Page) : (s.setPage p v).boot = s.boot := rfl
@[simp] theorem State.setPage_fabric (s : State) (p : Nat) (v : Page) : (s.setPage p v).fabric = s.fabric := rfl
@[simp] theorem State.setPage_flash (s : State) (p : Nat) (v : Page) : (s.setPage p v).flash = s.flash := rfl
@[simp] theorem State.setPage_link (s : State) (p : Nat) (v : Page) : (s.setPage p v).link = s.link := rfl
@[simp] theorem State.setPage_attn (s : State) (p : Nat) (v : Page) : (s.setPage p v).attn = s.attn := rfl
@[simp] theorem State.setPage_emb (s : State) (p : Nat) (v : Page) : (s.setPage p v).emb = s.emb := rfl
@[simp] theorem State.setPage_nb (s : State) (p : Nat) (v : Page) : (s.setPage p v).nb = s.nb := rfl

@[simp] theorem State.setColl_pending (s : State) (c : Nat) (v : Coll) : (s.setColl c v).pending = s.pending := rfl
@[simp] theorem State.setColl_freshCount (s : State) (c : Nat) (v : Coll) : (s.setColl c v).freshCount = s.freshCount := rfl
@[simp] theorem State.setColl_power (s : State) (c : Nat) (v : Coll) : (s.setColl c v).power = s.power := rfl
@[simp] theorem State.setColl_time (s : State) (c : Nat) (v : Coll) : (s.setColl c v).time = s.time := rfl
@[simp] theorem State.setColl_regs (s : State) (c : Nat) (v : Coll) : (s.setColl c v).regs = s.regs := rfl
@[simp] theorem State.setColl_latches (s : State) (c : Nat) (v : Coll) : (s.setColl c v).latches = s.latches := rfl
@[simp] theorem State.setColl_heldMsgs (s : State) (c : Nat) (v : Coll) : (s.setColl c v).heldMsgs = s.heldMsgs := rfl
@[simp] theorem State.setColl_linkOut (s : State) (c : Nat) (v : Coll) : (s.setColl c v).linkOut = s.linkOut := rfl
@[simp] theorem State.setColl_mem (s : State) (c : Nat) (v : Coll) : (s.setColl c v).mem = s.mem := rfl
@[simp] theorem State.setColl_rings (s : State) (c : Nat) (v : Coll) : (s.setColl c v).rings = s.rings := rfl
@[simp] theorem State.setColl_sched (s : State) (c : Nat) (v : Coll) : (s.setColl c v).sched = s.sched := rfl
@[simp] theorem State.setColl_parts (s : State) (c : Nat) (v : Coll) : (s.setColl c v).parts = s.parts := rfl
@[simp] theorem State.setColl_pages (s : State) (c : Nat) (v : Coll) : (s.setColl c v).pages = s.pages := rfl
@[simp] theorem State.setColl_ras (s : State) (c : Nat) (v : Coll) : (s.setColl c v).ras = s.ras := rfl
@[simp] theorem State.setColl_boot (s : State) (c : Nat) (v : Coll) : (s.setColl c v).boot = s.boot := rfl
@[simp] theorem State.setColl_fabric (s : State) (c : Nat) (v : Coll) : (s.setColl c v).fabric = s.fabric := rfl
@[simp] theorem State.setColl_flash (s : State) (c : Nat) (v : Coll) : (s.setColl c v).flash = s.flash := rfl
@[simp] theorem State.setColl_link (s : State) (c : Nat) (v : Coll) : (s.setColl c v).link = s.link := rfl
@[simp] theorem State.setColl_attn (s : State) (c : Nat) (v : Coll) : (s.setColl c v).attn = s.attn := rfl
@[simp] theorem State.setColl_emb (s : State) (c : Nat) (v : Coll) : (s.setColl c v).emb = s.emb := rfl
@[simp] theorem State.setColl_nb (s : State) (c : Nat) (v : Coll) : (s.setColl c v).nb = s.nb := rfl

@[simp] theorem State.setPart_pending (s : State) (c p : Nat) (v : Part) : (s.setPart c p v).pending = s.pending := rfl
@[simp] theorem State.setPart_freshCount (s : State) (c p : Nat) (v : Part) : (s.setPart c p v).freshCount = s.freshCount := rfl
@[simp] theorem State.setPart_power (s : State) (c p : Nat) (v : Part) : (s.setPart c p v).power = s.power := rfl
@[simp] theorem State.setPart_time (s : State) (c p : Nat) (v : Part) : (s.setPart c p v).time = s.time := rfl
@[simp] theorem State.setPart_regs (s : State) (c p : Nat) (v : Part) : (s.setPart c p v).regs = s.regs := rfl
@[simp] theorem State.setPart_latches (s : State) (c p : Nat) (v : Part) : (s.setPart c p v).latches = s.latches := rfl
@[simp] theorem State.setPart_heldMsgs (s : State) (c p : Nat) (v : Part) : (s.setPart c p v).heldMsgs = s.heldMsgs := rfl
@[simp] theorem State.setPart_linkOut (s : State) (c p : Nat) (v : Part) : (s.setPart c p v).linkOut = s.linkOut := rfl
@[simp] theorem State.setPart_mem (s : State) (c p : Nat) (v : Part) : (s.setPart c p v).mem = s.mem := rfl
@[simp] theorem State.setPart_rings (s : State) (c p : Nat) (v : Part) : (s.setPart c p v).rings = s.rings := rfl
@[simp] theorem State.setPart_sched (s : State) (c p : Nat) (v : Part) : (s.setPart c p v).sched = s.sched := rfl
@[simp] theorem State.setPart_colls (s : State) (c p : Nat) (v : Part) : (s.setPart c p v).colls = s.colls := rfl
@[simp] theorem State.setPart_pages (s : State) (c p : Nat) (v : Part) : (s.setPart c p v).pages = s.pages := rfl
@[simp] theorem State.setPart_ras (s : State) (c p : Nat) (v : Part) : (s.setPart c p v).ras = s.ras := rfl
@[simp] theorem State.setPart_boot (s : State) (c p : Nat) (v : Part) : (s.setPart c p v).boot = s.boot := rfl
@[simp] theorem State.setPart_fabric (s : State) (c p : Nat) (v : Part) : (s.setPart c p v).fabric = s.fabric := rfl
@[simp] theorem State.setPart_flash (s : State) (c p : Nat) (v : Part) : (s.setPart c p v).flash = s.flash := rfl
@[simp] theorem State.setPart_link (s : State) (c p : Nat) (v : Part) : (s.setPart c p v).link = s.link := rfl
@[simp] theorem State.setPart_attn (s : State) (c p : Nat) (v : Part) : (s.setPart c p v).attn = s.attn := rfl
@[simp] theorem State.setPart_emb (s : State) (c p : Nat) (v : Part) : (s.setPart c p v).emb = s.emb := rfl
@[simp] theorem State.setPart_nb (s : State) (c p : Nat) (v : Part) : (s.setPart c p v).nb = s.nb := rfl

@[simp] theorem State.setRing_pending (s : State) (d r : Nat) (v : RingRt) : (s.setRing d r v).pending = s.pending := rfl
@[simp] theorem State.setRing_freshCount (s : State) (d r : Nat) (v : RingRt) : (s.setRing d r v).freshCount = s.freshCount := rfl
@[simp] theorem State.setRing_power (s : State) (d r : Nat) (v : RingRt) : (s.setRing d r v).power = s.power := rfl
@[simp] theorem State.setRing_time (s : State) (d r : Nat) (v : RingRt) : (s.setRing d r v).time = s.time := rfl
@[simp] theorem State.setRing_regs (s : State) (d r : Nat) (v : RingRt) : (s.setRing d r v).regs = s.regs := rfl
@[simp] theorem State.setRing_latches (s : State) (d r : Nat) (v : RingRt) : (s.setRing d r v).latches = s.latches := rfl
@[simp] theorem State.setRing_heldMsgs (s : State) (d r : Nat) (v : RingRt) : (s.setRing d r v).heldMsgs = s.heldMsgs := rfl
@[simp] theorem State.setRing_linkOut (s : State) (d r : Nat) (v : RingRt) : (s.setRing d r v).linkOut = s.linkOut := rfl
@[simp] theorem State.setRing_mem (s : State) (d r : Nat) (v : RingRt) : (s.setRing d r v).mem = s.mem := rfl
@[simp] theorem State.setRing_sched (s : State) (d r : Nat) (v : RingRt) : (s.setRing d r v).sched = s.sched := rfl
@[simp] theorem State.setRing_colls (s : State) (d r : Nat) (v : RingRt) : (s.setRing d r v).colls = s.colls := rfl
@[simp] theorem State.setRing_parts (s : State) (d r : Nat) (v : RingRt) : (s.setRing d r v).parts = s.parts := rfl
@[simp] theorem State.setRing_pages (s : State) (d r : Nat) (v : RingRt) : (s.setRing d r v).pages = s.pages := rfl
@[simp] theorem State.setRing_ras (s : State) (d r : Nat) (v : RingRt) : (s.setRing d r v).ras = s.ras := rfl
@[simp] theorem State.setRing_boot (s : State) (d r : Nat) (v : RingRt) : (s.setRing d r v).boot = s.boot := rfl
@[simp] theorem State.setRing_fabric (s : State) (d r : Nat) (v : RingRt) : (s.setRing d r v).fabric = s.fabric := rfl
@[simp] theorem State.setRing_flash (s : State) (d r : Nat) (v : RingRt) : (s.setRing d r v).flash = s.flash := rfl
@[simp] theorem State.setRing_link (s : State) (d r : Nat) (v : RingRt) : (s.setRing d r v).link = s.link := rfl
@[simp] theorem State.setRing_attn (s : State) (d r : Nat) (v : RingRt) : (s.setRing d r v).attn = s.attn := rfl
@[simp] theorem State.setRing_emb (s : State) (d r : Nat) (v : RingRt) : (s.setRing d r v).emb = s.emb := rfl
@[simp] theorem State.setRing_nb (s : State) (d r : Nat) (v : RingRt) : (s.setRing d r v).nb = s.nb := rfl

@[simp] theorem State.setJobs_pending (s : State) (l : List Job) : (s.setJobs l).pending = s.pending := rfl
@[simp] theorem State.setJobs_freshCount (s : State) (l : List Job) : (s.setJobs l).freshCount = s.freshCount := rfl
@[simp] theorem State.setJobs_power (s : State) (l : List Job) : (s.setJobs l).power = s.power := rfl
@[simp] theorem State.setJobs_time (s : State) (l : List Job) : (s.setJobs l).time = s.time := rfl
@[simp] theorem State.setJobs_regs (s : State) (l : List Job) : (s.setJobs l).regs = s.regs := rfl
@[simp] theorem State.setJobs_latches (s : State) (l : List Job) : (s.setJobs l).latches = s.latches := rfl
@[simp] theorem State.setJobs_heldMsgs (s : State) (l : List Job) : (s.setJobs l).heldMsgs = s.heldMsgs := rfl
@[simp] theorem State.setJobs_linkOut (s : State) (l : List Job) : (s.setJobs l).linkOut = s.linkOut := rfl
@[simp] theorem State.setJobs_mem (s : State) (l : List Job) : (s.setJobs l).mem = s.mem := rfl
@[simp] theorem State.setJobs_rings (s : State) (l : List Job) : (s.setJobs l).rings = s.rings := rfl
@[simp] theorem State.setJobs_colls (s : State) (l : List Job) : (s.setJobs l).colls = s.colls := rfl
@[simp] theorem State.setJobs_parts (s : State) (l : List Job) : (s.setJobs l).parts = s.parts := rfl
@[simp] theorem State.setJobs_pages (s : State) (l : List Job) : (s.setJobs l).pages = s.pages := rfl
@[simp] theorem State.setJobs_ras (s : State) (l : List Job) : (s.setJobs l).ras = s.ras := rfl
@[simp] theorem State.setJobs_boot (s : State) (l : List Job) : (s.setJobs l).boot = s.boot := rfl
@[simp] theorem State.setJobs_fabric (s : State) (l : List Job) : (s.setJobs l).fabric = s.fabric := rfl
@[simp] theorem State.setJobs_flash (s : State) (l : List Job) : (s.setJobs l).flash = s.flash := rfl
@[simp] theorem State.setJobs_link (s : State) (l : List Job) : (s.setJobs l).link = s.link := rfl
@[simp] theorem State.setJobs_attn (s : State) (l : List Job) : (s.setJobs l).attn = s.attn := rfl
@[simp] theorem State.setJobs_emb (s : State) (l : List Job) : (s.setJobs l).emb = s.emb := rfl
@[simp] theorem State.setJobs_nb (s : State) (l : List Job) : (s.setJobs l).nb = s.nb := rfl

@[simp] theorem State.putJob_pending (s : State) (j : Job) : (s.putJob j).pending = s.pending := rfl
@[simp] theorem State.putJob_freshCount (s : State) (j : Job) : (s.putJob j).freshCount = s.freshCount := rfl
@[simp] theorem State.putJob_power (s : State) (j : Job) : (s.putJob j).power = s.power := rfl
@[simp] theorem State.putJob_time (s : State) (j : Job) : (s.putJob j).time = s.time := rfl
@[simp] theorem State.putJob_regs (s : State) (j : Job) : (s.putJob j).regs = s.regs := rfl
@[simp] theorem State.putJob_latches (s : State) (j : Job) : (s.putJob j).latches = s.latches := rfl
@[simp] theorem State.putJob_heldMsgs (s : State) (j : Job) : (s.putJob j).heldMsgs = s.heldMsgs := rfl
@[simp] theorem State.putJob_linkOut (s : State) (j : Job) : (s.putJob j).linkOut = s.linkOut := rfl
@[simp] theorem State.putJob_mem (s : State) (j : Job) : (s.putJob j).mem = s.mem := rfl
@[simp] theorem State.putJob_rings (s : State) (j : Job) : (s.putJob j).rings = s.rings := rfl
@[simp] theorem State.putJob_colls (s : State) (j : Job) : (s.putJob j).colls = s.colls := rfl
@[simp] theorem State.putJob_parts (s : State) (j : Job) : (s.putJob j).parts = s.parts := rfl
@[simp] theorem State.putJob_pages (s : State) (j : Job) : (s.putJob j).pages = s.pages := rfl
@[simp] theorem State.putJob_ras (s : State) (j : Job) : (s.putJob j).ras = s.ras := rfl
@[simp] theorem State.putJob_boot (s : State) (j : Job) : (s.putJob j).boot = s.boot := rfl
@[simp] theorem State.putJob_fabric (s : State) (j : Job) : (s.putJob j).fabric = s.fabric := rfl
@[simp] theorem State.putJob_flash (s : State) (j : Job) : (s.putJob j).flash = s.flash := rfl
@[simp] theorem State.putJob_link (s : State) (j : Job) : (s.putJob j).link = s.link := rfl
@[simp] theorem State.putJob_attn (s : State) (j : Job) : (s.putJob j).attn = s.attn := rfl
@[simp] theorem State.putJob_emb (s : State) (j : Job) : (s.putJob j).emb = s.emb := rfl
@[simp] theorem State.putJob_nb (s : State) (j : Job) : (s.putJob j).nb = s.nb := rfl

@[simp] theorem State.dropJob_pending (s : State) (i : Nat) : (s.dropJob i).pending = s.pending := rfl
@[simp] theorem State.dropJob_freshCount (s : State) (i : Nat) : (s.dropJob i).freshCount = s.freshCount := rfl
@[simp] theorem State.dropJob_power (s : State) (i : Nat) : (s.dropJob i).power = s.power := rfl
@[simp] theorem State.dropJob_time (s : State) (i : Nat) : (s.dropJob i).time = s.time := rfl
@[simp] theorem State.dropJob_regs (s : State) (i : Nat) : (s.dropJob i).regs = s.regs := rfl
@[simp] theorem State.dropJob_latches (s : State) (i : Nat) : (s.dropJob i).latches = s.latches := rfl
@[simp] theorem State.dropJob_heldMsgs (s : State) (i : Nat) : (s.dropJob i).heldMsgs = s.heldMsgs := rfl
@[simp] theorem State.dropJob_linkOut (s : State) (i : Nat) : (s.dropJob i).linkOut = s.linkOut := rfl
@[simp] theorem State.dropJob_mem (s : State) (i : Nat) : (s.dropJob i).mem = s.mem := rfl
@[simp] theorem State.dropJob_rings (s : State) (i : Nat) : (s.dropJob i).rings = s.rings := rfl
@[simp] theorem State.dropJob_colls (s : State) (i : Nat) : (s.dropJob i).colls = s.colls := rfl
@[simp] theorem State.dropJob_parts (s : State) (i : Nat) : (s.dropJob i).parts = s.parts := rfl
@[simp] theorem State.dropJob_pages (s : State) (i : Nat) : (s.dropJob i).pages = s.pages := rfl
@[simp] theorem State.dropJob_ras (s : State) (i : Nat) : (s.dropJob i).ras = s.ras := rfl
@[simp] theorem State.dropJob_boot (s : State) (i : Nat) : (s.dropJob i).boot = s.boot := rfl
@[simp] theorem State.dropJob_fabric (s : State) (i : Nat) : (s.dropJob i).fabric = s.fabric := rfl
@[simp] theorem State.dropJob_flash (s : State) (i : Nat) : (s.dropJob i).flash = s.flash := rfl
@[simp] theorem State.dropJob_link (s : State) (i : Nat) : (s.dropJob i).link = s.link := rfl
@[simp] theorem State.dropJob_attn (s : State) (i : Nat) : (s.dropJob i).attn = s.attn := rfl
@[simp] theorem State.dropJob_emb (s : State) (i : Nat) : (s.dropJob i).emb = s.emb := rfl
@[simp] theorem State.dropJob_nb (s : State) (i : Nat) : (s.dropJob i).nb = s.nb := rfl

@[simp] theorem State.accessErr_pending (s : State) : (s.accessErr).pending = s.pending := rfl
@[simp] theorem State.accessErr_freshCount (s : State) : (s.accessErr).freshCount = s.freshCount := rfl
@[simp] theorem State.accessErr_power (s : State) : (s.accessErr).power = s.power := rfl
@[simp] theorem State.accessErr_time (s : State) : (s.accessErr).time = s.time := rfl
@[simp] theorem State.accessErr_latches (s : State) : (s.accessErr).latches = s.latches := rfl
@[simp] theorem State.accessErr_heldMsgs (s : State) : (s.accessErr).heldMsgs = s.heldMsgs := rfl
@[simp] theorem State.accessErr_linkOut (s : State) : (s.accessErr).linkOut = s.linkOut := rfl
@[simp] theorem State.accessErr_mem (s : State) : (s.accessErr).mem = s.mem := rfl
@[simp] theorem State.accessErr_rings (s : State) : (s.accessErr).rings = s.rings := rfl
@[simp] theorem State.accessErr_sched (s : State) : (s.accessErr).sched = s.sched := rfl
@[simp] theorem State.accessErr_colls (s : State) : (s.accessErr).colls = s.colls := rfl
@[simp] theorem State.accessErr_parts (s : State) : (s.accessErr).parts = s.parts := rfl
@[simp] theorem State.accessErr_pages (s : State) : (s.accessErr).pages = s.pages := rfl
@[simp] theorem State.accessErr_ras (s : State) : (s.accessErr).ras = s.ras := rfl
@[simp] theorem State.accessErr_boot (s : State) : (s.accessErr).boot = s.boot := rfl
@[simp] theorem State.accessErr_fabric (s : State) : (s.accessErr).fabric = s.fabric := rfl
@[simp] theorem State.accessErr_flash (s : State) : (s.accessErr).flash = s.flash := rfl
@[simp] theorem State.accessErr_link (s : State) : (s.accessErr).link = s.link := rfl
@[simp] theorem State.accessErr_attn (s : State) : (s.accessErr).attn = s.attn := rfl
@[simp] theorem State.accessErr_emb (s : State) : (s.accessErr).emb = s.emb := rfl
@[simp] theorem State.accessErr_nb (s : State) : (s.accessErr).nb = s.nb := rfl

@[simp] theorem State.reg_setReg_same (s : State) (a : Nat) (w : Word) : (s.setReg a w).reg a = w := SMap.get_set_same ..

theorem State.reg_setReg_other (s : State) {a b : Nat} (w : Word) (h : b ≠ a) : (s.setReg a w).reg b = s.reg b :=
  SMap.get_set_other _ _ h

/-- A field reads back what was put, cut to its width. -/
theorem State.fld_setFld_same (s : State) (f : Fld) (v : Nat) (h : f.lo + f.width ≤ 32) : (s.setFld f v).fld f = v % 2 ^ f.width := by
  unfold State.fld State.setFld
  rw [State.reg_setReg_same, BitVec.toNat_ofNat, Nat.mod_eq_of_lt (fieldPut_lt (s.reg f.addr).isLt h), fieldOf_fieldPut_same]

/-- A field of another register stays. -/
theorem State.fld_setFld_addr (s : State) {f g : Fld} (v : Nat) (h : g.addr ≠ f.addr) : (s.setFld f v).fld g = s.fld g := by
  unfold State.fld State.setFld
  rw [State.reg_setReg_other _ _ h]

/-- A field of the same register that shares no bit stays. -/
theorem State.fld_setFld_bits (s : State) {f g : Fld} (v : Nat) (hf : f.lo + f.width ≤ 32) (h : g.lo + g.width ≤ f.lo ∨ f.lo + f.width ≤ g.lo) :
    (s.setFld f v).fld g = s.fld g := by
  by_cases ha : g.addr = f.addr
  · unfold State.fld State.setFld
    rw [ha, State.reg_setReg_same, BitVec.toNat_ofNat, Nat.mod_eq_of_lt (fieldPut_lt (s.reg f.addr).isLt hf)]
    rcases h with h | h
    · exact fieldOf_fieldPut_below _ _ _ _ _ _ h
    · exact fieldOf_fieldPut_above _ _ _ _ _ _ h
  · exact State.fld_setFld_addr s v ha

theorem State.fld_setFld_apart (s : State) {f g : Fld} (v : Nat) (hf : f.lo + f.width ≤ 32) (h : Fld.apart f g) :
    (s.setFld f v).fld g = s.fld g := by
  rcases h with h | h
  · exact State.fld_setFld_addr s v h
  · exact State.fld_setFld_bits s v hf h

theorem State.fld_bumpBy_same (s : State) (f : Fld) (n : Nat) (h : f.lo + f.width ≤ 32) : (s.bumpBy f n).fld f = (s.fld f + n) % 2 ^ f.width :=
  State.fld_setFld_same s f _ h

theorem State.fld_bump_same (s : State) (f : Fld) (h : f.lo + f.width ≤ 32) : (s.bump f).fld f = (s.fld f + 1) % 2 ^ f.width :=
  State.fld_setFld_same s f _ h

theorem State.fld_bump_apart (s : State) {f g : Fld} (hf : f.lo + f.width ≤ 32) (h : Fld.apart f g) : (s.bump f).fld g = s.fld g :=
  State.fld_setFld_apart s _ hf h

theorem State.fld_lt (s : State) (f : Fld) : s.fld f < 2 ^ f.width := fieldOf_lt ..

/-- Two states with the same registers read every field alike. -/
theorem State.fld_congr {s t : State} (h : t.regs = s.regs) (f : Fld) : t.fld f = s.fld f := by
  unfold State.fld State.reg; rw [h]

@[simp] theorem State.page_setPage_same (s : State) (p : Nat) (v : Page) : (s.setPage p v).page p = v := SMap.get_set_same ..

theorem State.page_setPage_other (s : State) {p q : Nat} (v : Page) (h : q ≠ p) : (s.setPage p v).page q = s.page q := SMap.get_set_other _ _ h

@[simp] theorem State.coll_setColl_same (s : State) (c : Nat) (v : Coll) : (s.setColl c v).coll c = v := SMap.get_set_same ..

theorem State.coll_setColl_other (s : State) {c d : Nat} (v : Coll) (h : d ≠ c) : (s.setColl c v).coll d = s.coll d := SMap.get_set_other _ _ h

@[simp] theorem State.part_setPart_same (s : State) (c p : Nat) (v : Part) : (s.setPart c p v).part c p = v := SMap.get_set_same ..

@[simp] theorem State.ring_setRing_same (s : State) (d r : Nat) (v : RingRt) : (s.setRing d r v).ring d r = v := SMap.get_set_same ..

@[simp] theorem State.setJobs_jobs (s : State) (l : List Job) : (s.setJobs l).sched.jobs = l := rfl

@[simp] theorem State.putJob_slices (s : State) (j : Job) : (s.putJob j).sched.slices = s.sched.slices := rfl

/-- The job put is the one found under its number. -/
theorem State.job?_putJob (s : State) (j : Job) (h : (s.job? j.id).isSome = true) : (s.putJob j).job? j.id = some j := by
  unfold State.job? State.putJob at *
  simp only [State.setJobs_jobs]
  generalize s.sched.jobs = l at h
  induction l with
  | nil => simp at h
  | cons x t ih =>
    simp only [List.map_cons, List.find?_cons] at h ⊢
    by_cases hx : x.id = j.id
    · simp [hx]
    · simp only [hx, decide_false, if_false] at h ⊢
      exact ih h

end Sys2Proof.Machine
end

