-- ==== Sys2Proof/Laws/Serve.lean ====
section
/-! SUPPORT. What a register message and a register write do (R11, R41, R520-R524). -/

namespace Sys2Proof.Machine

open Sys2Proof

theorem node_next {s : State} {f : State → State} (h : s.running = true) : node s f = .next (f s) := by simp [node, h]

theorem State.regMessage_serves {s : State} {m : RegMsg} (h : s.serves m) : s.regMessage m = s.serveReg m := by
  obtain ⟨_, h1, h2, h3, h4, h5, _⟩ := h
  unfold State.regMessage
  simp [h1, h2, h4, h5, Nat.not_le.mpr h3]

/-- An allowed write: the register takes it, and the agent has its completion. -/
theorem State.serveReg_write {s : State} {m : RegMsg} (h : s.serves m) (hw : m.write = true) :
    s.regMessage m = (s.regWrite m.off m.data).regAnswer m.agent (.regCmp m.agent) := by
  rw [State.regMessage_serves h]
  simp [State.serveReg, h.2.2.2.2.2.2, hw]

/-- An answer changes the link alone. -/
theorem State.fld_regAnswer (s : State) (a : Nat) (m : LinkMsg) (f : Fld) : (s.regAnswer a m).fld f = s.fld f := by
  apply State.fld_congr
  exact (State.regAnswer_agree (L := [.linkOut]) (fun _ h => h) (Agree.refl _ s)).regs_eq (by decide)

theorem rows_commitCtrl : rowsAt 0x130 = [⟨0x130, [], 0, 1, .rw, 0, 0, 1⟩, ⟨0x130, [], 1, 1, .rw, 0, 0, 1⟩, ⟨0x130, [], 2, 1, .rw, 0, 0, 1⟩,
    ⟨0x130, [], 3, 1, .w1c, 0, 0, 1⟩] := by decide +kernel

/-- A write to COMMIT_CTRL: the three control bits take the written bits. -/
theorem State.regWrite_commitCtrl (s : State) (w : Nat) :
    (s.regWrite 0x130 w).fld ⟨0x130, 0, 1⟩ = fieldOf w 0 1 ∧ (s.regWrite 0x130 w).fld ⟨0x130, 1, 1⟩ = fieldOf w 1 1 ∧
      (s.regWrite 0x130 w).fld ⟨0x130, 2, 1⟩ = fieldOf w 2 1 := by
  have e : s.regWrite 0x130 w = s.putRows 0x130 w (rowsAt 0x130) := by
    unfold State.regWrite
    rw [rows_commitCtrl]
    simp [mbInput, Reg.Link.AGENT_KILL, Reg.Link.AGENT_REVIVE]
  rw [e, rows_commitCtrl]
  have lt : ∀ i, fieldOf w i 1 < 2 := fun i => fieldOf_lt w i 1
  simp only [State.putRows]
  refine ⟨?_, ?_, ?_⟩
  · rw [State.fld_setFld_apart _ _ (by decide) (by decide), State.fld_setFld_apart _ _ (by decide) (by decide),
      State.fld_setFld_apart _ _ (by decide) (by decide), State.fld_setFld_same _ _ _ (by decide)]
    exact Nat.mod_eq_of_lt (lt 0)
  · rw [State.fld_setFld_apart _ _ (by decide) (by decide), State.fld_setFld_apart _ _ (by decide) (by decide),
      State.fld_setFld_same _ _ _ (by decide)]
    exact Nat.mod_eq_of_lt (lt 1)
  · rw [State.fld_setFld_apart _ _ (by decide) (by decide), State.fld_setFld_same _ _ _ (by decide)]
    exact Nat.mod_eq_of_lt (lt 2)

theorem fieldOf_or_bit (w i : Nat) : fieldOf (w ||| 2 ^ i) i 1 = 1 := by
  unfold fieldOf
  have h : (w ||| 2 ^ i).testBit i = true := by simp [Nat.testBit_or]
  rw [Nat.testBit, bne_iff_ne] at h
  rw [Nat.pow_one, ← Nat.and_one_is_mod, Nat.and_comm]
  rcases Nat.mod_two_eq_zero_or_one ((w ||| 2 ^ i) >>> i) with h2 | h2
  · rw [Nat.one_and_eq_mod_two] at h ⊢; omega
  · rw [Nat.one_and_eq_mod_two]; exact h2

theorem fieldOf_sub_bit (w i : Nat) : fieldOf (w - (w &&& 2 ^ i)) i 1 = 0 := by
  have h1 : w &&& 2 ^ i = fieldOf w i 1 * 2 ^ i := by
    rw [Nat.and_two_pow]
    congr 1
    unfold fieldOf
    rw [Nat.testBit, Nat.one_and_eq_mod_two, Nat.pow_one]
    rcases Nat.mod_two_eq_zero_or_one (w >>> i) with h | h <;> simp [h]
  have h2 := word_split w i 1
  have h3 : w - (w &&& 2 ^ i) = w / 2 ^ (i + 1) * 2 ^ (i + 1) + 0 * 2 ^ i + w % 2 ^ i := by omega
  rw [h3]
  exact (parts_eq _ 0 _ i 1 (by decide) (Nat.mod_lt _ (Nat.two_pow_pos i))).2.1

/-- A row that none of the list shares a bit with keeps its field through the list's writes. -/
theorem State.putRows_other (a w : Nat) (f : Fld) : ∀ (l : List Row) (s : State), rowsApart l = true →
    (f.addr = a → l.all (fun q => decide (f.lo + f.width ≤ q.lo) || decide (q.lo + q.width ≤ f.lo)) = true) →
    (s.putRows a w l).fld f = s.fld f
  | [], _, _, _ => rfl
  | r :: t, s, h, hf => by
    simp only [rowsApart, Bool.and_eq_true, decide_eq_true_eq] at h
    have ht : f.addr = a → t.all (fun q => decide (f.lo + f.width ≤ q.lo) || decide (q.lo + q.width ≤ f.lo)) = true := by
      intro e
      have := hf e
      simp only [List.all_cons, Bool.and_eq_true] at this
      exact this.2
    have key : ∀ v, (s.setFld ⟨a, r.lo, r.width⟩ v).fld f = s.fld f := by
      intro v
      by_cases e : f.addr = a
      · have := hf e
        simp only [List.all_cons, Bool.and_eq_true, Bool.or_eq_true, decide_eq_true_eq] at this
        exact State.fld_setFld_bits s v h.1.1 this.1
      · exact State.fld_setFld_addr s v e
    unfold State.putRows
    rw [State.putRows_other a w f t _ h.2 ht]
    cases r.acc <;> first | exact key _ | rfl

/-- What a write does to each field of its register (R11). -/
theorem State.putRows_spec (a w : Nat) : ∀ (l : List Row) (s : State), rowsApart l = true → ∀ r ∈ l,
    (s.putRows a w l).fld ⟨a, r.lo, r.width⟩ = match r.acc with
      | .rw => fieldOf w r.lo r.width
      | .w1c => (s.fld ⟨a, r.lo, r.width⟩ - (s.fld ⟨a, r.lo, r.width⟩ &&& fieldOf w r.lo r.width)) % 2 ^ r.width
      | .ro | .sh | .lk => s.fld ⟨a, r.lo, r.width⟩
  | [], _, _, r, hr => by simp at hr
  | q :: t, s, h, r, hr => by
    simp only [rowsApart, Bool.and_eq_true, decide_eq_true_eq] at h
    rcases List.mem_cons.mp hr with e | hm
    · subst e
      unfold State.putRows
      rw [State.putRows_other a w _ t _ h.2 (fun _ => h.1.2)]
      cases r.acc with
      | rw =>
        simp only
        rw [State.fld_setFld_same _ _ _ h.1.1]
        exact Nat.mod_eq_of_lt (fieldOf_lt w r.lo r.width)
      | w1c => exact State.fld_setFld_same _ _ _ h.1.1
      | ro => rfl
      | sh => rfl
      | lk => rfl
    · unfold State.putRows
      have hq := List.all_eq_true.mp h.1.2 r hm
      simp only [Bool.or_eq_true, decide_eq_true_eq] at hq
      have key : ∀ v, (s.setFld ⟨a, q.lo, q.width⟩ v).fld ⟨a, r.lo, r.width⟩ = s.fld ⟨a, r.lo, r.width⟩ :=
        fun v => State.fld_setFld_bits s v h.1.1 (by simp only; omega)
      rw [State.putRows_spec a w t _ h.2 r hm]
      cases q.acc <;> simp only [key]

/-- A register that holds fields takes a write field by field, where it is none with an effect of its own. -/
theorem State.regWrite_rows (s : State) (a w : Nat) (h0 : rowsAt a ≠ []) (hb : mbInput a = false ∨ s.flag Reg.Mb.MB_BUSY = false)
    (hl : (rowsAt a).any (fun r => r.acc = .lk) = false)
    (ha : a ≠ 0xC00000 ∧ a ≠ Reg.Link.AGENT_KILL.addr ∧ a ≠ Reg.Link.AGENT_REVIVE.addr) :
    s.regWrite a w = s.putRows a w (rowsAt a) := by
  unfold State.regWrite
  have hm : (mbInput a && s.flag Reg.Mb.MB_BUSY) = false := by rcases hb with h | h <;> simp [h]
  simp only [h0, if_false, hm, hl, ha.1, ha.2.1, ha.2.2, Bool.false_eq_true]

/-- Each block's COMMIT register has COMMIT in bit 0, to be written, and takes no part in the mailbox. -/
theorem rows_blockCommit {b : Blk} (hb : blkOk b = true) :
    rowsApart (rowsAt (blkCommitReg b)) = true ∧ (rowsAt (blkCommitReg b)).any (fun r => decide (r.lo = 0) && decide (r.width = 1) && decide (r.acc = .rw)) = true ∧
      (rowsAt (blkCommitReg b)).any (fun r => r.acc = .lk) = false ∧ mbInput (blkCommitReg b) = false ∧
      blkCommitReg b ≠ 0xC00000 ∧ blkCommitReg b ≠ Reg.Link.AGENT_KILL.addr ∧ blkCommitReg b ≠ Reg.Link.AGENT_REVIVE.addr := by
  cases b with
  | global => decide +kernel
  | link => decide +kernel
  | security => decide +kernel
  | kstack k =>
    have hk : k < 4 := by simpa [blkOk] using hb
    interval_cases k <;> decide +kernel
  | port p =>
    have hp : p < 8 := by simpa [blkOk] using hb
    interval_cases p <;> decide +kernel

/-- A write to a block's COMMIT register. -/
theorem State.regWrite_blockCommit (s : State) {b : Blk} (hb : blkOk b = true) (w : Nat) :
    (s.regWrite (blkCommitReg b) w).fld (blkCommit b) = fieldOf w 0 1 := by
  obtain ⟨h1, h2, h3, h4, h5⟩ := rows_blockCommit hb
  obtain ⟨r, hr, hq⟩ := List.any_eq_true.mp h2
  simp only [Bool.and_eq_true, decide_eq_true_eq] at hq
  have hne : rowsAt (blkCommitReg b) ≠ [] := List.ne_nil_of_mem hr
  rw [State.regWrite_rows s _ w hne (Or.inl h4) h3 h5]
  have := State.putRows_spec (blkCommitReg b) w _ s h1 r hr
  rw [hq.1.1, hq.1.2, hq.2] at this
  exact this

theorem ctrl_next {s : State} {agent dom bit : Nat} {b : Blk} {on : Bool} (hb : blkOk b = true)
    (h : s.serves ⟨agent, dom, blkCommitReg b, true, s.ctrlData b bit on⟩) :
    node s (fun s => s.ctrlWrite agent dom b bit on) = .next ((s.regWrite (blkCommitReg b) (s.ctrlData b bit on)).regAnswer agent (.regCmp agent)) := by
  rw [node_next h.1]
  unfold State.ctrlWrite
  simp only [hb, if_true]
  rw [State.serveReg_write h rfl]

theorem fieldOf_ctrl_on (s : State) (b : Blk) (bit : Nat) : fieldOf (s.ctrlData b bit true) bit 1 = 1 := by
  unfold State.ctrlData
  exact fieldOf_or_bit _ _

theorem fieldOf_ctrl_off (s : State) (b : Blk) (bit : Nat) : fieldOf (s.ctrlData b bit false) bit 1 = 0 := by
  unfold State.ctrlData
  exact fieldOf_sub_bit _ _

theorem State.foldPut_other (a w : Nat) (f : Fld) : ∀ (l : List Row) (s : State), rowsApart l = true →
    (f.addr = a → l.all (fun q => decide (f.lo + f.width ≤ q.lo) || decide (q.lo + q.width ≤ f.lo)) = true) →
    (l.foldl (fun s r => s.setFld ⟨a, r.lo, r.width⟩ (fieldOf w r.lo r.width)) s).fld f = s.fld f
  | [], _, _, _ => rfl
  | r :: t, s, h, hf => by
    simp only [rowsApart, Bool.and_eq_true, decide_eq_true_eq] at h
    have ht : f.addr = a → t.all (fun q => decide (f.lo + f.width ≤ q.lo) || decide (q.lo + q.width ≤ f.lo)) = true := by
      intro e
      have := hf e
      simp only [List.all_cons, Bool.and_eq_true] at this
      exact this.2
    rw [List.foldl_cons, State.foldPut_other a w f t _ h.2 ht]
    by_cases e : f.addr = a
    · have := hf e
      simp only [List.all_cons, Bool.and_eq_true, Bool.or_eq_true, decide_eq_true_eq] at this
      exact State.fld_setFld_bits s _ h.1.1 this.1
    · exact State.fld_setFld_addr s _ e

theorem State.foldPut_spec (a w : Nat) : ∀ (l : List Row) (s : State), rowsApart l = true → ∀ r ∈ l,
    (l.foldl (fun s r => s.setFld ⟨a, r.lo, r.width⟩ (fieldOf w r.lo r.width)) s).fld ⟨a, r.lo, r.width⟩ = fieldOf w r.lo r.width
  | [], _, _, r, hr => by simp at hr
  | q :: t, s, h, r, hr => by
    simp only [rowsApart, Bool.and_eq_true, decide_eq_true_eq] at h
    rw [List.foldl_cons]
    rcases List.mem_cons.mp hr with e | hm
    · subst e
      rw [State.foldPut_other a w _ t _ h.2 (fun _ => h.1.2), State.fld_setFld_same _ _ _ h.1.1]
      exact Nat.mod_eq_of_lt (fieldOf_lt w r.lo r.width)
    · exact State.foldPut_spec a w t _ h.2 r hm

end Sys2Proof.Machine
end

