-- ==== Sys2Proof/Laws/Mailbox.lean ====
section
/-! SUPPORT. What a mailbox command leaves when it completes (R531, R532). -/

namespace Sys2Proof.Machine

open Sys2Proof

theorem State.reg_setRegs_out : ∀ (l : List Nat) (s : State) (a b : Nat), (b < a) → (s.setRegs a l).reg b = s.reg b := by
  intro l
  induction l with
  | nil => intros; rfl
  | cons w t ih =>
    intro s a b h
    unfold State.setRegs
    rw [ih _ _ _ (by omega), State.reg_setReg_other _ _ (by omega)]

theorem State.reg_setRegs_in : ∀ (l : List Nat) (s : State) (a i : Nat), i < l.length → (s.setRegs a l).reg (a + 4 * i) = BitVec.ofNat 32 (l.getD i 0) := by
  intro l
  induction l with
  | nil => intro s a i h; simp at h
  | cons w t ih =>
    intro s a i h
    unfold State.setRegs
    cases i with
    | zero =>
      rw [State.reg_setRegs_out _ _ _ _ (by omega)]
      simp
    | succ i =>
      have := ih (s.setReg a (BitVec.ofNat 32 w)) (a + 4) i (by simpa using h)
      rw [show a + 4 * (i + 1) = a + 4 + 4 * i by omega, this]
      simp

theorem wordsOf_length : ∀ (n : Nat) (b : List Byte), (wordsOf n b).length = n := by
  intro n
  induction n with
  | zero => intro b; rfl
  | succ n ih => intro b; simp [wordsOf, ih]

theorem wordsOf_getD : ∀ (n : Nat) (b : List Byte) (i : Nat), i < n → (wordsOf n b).getD i 0 = leNat ((b.drop (4 * i)).take 4) := by
  intro n
  induction n with
  | zero => intro b i h; omega
  | succ n ih =>
    intro b i h
    cases i with
    | zero => simp [wordsOf]
    | succ i =>
      have := ih (b.drop 4) i (by omega)
      simp only [wordsOf, List.getD_cons_succ, this, List.drop_drop]
      rw [show 4 * (i + 1) = 4 + 4 * i by omega]

theorem State.mbFinish_fld (u : State) (st : Status) (out : List Byte) {g : Fld} (h : g.addr < 0xC00000) : (u.mbFinish st out).fld g = u.fld g := by
  unfold State.mbFinish
  simp only
  rw [State.fld_setFld_addr _ _ (by unfold Reg.Mb.MB_BUSY; simp only; omega)]
  unfold State.bump State.bumpBy
  rw [State.fld_setFld_addr _ _ (by unfold Reg.Mb.MB_SEQ; simp only; omega), State.fld_setFld_addr _ _ (by unfold Reg.Mb.MB_OUT_LEN; simp only; omega),
    State.fld_setFld_addr _ _ (by unfold Reg.Mb.MB_RESULT; simp only; omega)]
  unfold State.fld
  rw [State.reg_setRegs_out _ _ _ _ (by unfold Reg.Mb.MB_DATA; simp only; omega)]

theorem State.mbFinish_done {s u : State} (st : Status) (out : List Byte) (h : u.fld Reg.Mb.MB_SEQ = s.fld Reg.Mb.MB_SEQ) : s.MbDone (u.mbFinish st out) st out := by
  constructor
  · exact State.fld_setFld_same _ _ _ (by decide)
  · unfold State.mbFinish State.bump State.bumpBy
    simp only
    rw [State.fld_setFld_apart _ _ (by decide) (by decide), State.fld_setFld_apart _ _ (by decide) (by decide), State.fld_setFld_apart _ _ (by decide) (by decide),
      State.fld_setFld_same _ _ _ (by decide)]
    cases st <;> rfl
  · unfold State.mbFinish State.bump State.bumpBy
    simp only
    rw [State.fld_setFld_apart _ _ (by decide) (by decide), State.fld_setFld_apart _ _ (by decide) (by decide), State.fld_setFld_same _ _ _ (by decide)]
    rfl
  · unfold State.mbFinish State.bump
    simp only
    rw [State.fld_setFld_apart _ _ (by decide) (by decide), State.fld_bumpBy_same _ _ _ (by decide),
      State.fld_setFld_apart _ _ (by decide) (by decide), State.fld_setFld_apart _ _ (by decide) (by decide)]
    have : ∀ l, (u.setRegs (Reg.Mb.MB_DATA 0).addr l).fld Reg.Mb.MB_SEQ = u.fld Reg.Mb.MB_SEQ := by
      intro l
      unfold State.fld
      rw [State.reg_setRegs_out _ _ _ _ (by decide)]
    rw [this, h]
    rfl
  · intro i hi
    unfold State.mbFinish State.bump State.bumpBy State.setFld
    simp only
    rw [State.reg_setReg_other _ _ (by unfold Reg.Mb.MB_BUSY; simp only; omega), State.reg_setReg_other _ _ (by unfold Reg.Mb.MB_SEQ; simp only; omega),
      State.reg_setReg_other _ _ (by unfold Reg.Mb.MB_OUT_LEN; simp only; omega), State.reg_setReg_other _ _ (by unfold Reg.Mb.MB_RESULT; simp only; omega)]
    rw [show (0xC10000 + 4 * i) = (Reg.Mb.MB_DATA 0).addr + 4 * i by rfl, State.reg_setRegs_in _ _ _ _ (by rw [wordsOf_length]; exact hi), wordsOf_getD _ _ _ hi]

theorem mb_next {s u : State} {code : Nat} {f : State → Option (State × List Byte)} {out : List Byte} (h : s.running = true) (hb : s.fld Reg.Mb.MB_BUSY = 1)
    (hc : s.fld Reg.Mb.MB_CMD = code) (hf : f s = some (u, out)) : node s (fun s => s.mbRun code f) = .next (u.mbFinish .ok out) := by
  rw [node_next h]
  unfold State.mbRun State.flag
  simp [hb, hc, hf]

theorem mb_ok {s u : State} {code : Nat} {f : State → Option (State × List Byte)} {out : List Byte} (h : s.running = true) (hb : s.fld Reg.Mb.MB_BUSY = 1)
    (hc : s.fld Reg.Mb.MB_CMD = code) (hf : f s = some (u, out)) (hu : u.fld Reg.Mb.MB_SEQ = s.fld Reg.Mb.MB_SEQ) :
    ∃ t, node s (fun s => s.mbRun code f) = .next t ∧ s.MbDone t .ok out ∧ t.boot = u.boot ∧ t.ras = u.ras ∧ ∀ g : Fld, g.addr < 0xC00000 → t.fld g = u.fld g := by
  have k := State.mbFinish_agree (L := [.regs]) (st := .ok) (out := out) (fun _ h => h) (Agree.refl _ u)
  exact ⟨_, mb_next h hb hc hf, State.mbFinish_done _ _ hu, k.boot_eq (by decide), k.ras_eq (by decide), fun g hg => State.mbFinish_fld _ _ _ hg⟩

theorem State.setBoot_fld (s : State) (b : BootSt) (g : Fld) : (s.setBoot b).fld g = s.fld g := rfl

theorem State.setKey_key (s : State) (d : Nat) (k : Option Nat) : SMap.get (fun _ => none) (s.setKey d k).boot.keys d = k := by
  unfold State.setKey
  rw [State.setFld_boot]
  exact SMap.get_set_same _ _ _

theorem State.setKey_loaded (s : State) (d : Nat) (k : Option Nat) : (s.setKey d k).fld (Reg.Dom.KEY_LOADED d) = b2n k.isSome := by
  unfold State.setKey
  rw [State.fld_setFld_same _ _ _ (Nat.le_of_ble_eq_true rfl)]
  cases k <;> rfl

theorem State.setKey_seq (s : State) (d : Nat) (h : d < 64) (k : Option Nat) : (s.setKey d k).fld Reg.Mb.MB_SEQ = s.fld Reg.Mb.MB_SEQ := by
  unfold State.setKey
  rw [State.fld_setFld_addr _ _ (by unfold Reg.Mb.MB_SEQ Reg.Dom.KEY_LOADED; simp only; omega), State.setBoot_fld]

end Sys2Proof.Machine
end

