-- ==== Sys2Proof/Laws/Jobs.lean ====
section
/-! SUPPORT. Jobs, records and slices: what taking a head, adding a job, posting a record, dooming and ending a slice leave
(R13, R35, R371-R373). -/

namespace Sys2Proof.Machine

open Sys2Proof

/-! Jobs by number. -/

theorem State.job?_congr {s t : State} (h : t.sched.jobs = s.sched.jobs) (id : Nat) : t.job? id = s.job? id := by
  unfold State.job?; rw [h]

theorem State.work?_congr {s t : State} (h : t.sched.jobs = s.sched.jobs) (id : Nat) : t.work? id = s.work? id := by
  unfold State.work?; rw [State.job?_congr h]

theorem State.job?_id {s : State} {id : Nat} {j : Job} (h : s.job? id = some j) : j.id = id := by
  unfold State.job? at h
  simpa using List.find?_some h

/-- A job put works on what it was given. -/
theorem State.work?_putJob (s : State) (j : Job) (h : (s.job? j.id).isSome = true) : (s.putJob j).work? j.id = some j.work := by
  unfold State.work?
  rw [State.job?_putJob s j h]
  rfl

/-- Jobs mapped in a way that keeps numbers and work. -/
theorem State.work?_map (s : State) (f : Job → Job) (hi : ∀ j, (f j).id = j.id) (hw : ∀ j, (f j).work = j.work) (id : Nat) :
    (s.setJobs (s.sched.jobs.map f)).work? id = s.work? id := by
  unfold State.work? State.job? State.setJobs
  simp only [List.find?_map, Function.comp_def, hi, Option.map_map, hw]

/-- Dooming keeps what every job works on. -/
theorem State.work?_doomJob (s : State) (i : Nat) (st : Status) (id : Nat) : (s.doomJob i st).work? id = s.work? id := by
  unfold State.doomJob
  cases h : s.job? i with
  | none => rfl
  | some j =>
    simp only
    have hj := State.job?_id h
    unfold State.work? State.job? State.putJob State.setJobs Job.doomed
    simp only
    have hf : ∃ x, s.sched.jobs.find? (fun x => x.id = i) = some x := ⟨j, h⟩
    have key : ∀ l : List Job, l.find? (fun x => x.id = i) = some j →
        Option.map (fun j => j.work) (List.find? (fun j => decide (j.id = id)) (l.map (fun x => if x.id = j.id then
          { j with doom := some (match j.doom with | some o => o.first st | none => st) } else x))) =
        Option.map (fun j => j.work) (List.find? (fun j => decide (j.id = id)) l) := by
      intro l
      by_cases hi : id = i
      · subst hi
        induction l with
        | nil => intro h; simp at h
        | cons x t ih =>
          intro hx
          by_cases hxi : x.id = id
          · have : x = j := by simpa [List.find?_cons, hxi] using hx
            subst this
            simp [List.find?_cons, hxi]
          · have hx' : t.find? (fun x => x.id = id) = some j := by simpa [List.find?_cons, hxi] using hx
            have hne : ¬ x.id = j.id := by rw [hj]; exact hxi
            simp only [List.map_cons, List.find?_cons, hne, if_false, hxi, decide_false]
            exact ih hx'
      · intro hx
        clear hx hf h
        induction l with
        | nil => rfl
        | cons x t ih =>
          by_cases hxj : x.id = j.id
          · have h1 : ¬ x.id = id := by rw [hxj, hj]; exact fun e => hi e.symm
            have h2 : ¬ j.id = id := by rw [hj]; exact fun e => hi e.symm
            simp only [List.map_cons, List.find?_cons, hxj, if_true, h2, decide_false, h1]
            exact ih
          · simp only [List.map_cons, List.find?_cons, hxj, if_false]
            split
            · rfl
            · exact ih
    exact key _ h

theorem State.work?_doomJobs (l : List Nat) (st : Status) (id : Nat) : ∀ s : State,
    (l.foldl (fun s j => s.doomJob j st) s).work? id = s.work? id := by
  induction l with
  | nil => exact fun _ => rfl
  | cons a t ih => intro s; rw [List.foldl_cons, ih, State.work?_doomJob]

/-- Numbers are given once: no job has the next one. -/
theorem State.addJob_work? (s : State) (d r op tag : Nat) (w : Work) (h : s.job? s.sched.nextJob = none) :
    (s.addJob d r op tag w).1.work? s.sched.nextJob = some w := by
  unfold State.job? at h
  unfold State.work? State.job? State.addJob
  simp only [List.find?_append, h, List.find?_cons]
  simp

theorem State.query?_some {s : State} {id : Nat} {j : Job} {x : Query} (h : s.query? id = some (j, x)) :
    s.job? id = some j ∧ j.id = id ∧ j.work = .query x ∧ j.doom = none := by
  unfold State.query? at h
  split at h
  · rename_i j' hj
    split at h
    · rename_i y hw
      split at h
      · rename_i hd
        obtain ⟨rfl, rfl⟩ : j' = j ∧ y = x := by simpa using h
        exact ⟨hj, State.job?_id hj, hw, hd⟩
      · simp at h
    · simp at h
  · simp at h

theorem State.update?_some {s : State} {id : Nat} {j : Job} {x : Update} (h : s.update? id = some (j, x)) :
    s.job? id = some j ∧ j.id = id ∧ j.work = .update x ∧ j.doom = none := by
  unfold State.update? at h
  split at h
  · rename_i j' hj
    split at h
    · rename_i y hw
      split at h
      · rename_i hd
        obtain ⟨rfl, rfl⟩ : j' = j ∧ y = x := by simpa using h
        exact ⟨hj, State.job?_id hj, hw, hd⟩
      · simp at h
    · simp at h
  · simp at h

theorem State.compact?_some {s : State} {id : Nat} {j : Job} {x : Compact} (h : s.compact? id = some (j, x)) :
    s.job? id = some j ∧ j.id = id ∧ j.work = .compact x ∧ j.doom = none := by
  unfold State.compact? at h
  split at h
  · rename_i j' hj
    split at h
    · rename_i y hw
      split at h
      · rename_i hd
        obtain ⟨rfl, rfl⟩ : j' = j ∧ y = x := by simpa using h
        exact ⟨hj, State.job?_id hj, hw, hd⟩
      · simp at h
    · simp at h
  · simp at h

theorem State.engine?_some {s : State} {id : Nat} {j : Job} {x : EngineCmd} (h : s.engine? id = some (j, x)) :
    s.job? id = some j ∧ j.id = id ∧ j.work = .engine x ∧ j.doom = none := by
  unfold State.engine? at h
  split at h
  · rename_i j' hj
    split at h
    · rename_i y hw
      split at h
      · rename_i hd
        obtain ⟨rfl, rfl⟩ : j' = j ∧ y = x := by simpa using h
        exact ⟨hj, State.job?_id hj, hw, hd⟩
      · simp at h
    · simp at h
  · simp at h

theorem State.attend?_some {s : State} {id : Nat} {j : Job} {x : Attend} (h : s.attend? id = some (j, x)) :
    s.job? id = some j ∧ j.id = id ∧ j.work = .attend x ∧ j.doom = none := by
  unfold State.attend? at h
  split at h
  · rename_i j' hj
    split at h
    · rename_i y hw
      split at h
      · rename_i hd
        obtain ⟨rfl, rfl⟩ : j' = j ∧ y = x := by simpa using h
        exact ⟨hj, State.job?_id hj, hw, hd⟩
      · simp at h
    · simp at h
  · simp at h

theorem State.merge?_some {s : State} {id : Nat} {j : Job} {x : AttnMerge} (h : s.merge? id = some (j, x)) :
    s.job? id = some j ∧ j.id = id ∧ j.work = .attnMerge x ∧ j.doom = none := by
  unfold State.merge? at h
  split at h
  · rename_i j' hj
    split at h
    · rename_i y hw
      split at h
      · rename_i hd
        obtain ⟨rfl, rfl⟩ : j' = j ∧ y = x := by simpa using h
        exact ⟨hj, State.job?_id hj, hw, hd⟩
      · simp at h
    · simp at h
  · simp at h

theorem State.lookup?_some {s : State} {id : Nat} {j : Job} {x : Lookup} (h : s.lookup? id = some (j, x)) :
    s.job? id = some j ∧ j.id = id ∧ j.work = .lookup x ∧ j.doom = none := by
  unfold State.lookup? at h
  split at h
  · rename_i j' hj
    split at h
    · rename_i y hw
      split at h
      · rename_i hd
        obtain ⟨rfl, rfl⟩ : j' = j ∧ y = x := by simpa using h
        exact ⟨hj, State.job?_id hj, hw, hd⟩
      · simp at h
    · simp at h
  · simp at h

theorem State.embShare?_some {s : State} {id : Nat} {j : Job} {x : EmbShare} (h : s.embShare? id = some (j, x)) :
    s.job? id = some j ∧ j.id = id ∧ j.work = .embShare x ∧ j.doom = none := by
  unfold State.embShare? at h
  split at h
  · rename_i j' hj
    split at h
    · rename_i y hw
      split at h
      · rename_i hd
        obtain ⟨rfl, rfl⟩ : j' = j ∧ y = x := by simpa using h
        exact ⟨hj, State.job?_id hj, hw, hd⟩
      · simp at h
    · simp at h
  · simp at h

theorem State.nbJob?_some {s : State} {id : Nat} {j : Job} {x : NbJob} (h : s.nbJob? id = some (j, x)) :
    s.job? id = some j ∧ j.id = id ∧ j.work = .nbRun x ∧ j.doom = none := by
  unfold State.nbJob? at h
  split at h
  · rename_i j' hj
    split at h
    · rename_i y hw
      split at h
      · rename_i hd
        obtain ⟨rfl, rfl⟩ : j' = j ∧ y = x := by simpa using h
        exact ⟨hj, State.job?_id hj, hw, hd⟩
      · simp at h
    · simp at h
  · simp at h

theorem State.routeEdit?_some {s : State} {id : Nat} {j : Job} {x : RouteEditReq} (h : s.routeEdit? id = some (j, x)) :
    s.job? id = some j ∧ j.id = id ∧ j.work = .routeEdit x ∧ j.doom = none := by
  unfold State.routeEdit? at h
  split at h
  · rename_i j' hj
    split at h
    · rename_i y hw
      split at h
      · rename_i hd
        obtain ⟨rfl, rfl⟩ : j' = j ∧ y = x := by simpa using h
        exact ⟨hj, State.job?_id hj, hw, hd⟩
      · simp at h
    · simp at h
  · simp at h

/-- A job found and put again with other work works on that. -/
theorem State.work?_put {s t : State} {id : Nat} {j : Job} (h : s.job? id = some j) (ht : t.sched.jobs = s.sched.jobs) (w : Work) :
    (t.putJob { j with work := w }).work? id = some w := by
  have hi := State.job?_id h
  have hs : (t.job? ({ j with work := w } : Job).id).isSome = true := by
    show (t.job? j.id).isSome = true
    rw [State.job?_congr ht, hi, h]
    rfl
  have := State.work?_putJob t { j with work := w } hs
  rw [← hi]
  exact this

/-- A job dropped is found no more. -/
theorem State.job?_dropJob (s : State) (id : Nat) : (s.dropJob id).job? id = none := by
  unfold State.job? State.dropJob
  simp only [List.find?_eq_none, List.mem_filter]
  rintro x ⟨_, hx⟩ hy
  simp_all

theorem State.work?_dropJob (s : State) (id : Nat) : (s.dropJob id).work? id = none := by
  unfold State.work?
  rw [State.job?_dropJob]
  rfl

/-- Other jobs stay. -/
theorem State.job?_dropJob_other (s : State) {id i : Nat} (h : i ≠ id) : (s.dropJob id).job? i = s.job? i := by
  unfold State.job? State.dropJob
  simp only
  induction s.sched.jobs with
  | nil => rfl
  | cons x t ih =>
    by_cases hx : x.id = id
    · have h1 : ¬ x.id = i := by rw [hx]; exact fun e => h e.symm
      simp only [List.filter_cons, hx, ne_eq, not_true_eq_false, decide_false, Bool.false_eq_true, if_false, List.find?_cons, h1]
      have h2 : ¬ id = i := fun e => h e.symm
      simp only [h2, decide_false]
      simpa using ih
    · simp only [List.filter_cons, hx, ne_eq, not_false_eq_true, decide_true, if_true, List.find?_cons]
      split
      · rfl
      · simpa using ih

/-! Slices. -/

/-- Settling frames dooms at most. -/
theorem State.work?_settleFrames (s : State) (l : List Nat) (id : Nat) : (s.settleFrames l).work? id = s.work? id := by
  unfold State.settleFrames
  split
  · exact (State.work?_congr (s := l.foldl (fun s j => s.doomJob j .refused) s) rfl id).trans (State.work?_doomJobs l .refused id s)
  · rfl

theorem State.work?_dropStaged (s : State) (l : List Nat) (id : Nat) : (s.dropStaged l).work? id = s.work? id :=
  State.work?_congr rfl id

/-- The end of a slice: what the end of its kind gives, then its frames and its staged pages. -/
theorem State.sliceEnds_of {s u : State} {sid : Nat} {x : Slice} (hs : s.endSlice sid = some (x, u)) (f : State → Slice → State) :
    s.sliceEnds sid (kindCode x.kind) f = ((f u x).settleFrames (sliceJobs s x.kind)).dropStaged x.pages := by
  have hs' := hs
  unfold State.endSlice at hs
  unfold State.sliceEnds
  split at hs
  · simp at hs
  · rename_i y hy
    obtain ⟨rfl, -⟩ : y = x ∧ _ := by simpa using hs
    simp [hy, hs']

/-- A slice that ends leaves the list. -/
theorem State.endSlice_slices {s u : State} {sid : Nat} {x : Slice} (hs : s.endSlice sid = some (x, u)) :
    u.sched = { s.sched with slices := s.sched.slices.filter (fun y => y.id ≠ sid) } := by
  unfold State.endSlice at hs
  split at hs
  · simp at hs
  · rename_i y hy
    obtain ⟨rfl, rfl⟩ : y = x ∧ _ = u := by simpa using hs
    refine ((State.sliceRun_agree (L := [.regs]) (by decide) (Agree.refl _ _)).sched_eq (by decide)).trans ?_
    simp

/-- What a job works on once a slice has ended. -/
theorem slice_work {s u : State} {sid : Nat} {x : Slice} {f : State → Slice → State} {id : Nat} {w : Work} {code : Nat} (h : s.running = true)
    (hs : s.endSlice sid = some (x, u)) (hk : kindCode x.kind = code) (hw : (f u x).work? id = some w) :
    ∃ t, node s (fun s => s.sliceEnds sid code f) = .next t ∧ t.work? id = some w := by
  refine ⟨_, node_next h, ?_⟩
  rw [← hk, State.sliceEnds_of hs, State.work?_dropStaged, State.work?_settleFrames, hw]

/-! Rings. -/

theorem State.ring_congr {s t : State} (h : t.rings = s.rings) (d r : Nat) : t.ring d r = s.ring d r := by
  unfold State.ring; rw [h]

/-- What follows the write of a ring entry leaves it. -/
theorem State.ring_after (u : State) (d r : Nat) (v : RingRt) (f g g2 : Fld) (n : Nat) (c : Prop) [Decidable c] :
    State.ring (if c then ((((u.setRing d r v).nodeLine d r).setFld f n).bump g).bump g2
      else (((u.setRing d r v).nodeLine d r).setFld f n).bump g) d r = v := by
  have k : ((((u.setRing d r v).nodeLine d r).setFld f n).bump g).rings = (u.setRing d r v).rings :=
    (State.bump_agree (L := [.regs, .linkOut, .mem, .pages, .ras, .flash, .link, .nb]) (by decide)
      (State.setFld_agree (by decide) (State.nodeLine_agree (fun _ h => h) (Agree.refl _ _)))).rings_eq (by decide)
  split
  · exact (State.ring_congr (((State.bump_agree (L := [.regs]) (by decide) (Agree.refl _ _)).rings_eq (by decide)).trans k) d r).trans (State.ring_setRing_same ..)
  · exact (State.ring_congr k d r).trans (State.ring_setRing_same ..)

/-- A record takes one completion slot (R373). -/
theorem State.postRecord_ring (s : State) (d r : Nat) (st : Status) (ws : List Nat) :
    (s.postRecord d r st ws).ring d r = { s.ring d r with compTail := ((s.ring d r).compTail + 1) % 2 ^ 32, reserved := (s.ring d r).reserved - 1 } :=
  State.ring_after _ d r _ _ _ _ _ _

theorem State.ring_line (u : State) (d r : Nat) (v : RingRt) (f g f2 : Fld) (n n2 : Nat) (c : Prop) [Decidable c] :
    State.ring ((if c then ((u.setRing d r v).setFld f n).bump g else (((u.setRing d r v).setFld f n).bump g).setFld f2 n2).nodeLine d r) d r = v := by
  have k : ∀ w : State, (w.nodeLine d r).rings = w.rings := fun w =>
    (State.nodeLine_agree (fun _ h => h) (Agree.refl _ w)).rings_eq (by decide)
  have e : (((u.setRing d r v).setFld f n).bump g).rings = (u.setRing d r v).rings :=
    (State.bump_agree (L := [.regs]) (by decide) (State.setFld_agree (by decide) (Agree.refl _ _))).rings_eq (by decide)
  refine (State.ring_congr ((k _).trans ?_) d r).trans (State.ring_setRing_same u d r v)
  split
  · exact e
  · exact ((State.setFld_agree (L := [.regs]) (by decide) (Agree.refl _ _)).rings_eq (by decide)).trans e

/-- Taking a head moves WORK_HEAD by one and reserves completion slots (R373). -/
theorem State.takeHead_ring (s : State) (d r n : Nat) :
    (s.takeHead d r n).ring d r = { s.ring d r with workHead := ((s.ring d r).workHead + 1) % 2 ^ 32, reserved := (s.ring d r).reserved + n } :=
  State.ring_line s d r _ _ _ _ _ _ _

theorem State.takeHead_sched (s : State) (d r n : Nat) : (s.takeHead d r n).sched = s.sched :=
  (State.takeHead_agree (fun _ h => h) (Agree.refl _ s)).sched_eq (by decide)

theorem State.takeHead_time (s : State) (d r n : Nat) : (s.takeHead d r n).time = s.time :=
  (State.takeHead_agree (fun _ h => h) (Agree.refl _ s)).time_eq (by decide)

theorem State.postRecord_sched (s : State) (d r : Nat) (st : Status) (ws : List Nat) : (s.postRecord d r st ws).sched = s.sched :=
  (State.postRecord_agree (fun _ h => h) (Agree.refl _ s)).sched_eq (by decide)

end Sys2Proof.Machine
end

