-- ==== Sys2Proof/Laws/KeepEmbedRows.lean ====
section
/-! SUPPORT. What the operations of Machine/EmbedRows.lean may touch. -/

namespace Sys2Proof.Machine

open Sys2Proof

theorem execLookup_agree {L s0 dom ring s t} (he : execLookup dom ring s = .next t) (hL : [.freshCount, .regs, .linkOut, .mem, .rings, .sched, .colls, .parts, .pages, .ras, .fabric, .flash, .link, .emb, .nb] ⊆ L) (h : Agree L s0 s) : Agree L s0 t := by
  unfold execLookup at he
  refine node_agree he (fun u hu => ?_) h
  show Agree L s0 _
  refine State.takeOp_agree (sub hL (by decide)) ?_
  exact hu

theorem execSortByOwner_agree {L s0 sid s t} (he : execSortByOwner sid s = .next t) (hL : [.regs, .linkOut, .mem, .rings, .sched, .pages, .ras, .fabric, .flash, .link, .emb, .nb] ⊆ L) (h : Agree L s0 s) : Agree L s0 t := by
  unfold execSortByOwner at he
  refine node_agree he (fun u hu => ?_) h
  show Agree L s0 _
  refine State.sliceEnds_agree (sub hL (by decide)) ?_ ?_
  · intro t1_0 t1_1 h1_0
    show Agree L s0 _
    refine State.endSort_agree (sub hL (by decide)) ?_
    exact h1_0
  · exact hu

theorem execLookupShare_agree {L s0 src req s t} (he : execLookupShare src req s = .next t) (hL : [.regs, .sched, .fabric, .emb] ⊆ L) (h : Agree L s0 s) : Agree L s0 t := by
  unfold execLookupShare at he
  refine node_agree he (fun u hu => ?_) h
  show Agree L s0 _
  refine State.fromPeer_agree (sub hL (by decide)) ?_ ?_
  · intro t1_0 h1_0
    show Agree L s0 _
    refine State.arriveLookup_agree (sub hL (by decide)) ?_
    exact h1_0
  · exact hu

theorem execPooling_agree {L s0 sid s t} (he : execPooling sid s = .next t) (hL : [.freshCount, .regs, .sched, .ras, .fabric, .flash, .emb] ⊆ L) (h : Agree L s0 s) : Agree L s0 t := by
  unfold execPooling at he
  refine node_agree he (fun u hu => ?_) h
  show Agree L s0 _
  refine State.sliceEnds_agree (sub hL (by decide)) ?_ ?_
  · intro t1_0 t1_1 h1_0
    show Agree L s0 _
    refine State.endPooling_agree (sub hL (by decide)) ?_
    exact h1_0
  · exact hu

theorem execLookupPartial_agree {L s0 msg s t} (he : execLookupPartial msg s = .next t) (hL : [.regs, .sched, .fabric, .emb] ⊆ L) (h : Agree L s0 s) : Agree L s0 t := by
  unfold execLookupPartial at he
  refine node_agree he (fun u hu => ?_) h
  show Agree L s0 _
  refine State.fromPeer_agree (sub hL (by decide)) ?_ ?_
  · intro t1_0 h1_0
    show Agree L s0 _
    refine State.receiveLookup_agree (sub hL (by decide)) ?_
    exact h1_0
  · exact hu

theorem execLookupCombine_agree {L s0 sid s t} (he : execLookupCombine sid s = .next t) (hL : [.freshCount, .regs, .linkOut, .mem, .rings, .sched, .pages, .ras, .flash, .link, .nb] ⊆ L) (h : Agree L s0 s) : Agree L s0 t := by
  unfold execLookupCombine at he
  refine node_agree he (fun u hu => ?_) h
  show Agree L s0 _
  refine State.sliceEnds_agree (sub hL (by decide)) ?_ ?_
  · intro t1_0 t1_1 h1_0
    show Agree L s0 _
    refine State.endCombineBags_agree (sub hL (by decide)) ?_
    exact h1_0
  · exact hu

theorem execEmbUpdate_agree {L s0 dom ring s t} (he : execEmbUpdate dom ring s = .next t) (hL : [.freshCount, .regs, .linkOut, .mem, .rings, .sched, .colls, .parts, .pages, .ras, .fabric, .flash, .link, .emb, .nb] ⊆ L) (h : Agree L s0 s) : Agree L s0 t := by
  unfold execEmbUpdate at he
  refine node_agree he (fun u hu => ?_) h
  show Agree L s0 _
  refine State.takeOp_agree (sub hL (by decide)) ?_
  exact hu

theorem execGradientRow_agree {L s0 src table step row g s t} (he : execGradientRow src table step row g s = .next t) (hL : [.regs, .fabric, .emb] ⊆ L) (h : Agree L s0 s) : Agree L s0 t := by
  unfold execGradientRow at he
  refine node_agree he (fun u hu => ?_) h
  show Agree L s0 _
  refine State.fromPeer_agree (sub hL (by decide)) ?_ ?_
  · intro t1_0 h1_0
    show Agree L s0 _
    refine State.gradientRow_agree (sub hL (by decide)) ?_
    exact h1_0
  · exact hu

theorem execStepClose_agree {L s0 dom ring s t} (he : execStepClose dom ring s = .next t) (hL : [.freshCount, .regs, .linkOut, .mem, .rings, .sched, .colls, .parts, .pages, .ras, .fabric, .flash, .link, .emb, .nb] ⊆ L) (h : Agree L s0 s) : Agree L s0 t := by
  unfold execStepClose at he
  refine node_agree he (fun u hu => ?_) h
  show Agree L s0 _
  refine State.takeOp_agree (sub hL (by decide)) ?_
  exact hu

theorem execStepCloseAt_agree {L s0 table s t} (he : execStepCloseAt table s = .next t) (hL : [.freshCount, .regs, .linkOut, .mem, .rings, .sched, .pages, .ras, .flash, .link, .emb, .nb] ⊆ L) (h : Agree L s0 s) : Agree L s0 t := by
  unfold execStepCloseAt at he
  refine node_agree he (fun u hu => ?_) h
  show Agree L s0 _
  refine State.atWindow_agree ?_ ?_
  · intro t1_0 h1_0
    show Agree L s0 _
    refine State.closeSteps_agree (sub hL (by decide)) ?_
    exact h1_0
  · exact hu

theorem execSealSend_agree {L s0 table s t} (he : execSealSend table s = .next t) (hL : [.fabric, .emb] ⊆ L) (h : Agree L s0 s) : Agree L s0 t := by
  unfold execSealSend at he
  refine node_agree he (fun u hu => ?_) h
  show Agree L s0 _
  refine State.sealStep_agree (sub hL (by decide)) ?_
  exact hu

theorem execSealMsg_agree {L s0 src table step s t} (he : execSealMsg src table step s = .next t) (hL : [.regs, .emb] ⊆ L) (h : Agree L s0 s) : Agree L s0 t := by
  unfold execSealMsg at he
  refine node_agree he (fun u hu => ?_) h
  show Agree L s0 _
  refine State.fromPeer_agree (sub hL (by decide)) ?_ ?_
  · intro t1_0 h1_0
    show Agree L s0 _
    refine State.recvSeal_agree (sub hL (by decide)) ?_
    exact h1_0
  · exact hu

theorem execStepApply_agree {L s0 sid s t} (he : execStepApply sid s = .next t) (hL : [.regs, .linkOut, .mem, .rings, .sched, .pages, .ras, .flash, .link, .emb, .nb] ⊆ L) (h : Agree L s0 s) : Agree L s0 t := by
  unfold execStepApply at he
  refine node_agree he (fun u hu => ?_) h
  show Agree L s0 _
  refine State.sliceEnds_agree (sub hL (by decide)) ?_ ?_
  · intro t1_0 t1_1 h1_0
    show Agree L s0 _
    refine State.endStepApply_agree (sub hL (by decide)) ?_
    exact h1_0
  · exact hu

theorem execHotSet_agree {L s0 dom ring s t} (he : execHotSet dom ring s = .next t) (hL : [.freshCount, .regs, .linkOut, .mem, .rings, .sched, .colls, .parts, .pages, .ras, .fabric, .flash, .link, .emb, .nb] ⊆ L) (h : Agree L s0 s) : Agree L s0 t := by
  unfold execHotSet at he
  refine node_agree he (fun u hu => ?_) h
  show Agree L s0 _
  refine State.takeOp_agree (sub hL (by decide)) ?_
  exact hu

theorem execHotRefresh_agree {L s0 table s t} (he : execHotRefresh table s = .next t) (hL : [.regs, .fabric, .emb] ⊆ L) (h : Agree L s0 s) : Agree L s0 t := by
  unfold execHotRefresh at he
  refine node_agree he (fun u hu => ?_) h
  show Agree L s0 _
  refine State.atWindow_agree ?_ ?_
  · intro t1_0 h1_0
    show Agree L s0 _
    refine State.refreshHot_agree (sub hL (by decide)) ?_
    exact h1_0
  · exact hu

theorem execEmbVersion_agree {L s0 dom ring s t} (he : execEmbVersion dom ring s = .next t) (hL : [.freshCount, .regs, .linkOut, .mem, .rings, .sched, .colls, .parts, .pages, .ras, .fabric, .flash, .link, .emb, .nb] ⊆ L) (h : Agree L s0 s) : Agree L s0 t := by
  unfold execEmbVersion at he
  refine node_agree he (fun u hu => ?_) h
  show Agree L s0 _
  refine State.takeOp_agree (sub hL (by decide)) ?_
  exact hu

theorem execEmbSwap_agree {L s0 table s t} (he : execEmbSwap table s = .next t) (hL : [.regs, .linkOut, .mem, .rings, .sched, .pages, .ras, .flash, .link, .emb, .nb] ⊆ L) (h : Agree L s0 s) : Agree L s0 t := by
  unfold execEmbSwap at he
  refine node_agree he (fun u hu => ?_) h
  show Agree L s0 _
  refine State.atWindow_agree ?_ ?_
  · intro t1_0 h1_0
    show Agree L s0 _
    refine State.embSwaps_agree (sub hL (by decide)) ?_
    exact h1_0
  · exact hu

theorem execDropReport_agree {L s0 table step _row s t} (he : execDropReport table step _row s = .next t) (hL : [.sched] ⊆ L) (h : Agree L s0 s) : Agree L s0 t := by
  unfold execDropReport at he
  refine node_agree he (fun u hu => ?_) h
  show Agree L s0 _
  refine State.dropReport_agree (sub hL (by decide)) ?_
  exact hu

theorem execHotRowFetch_agree {L s0 table slot row data s t} (he : execHotRowFetch table slot row data s = .next t) (hL : [.regs, .emb] ⊆ L) (h : Agree L s0 s) : Agree L s0 t := by
  unfold execHotRowFetch at he
  refine node_agree he (fun u hu => ?_) h
  show Agree L s0 _
  refine State.hotRowArrives_agree (sub hL (by decide)) ?_
  exact hu

end Sys2Proof.Machine
end

