-- ==== Sys2Proof/Laws/KeepEngineRows.lean ====
section
/-! SUPPORT. What the operations of Machine/EngineRows.lean may touch. -/

namespace Sys2Proof.Machine

open Sys2Proof

theorem execGemm_agree {L s0 dom ring s t} (he : execGemm dom ring s = .next t) (hL : [.freshCount, .regs, .linkOut, .mem, .rings, .sched, .colls, .parts, .pages, .ras, .fabric, .flash, .link, .emb, .nb] ⊆ L) (h : Agree L s0 s) : Agree L s0 t := by
  unfold execGemm at he
  refine node_agree he (fun u hu => ?_) h
  show Agree L s0 _
  refine State.takeKind_agree (sub hL (by decide)) ?_
  exact hu

theorem execElementWiseMap_agree {L s0 dom ring s t} (he : execElementWiseMap dom ring s = .next t) (hL : [.freshCount, .regs, .linkOut, .mem, .rings, .sched, .colls, .parts, .pages, .ras, .fabric, .flash, .link, .emb, .nb] ⊆ L) (h : Agree L s0 s) : Agree L s0 t := by
  unfold execElementWiseMap at he
  refine node_agree he (fun u hu => ?_) h
  show Agree L s0 _
  refine State.takeKind_agree (sub hL (by decide)) ?_
  exact hu

theorem execRowReduction_agree {L s0 dom ring s t} (he : execRowReduction dom ring s = .next t) (hL : [.freshCount, .regs, .linkOut, .mem, .rings, .sched, .colls, .parts, .pages, .ras, .fabric, .flash, .link, .emb, .nb] ⊆ L) (h : Agree L s0 s) : Agree L s0 t := by
  unfold execRowReduction at he
  refine node_agree he (fun u hu => ?_) h
  show Agree L s0 _
  refine State.takeKind_agree (sub hL (by decide)) ?_
  exact hu

theorem execGemmSlice_agree {L s0 sid s t} (he : execGemmSlice sid s = .next t) (hL : [.freshCount, .regs, .linkOut, .mem, .rings, .sched, .pages, .ras, .flash, .link, .nb] ⊆ L) (h : Agree L s0 s) : Agree L s0 t := by
  unfold execGemmSlice at he
  refine node_agree he (fun u hu => ?_) h
  show Agree L s0 _
  refine State.sliceEnds_agree (sub hL (by decide)) ?_ ?_
  · intro t1_0 t1_1 h1_0
    show Agree L s0 _
    refine State.endGemm_agree (sub hL (by decide)) ?_
    exact h1_0
  · exact hu

theorem execVectorSlice_agree {L s0 sid s t} (he : execVectorSlice sid s = .next t) (hL : [.freshCount, .regs, .linkOut, .mem, .rings, .sched, .pages, .ras, .flash, .link, .nb] ⊆ L) (h : Agree L s0 s) : Agree L s0 t := by
  unfold execVectorSlice at he
  refine node_agree he (fun u hu => ?_) h
  show Agree L s0 _
  refine State.sliceEnds_agree (sub hL (by decide)) ?_ ?_
  · intro t1_0 t1_1 h1_0
    show Agree L s0 _
    refine State.endVectorOp_agree (sub hL (by decide)) ?_
    exact h1_0
  · exact hu

theorem execAttend_agree {L s0 dom ring s t} (he : execAttend dom ring s = .next t) (hL : [.freshCount, .regs, .linkOut, .mem, .rings, .sched, .colls, .parts, .pages, .ras, .fabric, .flash, .link, .emb, .nb] ⊆ L) (h : Agree L s0 s) : Agree L s0 t := by
  unfold execAttend at he
  refine node_agree he (fun u hu => ?_) h
  show Agree L s0 _
  refine State.takeOp_agree (sub hL (by decide)) ?_
  exact hu

theorem execKvProjection_agree {L s0 sid s t} (he : execKvProjection sid s = .next t) (hL : [.freshCount, .regs, .sched, .flash] ⊆ L) (h : Agree L s0 s) : Agree L s0 t := by
  unfold execKvProjection at he
  refine node_agree he (fun u hu => ?_) h
  show Agree L s0 _
  refine State.sliceEnds_agree (sub hL (by decide)) ?_ ?_
  · intro t1_0 t1_1 h1_0
    show Agree L s0 _
    refine State.endKvProject_agree (sub hL (by decide)) ?_
    exact h1_0
  · exact hu

theorem execRotateAndWrite_agree {L s0 sid s t} (he : execRotateAndWrite sid s = .next t) (hL : [.regs, .linkOut, .mem, .rings, .sched, .pages, .ras, .fabric, .flash, .link, .nb] ⊆ L) (h : Agree L s0 s) : Agree L s0 t := by
  unfold execRotateAndWrite at he
  refine node_agree he (fun u hu => ?_) h
  show Agree L s0 _
  refine State.sliceEnds_agree (sub hL (by decide)) ?_ ?_
  · intro t1_0 t1_1 h1_0
    show Agree L s0 _
    refine State.endRotateWrite_agree (sub hL (by decide)) ?_
    exact h1_0
  · exact hu

theorem execFusedAttention_agree {L s0 sid s t} (he : execFusedAttention sid s = .next t) (hL : [.freshCount, .regs, .sched, .flash] ⊆ L) (h : Agree L s0 s) : Agree L s0 t := by
  unfold execFusedAttention at he
  refine node_agree he (fun u hu => ?_) h
  show Agree L s0 _
  refine State.sliceEnds_agree (sub hL (by decide)) ?_ ?_
  · intro t1_0 t1_1 h1_0
    show Agree L s0 _
    refine State.endFused_agree (sub hL (by decide)) ?_
    exact h1_0
  · exact hu

theorem execCombine_agree {L s0 sid s t} (he : execCombine sid s = .next t) (hL : [.freshCount, .regs, .linkOut, .mem, .rings, .sched, .pages, .ras, .fabric, .flash, .link, .nb] ⊆ L) (h : Agree L s0 s) : Agree L s0 t := by
  unfold execCombine at he
  refine node_agree he (fun u hu => ?_) h
  show Agree L s0 _
  refine State.sliceEnds_agree (sub hL (by decide)) ?_ ?_
  · intro t1_0 t1_1 h1_0
    show Agree L s0 _
    refine State.endCombine_agree (sub hL (by decide)) ?_
    exact h1_0
  · exact hu

theorem execAttnMerge_agree {L s0 dom ring s t} (he : execAttnMerge dom ring s = .next t) (hL : [.freshCount, .regs, .linkOut, .mem, .rings, .sched, .colls, .parts, .pages, .ras, .fabric, .flash, .link, .emb, .nb] ⊆ L) (h : Agree L s0 s) : Agree L s0 t := by
  unfold execAttnMerge at he
  refine node_agree he (fun u hu => ?_) h
  show Agree L s0 _
  refine State.takeOp_agree (sub hL (by decide)) ?_
  exact hu

theorem execAttnPartial_agree {L s0 mergeSlot msg s t} (he : execAttnPartial mergeSlot msg s = .next t) (hL : [.regs, .sched] ⊆ L) (h : Agree L s0 s) : Agree L s0 t := by
  unfold execAttnPartial at he
  refine node_agree he (fun u hu => ?_) h
  show Agree L s0 _
  refine State.fromPeer_agree (sub hL (by decide)) ?_ ?_
  · intro t1_0 h1_0
    show Agree L s0 _
    refine State.mergePartial_agree (sub hL (by decide)) ?_
    exact h1_0
  · exact hu

theorem execMerge_agree {L s0 sid s t} (he : execMerge sid s = .next t) (hL : [.freshCount, .regs, .linkOut, .mem, .rings, .sched, .pages, .ras, .flash, .link, .nb] ⊆ L) (h : Agree L s0 s) : Agree L s0 t := by
  unfold execMerge at he
  refine node_agree he (fun u hu => ?_) h
  show Agree L s0 _
  refine State.sliceEnds_agree (sub hL (by decide)) ?_ ?_
  · intro t1_0 t1_1 h1_0
    show Agree L s0 _
    refine State.endMergeSlice_agree (sub hL (by decide)) ?_
    exact h1_0
  · exact hu

theorem execSkiveReread_agree {L s0 page block ok s t} (he : execSkiveReread page block ok s = .next t) (hL : [.regs, .mem, .ras, .flash] ⊆ L) (h : Agree L s0 s) : Agree L s0 t := by
  unfold execSkiveReread at he
  refine node_agree he (fun u hu => ?_) h
  show Agree L s0 _
  refine State.reread_agree (sub hL (by decide)) ?_
  exact hu

end Sys2Proof.Machine
end

