-- ==== Sys2Proof/Laws/KeepNearBankRows.lean ====
section
/-! SUPPORT. What the operations of Machine/NearBankRows.lean may touch. -/

namespace Sys2Proof.Machine

open Sys2Proof

theorem execNbPooling_agree {L s0 sid s t} (he : execNbPooling sid s = .next t) (hL : [.freshCount, .regs, .linkOut, .mem, .sched, .pages, .ras, .flash, .link, .nb] ⊆ L) (h : Agree L s0 s) : Agree L s0 t := by
  unfold execNbPooling at he
  refine node_agree he (fun u hu => ?_) h
  show Agree L s0 _
  refine State.nbFinish_agree (sub hL (by decide)) ?_ ?_
  · intro t1_0 t1_1 h1_0
    show Agree L s0 _
    refine State.endNbPool_agree (sub hL (by decide)) ?_
    exact h1_0
  · exact hu

theorem execNbApply_agree {L s0 sid s t} (he : execNbApply sid s = .next t) (hL : [.regs, .linkOut, .mem, .rings, .sched, .pages, .ras, .flash, .link, .emb, .nb] ⊆ L) (h : Agree L s0 s) : Agree L s0 t := by
  unfold execNbApply at he
  refine node_agree he (fun u hu => ?_) h
  show Agree L s0 _
  refine State.sliceEnds_agree (sub hL (by decide)) ?_ ?_
  · intro t1_0 t1_1 h1_0
    show Agree L s0 _
    refine State.endNbApply_agree (sub hL (by decide)) ?_
    exact h1_0
  · exact hu

theorem execNbRun_agree {L s0 dom ring s t} (he : execNbRun dom ring s = .next t) (hL : [.freshCount, .regs, .linkOut, .mem, .rings, .sched, .colls, .parts, .pages, .ras, .fabric, .flash, .link, .emb, .nb] ⊆ L) (h : Agree L s0 s) : Agree L s0 t := by
  unfold execNbRun at he
  refine node_agree he (fun u hu => ?_) h
  show Agree L s0 _
  refine State.takeOp_agree (sub hL (by decide)) ?_
  exact hu

theorem execNbRunSlice_agree {L s0 sid s t} (he : execNbRunSlice sid s = .next t) (hL : [.freshCount, .regs, .linkOut, .mem, .rings, .sched, .pages, .ras, .flash, .link, .nb] ⊆ L) (h : Agree L s0 s) : Agree L s0 t := by
  unfold execNbRunSlice at he
  refine node_agree he (fun u hu => ?_) h
  show Agree L s0 _
  refine State.nbFinish_agree (sub hL (by decide)) ?_ ?_
  · intro t1_0 t1_1 h1_0
    show Agree L s0 _
    refine State.endNbRun_agree (sub hL (by decide)) ?_
    exact h1_0
  · exact hu

theorem execNop_agree {L s0 k u s t} (he : execNop k u s = .next t) (hL : [.regs, .mem, .nb] ⊆ L) (h : Agree L s0 s) : Agree L s0 t := by
  unfold execNop at he
  refine node_agree he (fun u hu => ?_) h
  show Agree L s0 _
  refine State.nbNop_agree (sub hL (by decide)) ?_
  exact hu

theorem execEndI_agree {L s0 k u s t} (he : execEndI k u s = .next t) (hL : [.freshCount, .regs, .mem, .nb] ⊆ L) (h : Agree L s0 s) : Agree L s0 t := by
  unfold execEndI at he
  refine node_agree he (fun u hu => ?_) h
  show Agree L s0 _
  refine State.nbEndI_agree (sub hL (by decide)) ?_
  exact hu

theorem execSet_agree {L s0 k u s t} (he : execSet k u s = .next t) (hL : [.regs, .mem, .nb] ⊆ L) (h : Agree L s0 s) : Agree L s0 t := by
  unfold execSet at he
  refine node_agree he (fun u hu => ?_) h
  show Agree L s0 _
  refine State.nbSet_agree (sub hL (by decide)) ?_
  exact hu

theorem execLdw_agree {L s0 k u s t} (he : execLdw k u s = .next t) (hL : [.regs, .mem, .nb] ⊆ L) (h : Agree L s0 s) : Agree L s0 t := by
  unfold execLdw at he
  refine node_agree he (fun u hu => ?_) h
  show Agree L s0 _
  refine State.nbLdw_agree (sub hL (by decide)) ?_
  exact hu

theorem execLde_agree {L s0 k u s t} (he : execLde k u s = .next t) (hL : [.regs, .mem, .nb] ⊆ L) (h : Agree L s0 s) : Agree L s0 t := by
  unfold execLde at he
  refine node_agree he (fun u hu => ?_) h
  show Agree L s0 _
  refine State.nbLde_agree (sub hL (by decide)) ?_
  exact hu

theorem execLd_agree {L s0 k u err s t} (he : execLd k u err s = .next t) (hL : [.regs, .mem, .nb] ⊆ L) (h : Agree L s0 s) : Agree L s0 t := by
  unfold execLd at he
  refine node_agree he (fun u hu => ?_) h
  show Agree L s0 _
  refine State.nbLd_agree (sub hL (by decide)) ?_
  exact hu

theorem execSt_agree {L s0 k u s t} (he : execSt k u s = .next t) (hL : [.freshCount, .regs, .mem, .nb] ⊆ L) (h : Agree L s0 s) : Agree L s0 t := by
  unfold execSt at he
  refine node_agree he (fun u hu => ?_) h
  show Agree L s0 _
  refine State.nbSt_agree (sub hL (by decide)) ?_
  exact hu

theorem execAdd_agree {L s0 k u s t} (he : execAdd k u s = .next t) (hL : [.regs, .mem, .nb] ⊆ L) (h : Agree L s0 s) : Agree L s0 t := by
  unfold execAdd at he
  refine node_agree he (fun u hu => ?_) h
  show Agree L s0 _
  refine State.nbAdd_agree (sub hL (by decide)) ?_
  exact hu

theorem execMul_agree {L s0 k u s t} (he : execMul k u s = .next t) (hL : [.regs, .mem, .nb] ⊆ L) (h : Agree L s0 s) : Agree L s0 t := by
  unfold execMul at he
  refine node_agree he (fun u hu => ?_) h
  show Agree L s0 _
  refine State.nbMul_agree (sub hL (by decide)) ?_
  exact hu

theorem execFma_agree {L s0 k u s t} (he : execFma k u s = .next t) (hL : [.regs, .mem, .nb] ⊆ L) (h : Agree L s0 s) : Agree L s0 t := by
  unfold execFma at he
  refine node_agree he (fun u hu => ?_) h
  show Agree L s0 _
  refine State.nbFma_agree (sub hL (by decide)) ?_
  exact hu

theorem execAct_agree {L s0 k u s t} (he : execAct k u s = .next t) (hL : [.regs, .mem, .nb] ⊆ L) (h : Agree L s0 s) : Agree L s0 t := by
  unfold execAct at he
  refine node_agree he (fun u hu => ?_) h
  show Agree L s0 _
  refine State.nbActI_agree (sub hL (by decide)) ?_
  exact hu

theorem execLacc_agree {L s0 k u err s t} (he : execLacc k u err s = .next t) (hL : [.regs, .mem, .nb] ⊆ L) (h : Agree L s0 s) : Agree L s0 t := by
  unfold execLacc at he
  refine node_agree he (fun u hu => ?_) h
  show Agree L s0 _
  refine State.nbLacc_agree (sub hL (by decide)) ?_
  exact hu

theorem execLoop_agree {L s0 k u s t} (he : execLoop k u s = .next t) (hL : [.regs, .mem, .nb] ⊆ L) (h : Agree L s0 s) : Agree L s0 t := by
  unfold execLoop at he
  refine node_agree he (fun u hu => ?_) h
  show Agree L s0 _
  refine State.nbLoop_agree (sub hL (by decide)) ?_
  exact hu

theorem execBr_agree {L s0 k u s t} (he : execBr k u s = .next t) (hL : [.regs, .mem, .nb] ⊆ L) (h : Agree L s0 s) : Agree L s0 t := by
  unfold execBr at he
  refine node_agree he (fun u hu => ?_) h
  show Agree L s0 _
  refine State.nbBr_agree (sub hL (by decide)) ?_
  exact hu

theorem execLaceBeat_agree {L s0 k u train vals poison s t} (he : execLaceBeat k u train vals poison s = .next t) (hL : [.nb] ⊆ L) (h : Agree L s0 s) : Agree L s0 t := by
  unfold execLaceBeat at he
  refine node_agree he (fun u hu => ?_) h
  show Agree L s0 _
  refine State.laceBeat_agree (sub hL (by decide)) ?_
  exact hu

theorem execBankRefresh_agree {L s0 k u s t} (he : execBankRefresh k u s = .next t) (hL : [.regs, .mem, .nb] ⊆ L) (h : Agree L s0 s) : Agree L s0 t := by
  unfold execBankRefresh at he
  refine node_agree he (fun u hu => ?_) h
  show Agree L s0 _
  refine State.refresh_agree (sub hL (by decide)) ?_
  exact hu

theorem execForcedPreemption_agree {L s0 k u s t} (he : execForcedPreemption k u s = .next t) (hL : [.regs, .nb] ⊆ L) (h : Agree L s0 s) : Agree L s0 t := by
  unfold execForcedPreemption at he
  refine node_agree he (fun u hu => ?_) h
  show Agree L s0 _
  refine State.preempt_agree (sub hL (by decide)) ?_
  exact hu

end Sys2Proof.Machine
end

