-- ==== Sys2Proof/Laws/KeepSearchRows.lean ====
section
/-! SUPPORT. What the operations of Machine/SearchRows.lean may touch. -/

namespace Sys2Proof.Machine

open Sys2Proof

theorem execSearch_agree {L s0 dom ring s t} (he : execSearch dom ring s = .next t) (hL : [.freshCount, .regs, .linkOut, .mem, .rings, .sched, .colls, .parts, .pages, .ras, .fabric, .flash, .link, .emb, .nb] ⊆ L) (h : Agree L s0 s) : Agree L s0 t := by
  unfold execSearch at he
  refine node_agree he (fun u hu => ?_) h
  show Agree L s0 _
  refine State.takeOp_agree (sub hL (by decide)) ?_
  exact hu

theorem execAbort_agree {L s0 dom ring s t} (he : execAbort dom ring s = .next t) (hL : [.freshCount, .regs, .linkOut, .mem, .rings, .sched, .colls, .parts, .pages, .ras, .fabric, .flash, .link, .emb, .nb] ⊆ L) (h : Agree L s0 s) : Agree L s0 t := by
  unfold execAbort at he
  refine node_agree he (fun u hu => ?_) h
  show Agree L s0 _
  refine State.takeOp_agree (sub hL (by decide)) ?_
  exact hu

theorem execRouteWalk_agree {L s0 sid s t} (he : execRouteWalk sid s = .next t) (hL : [.freshCount, .regs, .linkOut, .mem, .rings, .sched, .pages, .ras, .fabric, .flash, .link, .nb] ⊆ L) (h : Agree L s0 s) : Agree L s0 t := by
  unfold execRouteWalk at he
  refine node_agree he (fun u hu => ?_) h
  show Agree L s0 _
  refine State.sliceEnds_agree (sub hL (by decide)) ?_ ?_
  · intro t1_0 t1_1 h1_0
    show Agree L s0 _
    refine State.endRouteWalk_agree (sub hL (by decide)) ?_
    exact h1_0
  · exact hu

theorem execTableBuild_agree {L s0 sid s t} (he : execTableBuild sid s = .next t) (hL : [.freshCount, .regs, .sched, .flash] ⊆ L) (h : Agree L s0 s) : Agree L s0 t := by
  unfold execTableBuild at he
  refine node_agree he (fun u hu => ?_) h
  show Agree L s0 _
  refine State.sliceEnds_agree (sub hL (by decide)) ?_ ?_
  · intro t1_0 t1_1 h1_0
    show Agree L s0 _
    refine State.endTableBuild_agree (sub hL (by decide)) ?_
    exact h1_0
  · exact hu

theorem execEscalatedRebuild_agree {L s0 sid s t} (he : execEscalatedRebuild sid s = .next t) (hL : [.freshCount, .regs, .sched, .flash] ⊆ L) (h : Agree L s0 s) : Agree L s0 t := by
  unfold execEscalatedRebuild at he
  refine node_agree he (fun u hu => ?_) h
  show Agree L s0 _
  refine State.sliceEnds_agree (sub hL (by decide)) ?_ ?_
  · intro t1_0 t1_1 h1_0
    show Agree L s0 _
    refine State.endRebuild_agree (sub hL (by decide)) ?_
    exact h1_0
  · exact hu

theorem execProbeHold_agree {L s0 coll part s t} (he : execProbeHold coll part s = .next t) (hL : [.sched] ⊆ L) (h : Agree L s0 s) : Agree L s0 t := by
  unfold execProbeHold at he
  refine node_agree he (fun u hu => ?_) h
  show Agree L s0 _
  refine State.atWindow_agree ?_ ?_
  · intro t1_0 h1_0
    show Agree L s0 _
    refine State.passesOf_agree (sub hL (by decide)) ?_
    exact h1_0
  · exact hu

theorem execSketchPass_agree {L s0 sid s t} (he : execSketchPass sid s = .next t) (hL : [.regs, .sched, .flash] ⊆ L) (h : Agree L s0 s) : Agree L s0 t := by
  unfold execSketchPass at he
  refine node_agree he (fun u hu => ?_) h
  show Agree L s0 _
  refine State.sliceEnds_agree (sub hL (by decide)) ?_ ?_
  · intro t1_0 t1_1 h1_0
    show Agree L s0 _
    refine State.endSketchPass_agree (sub hL (by decide)) ?_
    exact h1_0
  · exact hu

theorem execCodePass_agree {L s0 sid s t} (he : execCodePass sid s = .next t) (hL : [.regs, .sched, .flash] ⊆ L) (h : Agree L s0 s) : Agree L s0 t := by
  unfold execCodePass at he
  refine node_agree he (fun u hu => ?_) h
  show Agree L s0 _
  refine State.sliceEnds_agree (sub hL (by decide)) ?_ ?_
  · intro t1_0 t1_1 h1_0
    show Agree L s0 _
    refine State.endCodePass_agree (sub hL (by decide)) ?_
    exact h1_0
  · exact hu

theorem execSideSlice_agree {L s0 sid s t} (he : execSideSlice sid s = .next t) (hL : [.regs, .sched, .flash] ⊆ L) (h : Agree L s0 s) : Agree L s0 t := by
  unfold execSideSlice at he
  refine node_agree he (fun u hu => ?_) h
  show Agree L s0 _
  refine State.sliceEnds_agree (sub hL (by decide)) ?_ ?_
  · intro t1_0 t1_1 h1_0
    show Agree L s0 _
    refine State.endSideSlice_agree (sub hL (by decide)) ?_
    exact h1_0
  · exact hu

theorem execLocalSelect_agree {L s0 sid s t} (he : execLocalSelect sid s = .next t) (hL : [.regs, .linkOut, .mem, .rings, .sched, .pages, .ras, .fabric, .flash, .link, .nb] ⊆ L) (h : Agree L s0 s) : Agree L s0 t := by
  unfold execLocalSelect at he
  refine node_agree he (fun u hu => ?_) h
  show Agree L s0 _
  refine State.sliceEnds_agree (sub hL (by decide)) ?_ ?_
  · intro t1_0 t1_1 h1_0
    show Agree L s0 _
    refine State.endLocalSelect_agree (sub hL (by decide)) ?_
    exact h1_0
  · exact hu

theorem execRerankReadIssue_agree {L s0 job s t} (he : execRerankReadIssue job s = .next t) (hL : [.sched] ⊆ L) (h : Agree L s0 s) : Agree L s0 t := by
  unfold execRerankReadIssue at he
  refine node_agree he (fun u hu => ?_) h
  show Agree L s0 _
  refine State.issueOf_agree (sub hL (by decide)) ?_
  exact hu

theorem execPlaneRead_agree {L s0 job cand channel step retries s t} (he : execPlaneRead job cand channel step retries s = .next t) (hL : [.regs, .mem, .sched, .ras, .flash] ⊆ L) (h : Agree L s0 s) : Agree L s0 t := by
  unfold execPlaneRead at he
  refine node_agree he (fun u hu => ?_) h
  show Agree L s0 _
  refine Agree.ite ?_ ?_
  · refine State.readFault_agree (sub hL (by decide)) ?_
    refine State.planeRead_agree (sub hL (by decide)) ?_
    exact hu
  · exact hu

theorem execThresholdAdjust_agree {L s0 channel lun bin up s t} (he : execThresholdAdjust channel lun bin up s = .next t) (hL : [.flash] ⊆ L) (h : Agree L s0 s) : Agree L s0 t := by
  unfold execThresholdAdjust at he
  refine node_agree he (fun u hu => ?_) h
  show Agree L s0 _
  refine State.adjust_agree (sub hL (by decide)) ?_
  exact hu

theorem execRerank_agree {L s0 sid s t} (he : execRerank sid s = .next t) (hL : [.freshCount, .regs, .sched, .flash] ⊆ L) (h : Agree L s0 s) : Agree L s0 t := by
  unfold execRerank at he
  refine node_agree he (fun u hu => ?_) h
  show Agree L s0 _
  refine State.sliceEnds_agree (sub hL (by decide)) ?_ ?_
  · intro t1_0 t1_1 h1_0
    show Agree L s0 _
    refine State.endRerank_agree (sub hL (by decide)) ?_
    exact h1_0
  · exact hu

theorem execShareRequest_agree {L s0 src req s t} (he : execShareRequest src req s = .next t) (hL : [.freshCount, .regs, .sched, .ras, .fabric] ⊆ L) (h : Agree L s0 s) : Agree L s0 t := by
  unfold execShareRequest at he
  refine node_agree he (fun u hu => ?_) h
  show Agree L s0 _
  refine State.fromPeer_agree (sub hL (by decide)) ?_ ?_
  · intro t1_0 h1_0
    show Agree L s0 _
    refine State.arriveShare_agree (sub hL (by decide)) ?_
    exact h1_0
  · exact hu

theorem execPartialMsg_agree {L s0 msg s t} (he : execPartialMsg msg s = .next t) (hL : [.regs, .sched, .fabric] ⊆ L) (h : Agree L s0 s) : Agree L s0 t := by
  unfold execPartialMsg at he
  refine node_agree he (fun u hu => ?_) h
  show Agree L s0 _
  refine State.fromPeer_agree (sub hL (by decide)) ?_ ?_
  · intro t1_0 h1_0
    show Agree L s0 _
    refine State.receivePartial_agree (sub hL (by decide)) ?_
    exact h1_0
  · exact hu

theorem execFanInMerge_agree {L s0 sid s t} (he : execFanInMerge sid s = .next t) (hL : [.regs, .linkOut, .mem, .rings, .sched, .pages, .ras, .fabric, .flash, .link, .nb] ⊆ L) (h : Agree L s0 s) : Agree L s0 t := by
  unfold execFanInMerge at he
  refine node_agree he (fun u hu => ?_) h
  show Agree L s0 _
  refine State.sliceEnds_agree (sub hL (by decide)) ?_ ?_
  · intro t1_0 t1_1 h1_0
    show Agree L s0 _
    refine State.endFanIn_agree (sub hL (by decide)) ?_
    exact h1_0
  · exact hu

theorem execShareWaitTimeout_agree {L s0 lookup n s t} (he : execShareWaitTimeout lookup n s = .next t) (hL : [.freshCount, .regs, .sched, .ras, .fabric, .emb] ⊆ L) (h : Agree L s0 s) : Agree L s0 t := by
  unfold execShareWaitTimeout at he
  refine node_agree he (fun u hu => ?_) h
  show Agree L s0 _
  refine State.shareTimeout_agree (sub hL (by decide)) ?_
  exact hu

end Sys2Proof.Machine
end

