-- ==== Sys2Proof/Laws/KeepUpdateRows.lean ====
section
/-! SUPPORT. What the operations of Machine/UpdateRows.lean may touch. -/

namespace Sys2Proof.Machine

open Sys2Proof

theorem execInsert_agree {L s0 dom ring s t} (he : execInsert dom ring s = .next t) (hL : [.freshCount, .regs, .linkOut, .mem, .rings, .sched, .colls, .parts, .pages, .ras, .fabric, .flash, .link, .emb, .nb] ⊆ L) (h : Agree L s0 s) : Agree L s0 t := by
  unfold execInsert at he
  refine node_agree he (fun u hu => ?_) h
  show Agree L s0 _
  refine State.takeOp_agree (sub hL (by decide)) ?_
  exact hu

theorem execDelete_agree {L s0 dom ring s t} (he : execDelete dom ring s = .next t) (hL : [.freshCount, .regs, .linkOut, .mem, .rings, .sched, .colls, .parts, .pages, .ras, .fabric, .flash, .link, .emb, .nb] ⊆ L) (h : Agree L s0 s) : Agree L s0 t := by
  unfold execDelete at he
  refine node_agree he (fun u hu => ?_) h
  show Agree L s0 _
  refine State.takeOp_agree (sub hL (by decide)) ?_
  exact hu

theorem execInsertEncode_agree {L s0 sid s t} (he : execInsertEncode sid s = .next t) (hL : [.freshCount, .regs, .linkOut, .mem, .sched, .pages, .ras, .flash, .link, .nb] ⊆ L) (h : Agree L s0 s) : Agree L s0 t := by
  unfold execInsertEncode at he
  refine node_agree he (fun u hu => ?_) h
  show Agree L s0 _
  refine State.sliceEnds_agree (sub hL (by decide)) ?_ ?_
  · intro t1_0 t1_1 h1_0
    show Agree L s0 _
    refine State.endInsertEncode_agree (sub hL (by decide)) ?_
    exact h1_0
  · exact hu

theorem execBatchCommit_agree {L s0 s t} (he : execBatchCommit s = .next t) (hL : [.freshCount, .regs, .linkOut, .mem, .rings, .sched, .parts, .pages, .ras, .flash, .link, .nb] ⊆ L) (h : Agree L s0 s) : Agree L s0 t := by
  unfold execBatchCommit at he
  refine node_agree he (fun u hu => ?_) h
  show Agree L s0 _
  refine State.commitBatch_agree (sub hL (by decide)) ?_
  exact hu

theorem execCompact_agree {L s0 dom ring s t} (he : execCompact dom ring s = .next t) (hL : [.freshCount, .regs, .linkOut, .mem, .rings, .sched, .colls, .parts, .pages, .ras, .fabric, .flash, .link, .emb, .nb] ⊆ L) (h : Agree L s0 s) : Agree L s0 t := by
  unfold execCompact at he
  refine node_agree he (fun u hu => ?_) h
  show Agree L s0 _
  refine State.takeOp_agree (sub hL (by decide)) ?_
  exact hu

theorem execMainFold_agree {L s0 sid s t} (he : execMainFold sid s = .next t) (hL : [.regs, .linkOut, .mem, .sched, .pages, .ras, .flash, .link, .nb] ⊆ L) (h : Agree L s0 s) : Agree L s0 t := by
  unfold execMainFold at he
  refine node_agree he (fun u hu => ?_) h
  show Agree L s0 _
  refine State.sliceEnds_agree (sub hL (by decide)) ?_ ?_
  · intro t1_0 t1_1 h1_0
    show Agree L s0 _
    refine State.endMainFold_agree (sub hL (by decide)) ?_
    exact h1_0
  · exact hu

theorem execSideFold_agree {L s0 sid s t} (he : execSideFold sid s = .next t) (hL : [.regs, .linkOut, .mem, .sched, .pages, .ras, .flash, .link, .nb] ⊆ L) (h : Agree L s0 s) : Agree L s0 t := by
  unfold execSideFold at he
  refine node_agree he (fun u hu => ?_) h
  show Agree L s0 _
  refine State.sliceEnds_agree (sub hL (by decide)) ?_ ?_
  · intro t1_0 t1_1 h1_0
    show Agree L s0 _
    refine State.endSideFold_agree (sub hL (by decide)) ?_
    exact h1_0
  · exact hu

theorem execLayoutSwap_agree {L s0 job s t} (he : execLayoutSwap job s = .next t) (hL : [.regs, .linkOut, .mem, .rings, .sched, .parts, .pages, .ras, .flash, .link, .nb] ⊆ L) (h : Agree L s0 s) : Agree L s0 t := by
  unfold execLayoutSwap at he
  refine node_agree he (fun u hu => ?_) h
  show Agree L s0 _
  refine State.atWindow_agree ?_ ?_
  · intro t1_0 h1_0
    show Agree L s0 _
    refine State.layoutSwaps_agree (sub hL (by decide)) ?_
    exact h1_0
  · exact hu

theorem execLayoutRelease_agree {L s0 coll part s t} (he : execLayoutRelease coll part s = .next t) (hL : [.regs, .linkOut, .mem, .rings, .parts, .pages, .ras, .flash, .link, .nb] ⊆ L) (h : Agree L s0 s) : Agree L s0 t := by
  unfold execLayoutRelease at he
  refine node_agree he (fun u hu => ?_) h
  show Agree L s0 _
  refine State.atWindow_agree ?_ ?_
  · intro t1_0 h1_0
    show Agree L s0 _
    refine State.releaseLayouts_agree (sub hL (by decide)) ?_
    exact h1_0
  · exact hu

theorem execVersion_agree {L s0 dom ring s t} (he : execVersion dom ring s = .next t) (hL : [.freshCount, .regs, .linkOut, .mem, .rings, .sched, .colls, .parts, .pages, .ras, .fabric, .flash, .link, .emb, .nb] ⊆ L) (h : Agree L s0 s) : Agree L s0 t := by
  unfold execVersion at he
  refine node_agree he (fun u hu => ?_) h
  show Agree L s0 _
  refine State.takeOp_agree (sub hL (by decide)) ?_
  exact hu

theorem execVersionCurrent_agree {L s0 coll s t} (he : execVersionCurrent coll s = .next t) (hL : [.regs, .linkOut, .mem, .rings, .sched, .colls, .pages, .ras, .flash, .link, .nb] ⊆ L) (h : Agree L s0 s) : Agree L s0 t := by
  unfold execVersionCurrent at he
  refine node_agree he (fun u hu => ?_) h
  show Agree L s0 _
  refine State.atWindow_agree ?_ ?_
  · intro t1_0 h1_0
    show Agree L s0 _
    refine State.versionSwaps_agree (sub hL (by decide)) ?_
    exact h1_0
  · exact hu

theorem execSlotRelease_agree {L s0 coll s t} (he : execSlotRelease coll s = .next t) (hL : [.regs, .linkOut, .mem, .rings, .colls, .pages, .ras, .flash, .link, .nb] ⊆ L) (h : Agree L s0 s) : Agree L s0 t := by
  unfold execSlotRelease at he
  refine node_agree he (fun u hu => ?_) h
  show Agree L s0 _
  refine State.atWindow_agree ?_ ?_
  · intro t1_0 h1_0
    show Agree L s0 _
    refine State.releaseSlots_agree (sub hL (by decide)) ?_
    exact h1_0
  · exact hu

theorem execRouteEdit_agree {L s0 dom ring s t} (he : execRouteEdit dom ring s = .next t) (hL : [.freshCount, .regs, .linkOut, .mem, .rings, .sched, .colls, .parts, .pages, .ras, .fabric, .flash, .link, .emb, .nb] ⊆ L) (h : Agree L s0 s) : Agree L s0 t := by
  unfold execRouteEdit at he
  refine node_agree he (fun u hu => ?_) h
  show Agree L s0 _
  refine State.takeOp_agree (sub hL (by decide)) ?_
  exact hu

theorem execRouteCopy_agree {L s0 sid s t} (he : execRouteCopy sid s = .next t) (hL : [.freshCount, .regs, .linkOut, .mem, .sched, .pages, .ras, .flash, .link, .nb] ⊆ L) (h : Agree L s0 s) : Agree L s0 t := by
  unfold execRouteCopy at he
  refine node_agree he (fun u hu => ?_) h
  show Agree L s0 _
  refine State.sliceEnds_agree (sub hL (by decide)) ?_ ?_
  · intro t1_0 t1_1 h1_0
    show Agree L s0 _
    refine State.endRouteCopy_agree (sub hL (by decide)) ?_
    exact h1_0
  · exact hu

end Sys2Proof.Machine
end

