-- ==== Sys2Proof/Laws/SliceEnds.lean ====
section
/-! SUPPORT. Folds, and jobs put twice. -/

namespace Sys2Proof.Machine

open Sys2Proof

/-- Areas that leave the jobs alone. -/
theorem Agree.jobs_eq {L : List Area} {s t : State} (h : Agree L s t) (hL : Area.sched ∉ L) : t.sched.jobs = s.sched.jobs :=
  congrArg SchedSt.jobs (h.sched_eq hL)

/-- What a compaction goes by stays while records fold. -/
def Compact.same (x y : Compact) : Prop :=
  y.coll = x.coll ∧ y.part = x.part ∧ y.pinned = x.pinned ∧ y.fold = x.fold ∧ y.mainEnded = x.mainEnded ∧ y.sideEnded = x.sideEnded ∧
    y.mainAdmitted = x.mainAdmitted ∧ y.sideAdmitted = x.sideAdmitted ∧ y.new = x.new

theorem Compact.same_refl (x : Compact) : Compact.same x x := ⟨rfl, rfl, rfl, rfl, rfl, rfl, rfl, rfl, rfl⟩

theorem Compact.same_trans {x y z : Compact} (h : Compact.same x y) (k : Compact.same y z) : Compact.same x z := by
  obtain ⟨a1, a2, a3, a4, a5, a6, a7, a8, a9⟩ := h
  obtain ⟨b1, b2, b3, b4, b5, b6, b7, b8, b9⟩ := k
  exact ⟨b1.trans a1, b2.trans a2, b3.trans a3, b4.trans a4, b5.trans a5, b6.trans a6, b7.trans a7, b8.trans a8, b9.trans a9⟩

theorem State.foldOne_same (s : State) (a : Nat) (x : Compact) (c d e : Nat) (f : List Byte) (g : Gid) (i : Bool) :
    Compact.same x (s.foldOne a x c d e f g i).2 := by
  unfold State.foldOne
  (repeat' split) <;> exact ⟨rfl, rfl, rfl, rfl, rfl, rfl, rfl, rfl, rfl⟩

theorem Compact.same_fold {α : Type} {f : State × Compact → α → State × Compact} {l : List α}
    (hf : ∀ q x, Compact.same q.2 (f q x).2) : ∀ q, Compact.same q.2 (l.foldl f q).2 := by
  induction l with
  | nil => exact fun q => Compact.same_refl _
  | cons a t ih => intro q; exact Compact.same_trans (hf q a) (ih _)

/-- Main folds count the ordinals they end. -/
theorem State.runMainFold_work {u : State} {v : State} {id : Nat} {j : Job} {x : Compact} (hq : u.compact? id = some (j, x)) (hv : v.sched.jobs = u.sched.jobs)
    (lo n : Nat) : ∃ y, (v.runMainFold j x lo n).work? id = some (.compact y) ∧ y.mainEnded = x.mainEnded + n ∧ y.pinned = x.pinned ∧ y.fold = x.fold := by
  obtain ⟨h1, h2, h3, h4⟩ := State.compact?_some hq
  unfold State.runMainFold
  simp only
  generalize hr : (List.range n).foldl _ (v, x) = r
  have ha : Agree [.regs, .linkOut, .mem, .pages, .ras, .flash, .link, .nb] v r.1 := by
    rw [← hr]
    refine Agree.foldFst ?_ (Agree.refl _ v)
    intro q i hq
    try dsimp only
    refine Agree.iteFst ?_ ?_
    · dsimp only; exact State.writeRecord_agree (by decide) hq
    · refine Agree.iteFst ?_ ?_
      · dsimp only; exact State.writeRecord_agree (by decide) hq
      · exact State.foldOne_agree (by decide) hq
  have hs : Compact.same x r.2 := by
    rw [← hr]
    refine Compact.same_fold (fun q i => ?_) (v, x)
    try dsimp only
    (repeat' split) <;> first | exact State.foldOne_same .. | exact ⟨rfl, rfl, rfl, rfl, rfl, rfl, rfl, rfl, rfl⟩
  have hj : r.1.sched.jobs = u.sched.jobs := (ha.jobs_eq (by decide)).trans hv
  refine ⟨{ r.2 with mainEnded := r.2.mainEnded + n }, ?_, by rw [hs.2.2.2.2.1], hs.2.2.1, hs.2.2.2.1⟩
  split
  · rw [State.work?_doomJob]; exact State.work?_put h1 hj _
  · exact State.work?_put h1 hj _

theorem State.runSideFold_work {u : State} {v : State} {id : Nat} {j : Job} {x : Compact} (hq : u.compact? id = some (j, x)) (hv : v.sched.jobs = u.sched.jobs)
    (lo n : Nat) : ∃ y, (v.runSideFold j x lo n).work? id = some (.compact y) ∧ y.sideEnded = x.sideEnded + n ∧ y.pinned = x.pinned ∧ y.fold = x.fold := by
  obtain ⟨h1, h2, h3, h4⟩ := State.compact?_some hq
  unfold State.runSideFold
  simp only
  generalize hr : (List.range n).foldl _ (v, x) = r
  have ha : Agree [.regs, .linkOut, .mem, .pages, .ras, .flash, .link, .nb] v r.1 := by
    rw [← hr]
    refine Agree.foldFst ?_ (Agree.refl _ v)
    intro q i hq
    try dsimp only
    refine Agree.iteFst ?_ ?_
    · refine Agree.iteFst ?_ ?_
      · exact hq
      · exact State.foldOne_agree (by decide) hq
    · exact hq
  have hs : Compact.same x r.2 := by
    rw [← hr]
    refine Compact.same_fold (fun q i => ?_) (v, x)
    try dsimp only
    (repeat' split) <;> first | exact State.foldOne_same .. | exact ⟨rfl, rfl, rfl, rfl, rfl, rfl, rfl, rfl, rfl⟩
  have hj : r.1.sched.jobs = u.sched.jobs := (ha.jobs_eq (by decide)).trans hv
  refine ⟨{ r.2 with sideEnded := r.2.sideEnded + n }, ?_, by rw [hs.2.2.2.2.2.1], hs.2.2.1, hs.2.2.2.1⟩
  split
  · rw [State.work?_doomJob]; exact State.work?_put h1 hj _
  · exact State.work?_put h1 hj _

/-- A slice row whose end gives a job some work. -/
theorem slice_some {s u : State} {sid : Nat} {x : Slice} {f : State → Slice → State} {id : Nat} {P : Work → Prop} {code : Nat} (h : s.running = true)
    (hs : s.endSlice sid = some (x, u)) (hk : kindCode x.kind = code) (hw : ∃ w, (f u x).work? id = some w ∧ P w) :
    ∃ t w, node s (fun s => s.sliceEnds sid code f) = .next t ∧ t.work? id = some w ∧ P w := by
  obtain ⟨w, h1, h2⟩ := hw
  obtain ⟨t, h3, h4⟩ := slice_work h hs hk h1
  exact ⟨t, w, h3, h4, h2⟩

/-- A job put twice. -/
theorem State.work?_put2 {s t : State} {id : Nat} {j : Job} {w0 : Work} (h : s.job? id = some j)
    (ht : t.sched.jobs = (s.putJob { j with work := w0 }).sched.jobs) (w : Work) : (t.putJob { j with work := w }).work? id = some w := by
  have hi := State.job?_id h
  have hs : (t.job? ({ j with work := w } : Job).id).isSome = true := by
    show (t.job? j.id).isSome = true
    rw [State.job?_congr ht]
    have := State.job?_putJob s { j with work := w0 } (by show (s.job? j.id).isSome = true; rw [hi, h]; rfl)
    rw [show j.id = ({ j with work := w0 } : Job).id from rfl, this]
    rfl
  have := State.work?_putJob t { j with work := w } hs
  rw [← hi]
  exact this

end Sys2Proof.Machine
end

