-- ==== Sys2Proof/Laws/Units.lean ====
section
/-! SUPPORT. Near-bank units after an instruction. -/

namespace Sys2Proof.Machine

open Sys2Proof

theorem State.unit?_setUnit (s : State) {k u : Nat} (hk : k < 4) (hu : u < 1024) (x : NbUnit) : (s.setUnit k u x).unit? k u = some x := by
  unfold State.unit? State.setUnit
  simp only [hk, hu, decide_true, Bool.and_self, if_true]
  exact SMap.get_set_same _ _ _

theorem State.unit?_bounds {s : State} {k u : Nat} {x : NbUnit} (h : s.unit? k u = some x) : k < 4 ∧ u < 1024 := by
  unfold State.unit? at h
  split at h
  · rename_i c; simpa using c
  · simp at h

theorem State.issue?_setIssue (s : State) (k : Nat) (x : Option NbIssue) : (s.setIssue k x).issue? k = x := SMap.get_set_same _ _ _

theorem State.nbWord_some {s : State} {k u : Nat} {x : NbUnit} {i : NbIssue} {w : Nat} (h : s.nbWord k u = some (x, i, w)) :
    s.unit? k u = some x ∧ s.issue? k = some i ∧ k < 4 ∧ u < 1024 ∧ x.on = true := by
  unfold State.nbWord at h
  split at h
  · rename_i y j h1 h2
    split at h
    · rename_i c
      simp only [Option.some.injEq, Prod.mk.injEq] at h
      obtain ⟨rfl, rfl, rfl⟩ := h
      simp only [Bool.and_eq_true] at c
      exact ⟨h1, h2, (State.unit?_bounds h1).1, (State.unit?_bounds h1).2, c.1⟩
    · simp at h
  · simp at h

/-- A stitch point leaves the unit stitched. -/
theorem State.unit?_stitchPoint {s : State} {k u : Nat} {i : NbIssue} (x : NbUnit) (hi : s.issue? k = some i) (hk : k < 4) (hu : u < 1024) :
    (s.stitchPoint k u x).unit? k u = some x.stitched := by
  unfold State.stitchPoint
  simp only [hi]
  exact State.unit?_setUnit _ hk hu _

theorem State.unit?_nbDone {s : State} {k u : Nat} {i : NbIssue} (x : NbUnit) (w : Nat) (r : NbRegs) (hi : s.issue? k = some i) (hk : k < 4) (hu : u < 1024) :
    (s.nbDone k u w x r).unit? k u = some (x.after w r) := by
  unfold State.nbDone NbUnit.after
  split
  · exact State.unit?_stitchPoint _ hi hk hu
  · exact State.unit?_setUnit _ hk hu _

/-- The issue of a K-stack stays an issue through a stitch point. -/
theorem State.issue?_stitchPoint {s : State} {k u : Nat} {i : NbIssue} (x : NbUnit) (hi : s.issue? k = some i) :
    ∃ j, (s.stitchPoint k u x).issue? k = some j := by
  unfold State.stitchPoint
  simp only [hi]
  generalize hA : State.setIssue _ k _ = A
  have hj : ∃ j, A.issue? k = some j := by rw [← hA]; exact ⟨_, State.issue?_setIssue _ _ _⟩
  obtain ⟨j, hj⟩ := hj
  refine ⟨j, ?_⟩
  cases s.nextUnit k u <;> cases x.refreshDue <;> (repeat' split) <;> exact hj

theorem State.nbBuffer_spec {s : State} {k u : Nat} {i : NbIssue} (x : NbUnit) (b : NbLine) (hi : s.issue? k = some i) (hk : k < 4) (hu : u < 1024) :
    (∃ j, (s.nbBuffer k u x b).1.issue? k = some j) ∧ (s.nbBuffer k u x b).2 = x.buffered b := by
  unfold State.nbBuffer NbUnit.buffered
  simp only
  split
  · refine ⟨State.issue?_stitchPoint x hi, ?_⟩
    rw [State.unit?_stitchPoint x hi hk hu]
    rfl
  · exact ⟨⟨i, hi⟩, rfl⟩

theorem State.issue?_nbLoaded {s : State} {k : Nat} {i : NbIssue} (err : Nat) (v : NbVec) (hi : s.issue? k = some i) :
    ∃ j, (s.nbLoaded k err v).issue? k = some j := by
  have e : (s.bump (Reg.KS.OUTER_CORRECTED k)).issue? k = some i := hi
  unfold State.nbLoaded
  by_cases he : err = 1
  · simp only [he, if_true, e]
    split
    · exact ⟨_, State.issue?_setIssue _ _ _⟩
    · exact ⟨i, e⟩
  · simp only [he, if_false, hi]
    split
    · exact ⟨_, State.issue?_setIssue _ _ _⟩
    · exact ⟨i, hi⟩

theorem State.unit?_nbVec {s : State} {k u : Nat} {x : NbUnit} {i : NbIssue} {w : Nat} {op : Nat} {f : Nat → NbRegs → Option NbVec} {v : NbVec}
    (hw : s.nbWord k u = some (x, i, w)) (ho : nbOp w = op) (hf : f w x.regs = some v) :
    (s.nbVec k u op f).unit? k u = some (x.after w (x.regs.setVec (nbD w) v).next) := by
  obtain ⟨h1, h2, h3, h4, h5⟩ := State.nbWord_some hw
  unfold State.nbVec
  simp only [hw, ho, if_true, hf]
  exact State.unit?_nbDone x w _ h2 h3 h4

end Sys2Proof.Machine
end

