-- ==== Sys2Proof/Laws/Beats.lean ====
section
/-! SUPPORT. Slices that end, the lace, and embedding tables. -/

namespace Sys2Proof.Machine

open Sys2Proof

/-- The end of a slice: all but jobs' dooms and staged pages is as the end of its kind leaves it. -/
theorem slice_state {s u : State} {sid : Nat} {x : Slice} {f : State → Slice → State} {code : Nat} (h : s.running = true)
    (hs : s.endSlice sid = some (x, u)) (hk : kindCode x.kind = code) :
    ∃ t, node s (fun s => s.sliceEnds sid code f) = .next t ∧ Agree [.sched, .flash] (f u x) t ∧ ∀ id, t.work? id = (f u x).work? id := by
  refine ⟨_, node_next h, ?_, fun id => ?_⟩
  · rw [← hk, State.sliceEnds_of hs]
    exact State.dropStaged_agree (by decide) (State.settleFrames_agree (by decide) (Agree.refl _ _))
  · rw [← hk, State.sliceEnds_of hs, State.work?_dropStaged, State.work?_settleFrames]

theorem State.beats_setBeats_same (s : State) (k u : Nat) (l : List NbBeat) : (s.setBeats k u l).beats k u = l := SMap.get_set_same _ _ _

theorem State.beats_setBeats_other (s : State) {k u v : Nat} (l : List NbBeat) (h : v ≠ u) : (s.setBeats k u l).beats k v = s.beats k v :=
  SMap.get_set_other _ _ (by unfold nbKey; omega)

theorem State.nextUnit_gt {s : State} {k u v : Nat} (h : s.nextUnit k u = some v) : u < v ∧ v < 1024 := by
  unfold State.nextUnit at h
  have h1 := List.find?_some h
  have h2 := List.mem_of_find?_eq_some h
  simp only [Bool.and_eq_true, decide_eq_true_eq] at h1
  exact ⟨h1.1, List.mem_range.mp h2⟩

theorem State.tab_setTab (s : State) (t : Nat) (v : EmbTable) : (s.setTab t v).tab t = v := SMap.get_set_same _ _ _

theorem State.tab_congr {s t : State} (h : t.emb = s.emb) (i : Nat) : t.tab i = s.tab i := by unfold State.tab; rw [h]

/-- A unit's slice that is run to its end. -/
theorem nbFinish_of {s : State} {sid : Nat} {x : Slice} {f : State → Slice → State} {code : Nat} (h : s.running = true)
    (hf : s.sched.slices.find? (fun x => x.id = sid) = some x) (hk : kindCode x.kind = code) (hn : (s.nbRunAll x.idx).nbStopped x.idx = true) :
    node s (fun s => s.nbFinish sid code f) = node (s.nbRunAll x.idx) (fun s => s.sliceEnds sid code f) := by
  have hp : (s.nbRunAll x.idx).running = true := by
    have := (State.nbRunAll_agree (L := [.freshCount, .regs, .mem, .nb]) (k := x.idx) (by decide) (Agree.refl _ s)).power_eq (by decide)
    unfold State.running at h ⊢
    rw [this]; exact h
  rw [node_next h, node_next hp]
  unfold State.nbFinish
  simp only [hf, hk, ne_eq, not_true_eq_false, if_false, hn, if_true]

/-- Held controller writes touch neither units nor beats. -/
theorem State.stores_nb (l : List (Nat × List Byte × Nat)) : ∀ a : State, (l.foldl (fun s x => s.store x.1 x.2.1 x.2.2) a).nb.units = a.nb.units ∧
    (l.foldl (fun s x => s.store x.1 x.2.1 x.2.2) a).nb.lace = a.nb.lace := by
  induction l with
  | nil => exact fun a => ⟨rfl, rfl⟩
  | cons b r ih =>
    intro a
    have hb : (a.store b.1 b.2.1 b.2.2).nb.units = a.nb.units ∧ (a.store b.1 b.2.1 b.2.2).nb.lace = a.nb.lace := by
      unfold State.store
      split
      · exact ⟨rfl, rfl⟩
      · rw [(State.storeNb_agree (L := [.regs, .linkOut, .mem, .pages, .ras, .flash, .link]) (by decide) (Agree.refl _ a)).nb_eq (by decide)]
        exact ⟨rfl, rfl⟩
    rw [List.foldl_cons, (ih _).1, (ih _).2]
    exact hb

end Sys2Proof.Machine
end

