-- ==== Sys2Proof/Laws/Tables.lean ====
section
/-! SUPPORT. Embedding tables: gradients, applies, seals and shares; messages to peers. -/

namespace Sys2Proof.Machine

open Sys2Proof

/-- Items that change nothing may be left out of a fold. -/
theorem foldl_skip {α : Type} {f : State → α → State} : ∀ {l : List α} (s : State), (∀ a ∈ l, ∀ u, f u a = u) → l.foldl f s = s
  | [], _, _ => rfl
  | a :: t, s, h => by
    rw [List.foldl_cons, h a (List.mem_cons_self ..) s]
    exact foldl_skip s (fun b hb => h b (List.mem_cons_of_mem _ hb))

/-- A fold in which one item alone counts. -/
theorem foldl_one {α : Type} {f : State → α → State} {l1 l2 : List α} {a : α} (s : State) (h1 : ∀ b ∈ l1, ∀ u, f u b = u) (h2 : ∀ b ∈ l2, ∀ u, f u b = u) :
    (l1 ++ a :: l2).foldl f s = f s a := by
  rw [List.foldl_append, foldl_skip s h1, List.foldl_cons, foldl_skip _ h2]

theorem State.fromPeer_member {s : State} {src : Nat} {f : State → State} (hm : s.fld Reg.G.MEMBER_STATE = 2) (hf : s.fabric.failed.contains src = false) :
    s.fromPeer src f = f s := by
  unfold State.fromPeer
  simp only [hm, hf, ne_eq, not_true_eq_false, if_false, Bool.false_eq_true]

theorem State.postRecord_emb (s : State) (d r : Nat) (st : Status) (ws : List Nat) : (s.postRecord d r st ws).emb = s.emb :=
  (State.postRecord_agree (fun _ h => h) (Agree.refl _ s)).emb_eq (by decide)

/-- The bodies of what is on its way out after one more message. -/
theorem State.send_out (s : State) (dst queue : Nat) (body : NetMsg) (hf : s.fabric.failed.contains dst = false) (hm : s.maySend body = true) :
    (s.send dst queue body).fabric.out.map (fun m => (m.dst, m.queue, m.body)) = s.fabric.out.map (fun m => (m.dst, m.queue, m.body)) ++ [(dst, queue, body)] := by
  unfold State.send
  rw [if_neg (by rw [hf, hm]; decide)]
  simp

theorem State.send_regs (s : State) (dst queue : Nat) (body : NetMsg) : (s.send dst queue body).regs = s.regs ∧ (s.send dst queue body).fabric.failed = s.fabric.failed := by
  unfold State.send
  split <;> exact ⟨rfl, rfl⟩

theorem State.maySend_congr {s t : State} (h : t.regs = s.regs) (b : NetMsg) : t.maySend b = s.maySend b := by
  unfold State.maySend
  rw [State.fld_congr h]

/-- Bodies of a message sent to several nodes. -/
theorem State.sends_out (queue : Nat) (body : NetMsg) : ∀ (l : List Nat) (s : State), (∀ o ∈ l, s.fabric.failed.contains o = false) → s.maySend body = true →
    (l.foldl (fun s o => s.send o queue body) s).fabric.out.map (fun m => (m.dst, m.queue, m.body)) =
      s.fabric.out.map (fun m => (m.dst, m.queue, m.body)) ++ l.map (fun o => (o, queue, body))
  | [], _, _, _ => by simp
  | a :: t, s, hl, hm => by
    obtain ⟨h1, h2⟩ := State.send_regs s a queue body
    rw [List.foldl_cons, State.sends_out queue body t _ (fun o ho => by rw [h2]; exact hl o (List.mem_cons_of_mem _ ho)) (by rw [State.maySend_congr h1]; exact hm),
      State.send_out s a queue body (hl a (List.mem_cons_self ..)) hm]
    simp

/-- Applying one entry: the row leaves the buffer and its step counts it (R274, R276). -/
theorem State.applyRow_tab (s : State) (t nb : Nat) (x : ClosedStep) (e : GradEntry) : ∃ b hot, (s.applyRow t nb x e).tab t =
    { s.tab t with entries := (s.tab t).entries.filter (fun y => y ≠ e), hot := hot, closed := (s.tab t).closed.map (fun y => if y.step = x.step then { y with applied := y.applied + 1, poisoned := y.poisoned + b } else y) } := by
  unfold State.applyRow
  simp only
  have key : ∀ (u : State) (v : EmbTable) (f : Fld) (r : JRec), (((u.setTab t v).bump f).journal r).tab t = v := by
    intro u v f r
    rw [State.tab_congr ((State.journal_agree (L := [.flash]) (by decide) (Agree.refl _ _)).emb_eq (by decide))]
    exact State.tab_setTab _ _ _
  exact ⟨_, _, key _ _ _ _⟩

theorem ClosedStep.count_step (n p : Nat) (x : ClosedStep) (y : ClosedStep) :
    (if y.step = x.step then { y with applied := y.applied + n, poisoned := y.poisoned + p } else y : ClosedStep).step = y.step := by
  split <;> rfl

/-- Applying entries one after another. -/
theorem State.applyRows_tab (t nb : Nat) (x : ClosedStep) : ∀ (es : List GradEntry) (s : State), ∃ b hot, (es.foldl (fun s e => s.applyRow t nb x e) s).tab t =
    { s.tab t with entries := (s.tab t).entries.filter (fun y => !es.contains y), hot := hot, closed := (s.tab t).closed.map (fun y => if y.step = x.step then { y with applied := y.applied + es.length, poisoned := y.poisoned + b } else y) }
  | [], s => by
    refine ⟨0, (s.tab t).hot, ?_⟩
    have h1 : (s.tab t).entries.filter (fun y => !([] : List GradEntry).contains y) = (s.tab t).entries := by simp
    have h2 : (s.tab t).closed.map (fun y => if y.step = x.step then { y with applied := y.applied + 0, poisoned := y.poisoned + 0 } else y) = (s.tab t).closed := by
      simp
    simp only [List.foldl_nil, h1, List.length_nil, h2]
  | e :: es, s => by
    obtain ⟨b1, h1, e1⟩ := State.applyRow_tab s t nb x e
    obtain ⟨b2, h2, e2⟩ := State.applyRows_tab t nb x es (s.applyRow t nb x e)
    refine ⟨b1 + b2, h2, ?_⟩
    rw [List.foldl_cons, e2, e1]
    have q1 : ((s.tab t).entries.filter (fun y => y ≠ e)).filter (fun y => !es.contains y) = (s.tab t).entries.filter (fun y => !(e :: es).contains y) := by
      rw [List.filter_filter]
      congr 1
      funext y
      by_cases hy : y = e <;> simp [List.contains_cons, hy]
    have q2 : ((s.tab t).closed.map (fun y => if y.step = x.step then { y with applied := y.applied + 1, poisoned := y.poisoned + b1 } else y)).map
        (fun y => if y.step = x.step then { y with applied := y.applied + es.length, poisoned := y.poisoned + b2 } else y) =
        (s.tab t).closed.map (fun y => if y.step = x.step then { y with applied := y.applied + (e :: es).length, poisoned := y.poisoned + (b1 + b2) } else y) := by
      rw [List.map_map]
      congr 1
      funext y
      simp only [Function.comp_def]
      by_cases hy : y.step = x.step
      · simp only [hy, if_true, List.length_cons, ClosedStep.mk.injEq, true_and, and_true]
        omega
      · simp only [hy, if_false]
    simp only [q1, q2]

theorem State.readyStep_head {s : State} {t : Nat} {x : ClosedStep} (h : s.readyStep t = some x) : ∃ cs, (s.tab t).closed = x :: cs := by
  unfold State.readyStep at h
  split at h
  · simp at h
  · rename_i y ys hc
    split at h
    · simp only [Option.some.injEq] at h
      exact ⟨ys, by rw [hc, h]⟩
    · simp at h

/-- A served share becomes a job of the rows it names. -/
theorem State.embServe_work (s : State) (m : LookupReq) (hr : m.requester ≠ s.self) (hj : s.job? s.sched.nextJob = none) :
    (s.embServe m).work? s.sched.nextJob = some (.embShare { requester := m.requester, context := m.context, table := m.table, slot := m.slot, desc := s.readEmb m.table, weighted := m.weighted, rows := m.entries.map (fun e => { row := e.1, bag := e.2.1, weight := e.2.2, addr := s.rowAddr ((s.tab m.table).slot m.slot) (s.readEmb m.table) e.1 }) }) := by
  unfold State.embServe
  simp only [hr, if_false, Option.isNone_none, List.filter_true, Option.map_none]
  rw [State.work?_map]
  · rw [State.addJob_work? _ _ _ _ _ _ hj]
    simp
  · intro j; split <;> rfl
  · intro j; split <;> rfl

/-- Apply slices over entries, while the step keeps others. -/
theorem State.runApply_tab {s : State} {t nb : Nat} {x : ClosedStep} {es : List GradEntry} (hr : s.readyStep t = some x)
    (hm : ∃ y ∈ (s.tab t).entries, y.step = x.step ∧ es.contains y = false) : ∃ b hot, (s.runApply t nb es).tab t =
    { s.tab t with entries := (s.tab t).entries.filter (fun y => !es.contains y), hot := hot, closed := (s.tab t).closed.map (fun y => if y.step = x.step then { y with applied := y.applied + es.length, poisoned := y.poisoned + b } else y) } := by
  obtain ⟨b, hot, e⟩ := State.applyRows_tab t nb x es s
  refine ⟨b, hot, ?_⟩
  rw [← e]
  unfold State.runApply
  simp only [hr]
  generalize hu : es.foldl (fun s e => s.applyRow t nb x e) s = u at e ⊢
  unfold State.finishStep
  split
  · rename_i x' hx'
    have hs : x'.step = x.step := by
      obtain ⟨cs, h1⟩ := State.readyStep_head hr
      obtain ⟨cs', h2⟩ := State.readyStep_head hx'
      rw [e, h1] at h2
      simp only [List.map_cons, List.cons.injEq] at h2
      rw [← h2.1]
      simp only [if_true]
    obtain ⟨y, hy, hys, hyn⟩ := hm
    have : (u.tab t).entries.any (fun e => e.step = x'.step) = true := by
      rw [e]
      exact List.any_eq_true.mpr ⟨y, List.mem_filter.mpr ⟨hy, by simp only [hyn, Bool.not_false]⟩, by simp [hys, hs]⟩
    simp only [this, Bool.true_or, if_true]
  · rfl

theorem window_next {s : State} {f : State → State} (h : s.running = true) (hw : (s.time.timer && s.inWindow) = true) :
    node s (fun s => s.atWindow f) = .next (f s) := by
  rw [node_next h]
  unfold State.atWindow
  rw [if_pos hw]

theorem peer_next {s : State} {src : Nat} {f : State → State} (h : s.running = true) (hm : s.fld Reg.G.MEMBER_STATE = 2)
    (hf : s.fabric.failed.contains src = false) : node s (fun s => s.fromPeer src f) = .next (f s) := by
  rw [node_next h, State.fromPeer_member hm hf]

end Sys2Proof.Machine
end

