-- ==== Sys2Proof/Laws/StartUp.lean ====
section
/-! SUPPORT. What power, reset and start-up leave; what the log and a change of START_STATE keep (R458, R468, R474, R541). -/

namespace Sys2Proof.Machine

open Sys2Proof

/-- A field that is no counter of log or losses, and not in the log's window, stays when an event is logged (R458, R465). -/
theorem State.fld_log (s : State) (cls sev dom kind idx addr detail : Nat) {g : Fld} (h : g.addr ≠ 0xA00000 ∧ g.addr ≠ 0xA0002C) (h2 : g.addr < 0xA01000 ∨ 0xA09000 ≤ g.addr) :
    (s.log cls sev dom kind idx addr detail).fld g = s.fld g := by
  unfold State.log
  simp only
  have r : ∀ (u : State) a b, (u.report a b).fld g = u.fld g := by
    intro u a b
    unfold State.report
    split
    · rfl
    · dsimp only
      generalize hv : (if (decide (b = 3) || u.ras.mgmtDown) = true then ({ u with ras := { u.ras with smbus := u.ras.smbus ++ [a] } } : State) else u) = v
      have hr : v.fld g = u.fld g := by rw [← hv]; split <;> rfl
      rw [← hr]
      split
      · rfl
      · exact State.fld_setFld_addr _ _ (by unfold Reg.Ras.LOG_LOST; simp only; omega)
  rw [r]
  unfold State.bump State.bumpBy
  rw [State.fld_setFld_addr _ _ (by unfold Reg.Ras.LOG_HEAD; simp only; omega)]
  have hm : s.fld Reg.Ras.LOG_HEAD % 1024 < 1024 := Nat.mod_lt _ (by decide)
  generalize s.fld Reg.Ras.LOG_HEAD = q at hm ⊢
  unfold State.fld
  have m : ∀ (l : List Nat) (u : State) (a : Nat), (a + 4 * l.length ≤ g.addr ∨ g.addr < a) → (u.setRegs a l).reg g.addr = u.reg g.addr := by
    intro l
    induction l with
    | nil => intros; rfl
    | cons w t ih =>
      intro u a h
      unfold State.setRegs
      simp only [List.length_cons] at h
      rw [ih _ _ (by omega), State.reg_setReg_other _ _ (by omega)]
  rw [m]
  have hl : (logWords q cls sev dom kind idx s.now addr detail).length = 8 := rfl
  rw [hl]
  omega

/-- What a change of START_STATE leaves of the registers (R468). -/
theorem State.setStart_fld (s : State) (v : Nat) (g : Fld) : (s.setStart v).fld g = (s.setFld Reg.Start.START_STATE v).fld g := by
  unfold State.setStart
  simp only
  split
  · rw [State.fld_congr (State.send_regs _ _ _ _).1]
    rfl
  · rfl

theorem State.setStart_state (s : State) (v : Nat) (h : v < 8) : (s.setStart v).fld Reg.Start.START_STATE = v := by
  rw [State.setStart_fld, State.fld_setFld_same _ _ _ (by decide)]
  exact Nat.mod_eq_of_lt h

theorem State.setStart_other (s : State) (v : Nat) {g : Fld} (h : Fld.apart Reg.Start.START_STATE g) : (s.setStart v).fld g = s.fld g := by
  rw [State.setStart_fld, State.fld_setFld_apart _ _ (by decide) h]

theorem State.setStart_reports (s : State) (v : Nat) : (s.setStart v).boot.reports = s.boot.reports ++ [v] := by
  unfold State.setStart
  simp only
  split
  · rw [(State.send_agree (L := [.fabric]) (by decide) (Agree.refl _ _)).boot_eq (by decide)]
    rfl
  · rfl

theorem State.powerDown_keeps (s : State) : (s.powerDown).boot.nor = s.boot.nor ∧ (s.powerDown).flash.dur = s.flash.dur ∧ (s.powerDown).time = State.reset.time ∧
    (s.powerDown).power = { s.power with railsUp := false, modPg := false, thermTripLow := false, xspiRstLow := true, xspiCeHigh := true } := by
  refine ⟨rfl, rfl, rfl, rfl⟩

theorem State.shutOff_spec (s : State) : (s.shutOff).boot.nor = s.boot.nor ∧ (s.shutOff).flash.dur = s.flash.dur ∧ (s.shutOff).time = State.reset.time ∧
    (s.shutOff).power.modPg = false ∧ (s.shutOff).power.railsUp = false ∧ (s.shutOff).power.offUntilCycle = s.power.modEn := by
  refine ⟨rfl, rfl, rfl, rfl, rfl, rfl⟩

theorem State.runRom_power (s : State) : (s.runRom).power = s.power :=
  (State.runRom_agree (L := [.time, .regs, .boot, .fabric]) (fun _ h => h) (Agree.refl _ s)).power_eq (by decide)

theorem mem_insNat_self : ∀ (l : List Nat) (b : Nat), b ∈ insNat l b := by
  intro l
  induction l with
  | nil => intro b; exact List.mem_singleton.mpr rfl
  | cons x t ih =>
    intro b
    unfold insNat
    split
    · exact List.mem_cons_self
    · split
      · rename_i h2; rw [h2]; exact List.mem_cons_self
      · exact List.mem_cons_of_mem _ (ih b)

theorem State.applyImage_slot (v : State) (slot : Nat) (hs : slot < 2) : (v.applyImage slot).fld Reg.Start.SLOT_USED = slot := by
  unfold State.applyImage State.setWide
  simp only
  rw [State.fld_setFld_apart _ _ (by decide) (by decide), State.fld_setFld_apart _ _ (by decide) (by decide), State.fld_setFld_apart _ _ (by decide) (by decide),
    State.fld_setFld_apart _ _ (by decide) (by decide), State.fld_setFld_apart _ _ (by decide) (by decide), State.fld_setFld_same _ _ _ (by decide)]
  exact Nat.mod_eq_of_lt hs

theorem State.sectionBytes_congr {s t : State} (h : t.boot.nor = s.boot.nor) (slot ty : Nat) : t.sectionBytes slot ty = s.sectionBytes slot ty := by
  unfold State.sectionBytes State.section? State.sections State.slotNat State.slotBytes State.norRead
  simp only [h]

theorem State.applyImage_fw (v : State) (slot : Nat) :
    (v.applyImage slot).fld Reg.G.FW_VERSION = (Config.firmwareVersion (v.sectionBytes slot 1)).toNat % 2 ^ Reg.G.FW_VERSION.width := by
  unfold State.applyImage
  simp only
  rw [State.fld_setFld_same _ _ _ (by decide)]
  refine congrArg (fun z => (Config.firmwareVersion z).toNat % 2 ^ Reg.G.FW_VERSION.width) (State.sectionBytes_congr (s := v) ?_ _ _)
  have fb : ∀ (l : List Nat) (u : State), (l.foldl (fun s a => s.setFld ⟨a, 0, 1⟩ 1) u).boot = u.boot := by
    intro l
    induction l with
    | nil => intro u; rfl
    | cons x t ih => intro u; rw [List.foldl_cons, ih, State.setFld_boot]
  simp only [State.setWide, State.setFld_boot, fb]

theorem State.runRom_found {u v : State} {l : List Nat} {slot : Nat} (hb : u.bootOrder = (v, l)) (hk : l.find? v.slotOk = some slot) :
    ∃ (w : State) (n : Nat), u.runRom = { w with time := { w.time with epoch := 0#48, phase := 0, timer := true, stitchLen := n } } ∧
      w.fld Reg.Start.SLOT_USED = (v.applyImage slot).fld Reg.Start.SLOT_USED ∧ w.fld Reg.G.FW_VERSION = (v.applyImage slot).fld Reg.G.FW_VERSION := by
  generalize hi : v.applyImage slot = i
  generalize hf : i.firstLeaf = fl
  generalize hr : b2n (Config.cacheOk (i.norRead 0x3E10000 0x10000)) = ready
  refine ⟨(i.setFld Reg.Sec.LEAF_NEXT fl).setFld Reg.Sec.ATTEST_READY ready, ((i.setFld Reg.Sec.LEAF_NEXT fl).setFld Reg.Sec.ATTEST_READY ready).fld Reg.G.PERIOD_US * 1300, ?_, ?_, ?_⟩
  · unfold State.runRom
    have hr2 : b2n (Config.cacheOk ((i.setFld Reg.Sec.LEAF_NEXT fl).norRead 0x3E10000 0x10000)) = ready := hr
    simp only [hb, hk, hi, hf, hr]
  · rw [State.fld_setFld_apart _ _ (by decide) (by decide), State.fld_setFld_apart _ _ (by decide) (by decide)]
  · rw [State.fld_setFld_apart _ _ (by decide) (by decide), State.fld_setFld_apart _ _ (by decide) (by decide)]

end Sys2Proof.Machine
end

