-- ==== Sys2Proof/Laws/FaultLog.lean ====
section
/-! SUPPORT. What logging an event and a fault that strikes leave (R458, R461). -/

namespace Sys2Proof.Machine

open Sys2Proof

theorem State.report_reg (u : State) (a b : Nat) {r : Nat} (h : r ≠ Reg.Ras.LOG_LOST.addr) : (u.report a b).reg r = u.reg r := by
  unfold State.report
  split
  · rfl
  · dsimp only
    generalize hv : (if (decide (b = 3) || u.ras.mgmtDown) = true then ({ u with ras := { u.ras with smbus := u.ras.smbus ++ [a] } } : State) else u) = v
    have hr : v.reg r = u.reg r := by rw [← hv]; split <;> rfl
    rw [← hr]
    split
    · rfl
    · exact State.reg_setReg_other _ _ h

/-- What logging an event writes (R458). -/
theorem State.log_logged (s : State) (cls sev dom kind idx addr detail : Nat) : s.Logged (s.log cls sev dom kind idx addr detail) cls sev dom kind idx addr detail := by
  have lh : Reg.Ras.LOG_HEAD = ⟨0xA00000, 0, 32⟩ := rfl
  unfold State.log
  simp only
  have hm : s.fld Reg.Ras.LOG_HEAD % 1024 < 1024 := Nat.mod_lt _ (by decide)
  refine ⟨?_, ?_⟩
  · have e : ∀ (u : State) a b, (u.report a b).fld Reg.Ras.LOG_HEAD = u.fld Reg.Ras.LOG_HEAD := by
      intro u a b
      unfold State.fld
      rw [State.report_reg _ _ _ (by decide)]
    rw [e, State.fld_bump_same _ _ (by decide)]
    have e2 : ∀ (a : Nat) l, 0xA01000 ≤ a → (s.setRegs a l).fld Reg.Ras.LOG_HEAD = s.fld Reg.Ras.LOG_HEAD := by
      intro a l ha
      unfold State.fld
      rw [State.reg_setRegs_out _ _ _ _ (by rw [lh]; simp only; omega)]
    rw [e2 _ _ (Nat.le_add_right _ _)]
    rfl
  · intro i hi
    rw [State.report_reg _ _ _ (by unfold Reg.Ras.LOG_LOST; simp only; omega)]
    unfold State.bump State.bumpBy State.setFld
    rw [State.reg_setReg_other _ _ (by rw [lh]; simp only; omega), State.reg_setRegs_in _ _ _ _ (by simp only [logWords, List.length_cons, List.length_nil]; omega)]

theorem State.bump_log_logged (s : State) (f : Fld) (cls sev dom kind idx addr detail : Nat) (h : f.addr ≠ 0xA00000) (h2 : f.addr < 0xA01000) :
    s.Logged ((s.log cls sev dom kind idx addr detail).bump f) cls sev dom kind idx addr detail := by
  obtain ⟨a, b⟩ := State.log_logged s cls sev dom kind idx addr detail
  refine ⟨?_, ?_⟩
  · rw [← a]
    exact State.fld_setFld_addr _ _ (fun e => h (by rw [← e]; rfl))
  · intro i hi
    rw [← b i hi]
    unfold State.bump State.bumpBy State.setFld
    exact State.reg_setReg_other _ _ (by omega)

/-- Registers outside the error log and its counters stay when a fault strikes (R461). -/
theorem State.fld_faultStruck (s : State) {g : Fld} (h0 : g.addr ≠ 0xA00000 ∧ g.addr ≠ 0xA0002C ∧ g.addr ≠ 0xA00028) (h : g.addr < 0xA01000 ∨ 0xA09000 ≤ g.addr) : (s.faultStruck).fld g = s.fld g := by
  have one : ∀ (u : State) a b c, ((u.bump Reg.Ras.RECOVERY_RESTARTS).log 0x0F 1 0 a b 0 c).fld g = u.fld g := by
    intro u a b c
    rw [State.fld_log _ _ _ _ _ _ _ _ (by omega) (by omega)]
    exact State.fld_setFld_addr _ _ (by unfold Reg.Ras.RECOVERY_RESTARTS; simp only; omega)
  have f : ∀ (l : List Nat) (u : State) (k : State → Nat → State), (∀ v a, (k v a).fld g = v.fld g) → (l.foldl k u).fld g = u.fld g := by
    intro l
    induction l with
    | nil => intros; rfl
    | cons x t ih => intro u k hk; rw [List.foldl_cons, ih _ _ hk, hk]
  unfold State.faultStruck
  simp only
  split
  · exact f _ _ _ (fun v a => one v _ _ _)
  · rw [one]
    exact f _ _ _ (fun v a => one v _ _ _)

theorem State.faultStruck_keep (s : State) : Agree [.regs, .ras] s s.faultStruck := State.faultStruck_agree (fun _ h => h) (Agree.refl _ s)

theorem State.report_ras (u : State) (a b : Nat) : ∃ x y z, (u.report a b).ras = { u.ras with smbus := x, unacked := y, pldm := z } := by
  unfold State.report
  split
  · exact ⟨_, _, _, rfl⟩
  · dsimp only
    generalize hv : (if (decide (b = 3) || u.ras.mgmtDown) = true then ({ u with ras := { u.ras with smbus := u.ras.smbus ++ [a] } } : State) else u) = v
    have hr : ∃ x, v.ras = { u.ras with smbus := x } := by rw [← hv]; split <;> exact ⟨_, rfl⟩
    obtain ⟨x, hx⟩ := hr
    split
    · refine ⟨x, v.ras.unacked ++ [a], (if v.ras.mgmtDown = true then v.ras.pldm else v.ras.pldm ++ [a]), ?_⟩
      simp only [hx]
    · exact ⟨x, u.ras.unacked, u.ras.pldm, hx⟩

/-- Logging an event leaves all of the fault state but the reports (R458, R459). -/
theorem State.log_ras (s : State) (cls sev dom kind idx addr detail : Nat) : ∃ x y z, (s.log cls sev dom kind idx addr detail).ras = { s.ras with smbus := x, unacked := y, pldm := z } := by
  unfold State.log
  simp only
  have e : ∀ l a, ((s.setRegs a l).bump Reg.Ras.LOG_HEAD).ras = s.ras := by
    intro l a
    exact (State.bump_agree (L := [.regs]) (by decide) (State.setRegs_agree (by decide) (Agree.refl _ s))).ras_eq (by decide)
  obtain ⟨x, y, z, h⟩ := State.report_ras ((s.setRegs (0xA01000 + s.fld Reg.Ras.LOG_HEAD % 1024 * 0x20) (logWords (s.fld Reg.Ras.LOG_HEAD) cls sev dom kind idx s.now addr detail)).bump
    Reg.Ras.LOG_HEAD) (s.fld Reg.Ras.LOG_HEAD) sev
  rw [e] at h
  exact ⟨x, y, z, h⟩

theorem State.faultStruck_ras (s : State) : ∃ x y z, (s.faultStruck).ras = { s.ras with smbus := x, unacked := y, pldm := z } := by
  have one : ∀ (u : State) a b c, ∃ x y z, ((u.bump Reg.Ras.RECOVERY_RESTARTS).log 0x0F 1 0 a b 0 c).ras = { u.ras with smbus := x, unacked := y, pldm := z } :=
    fun u a b c => State.log_ras (u.bump Reg.Ras.RECOVERY_RESTARTS) _ _ _ _ _ _ _
  have f : ∀ (l : List Nat) (u : State) (k : State → Nat → State), (∀ v a, ∃ x y z, (k v a).ras = { v.ras with smbus := x, unacked := y, pldm := z }) →
      ∃ x y z, (l.foldl k u).ras = { u.ras with smbus := x, unacked := y, pldm := z } := by
    intro l
    induction l with
    | nil => intro u k _; exact ⟨_, _, _, rfl⟩
    | cons x t ih =>
      intro u k hk
      obtain ⟨a, b, c, h⟩ := hk u x
      obtain ⟨a2, b2, c2, h2⟩ := ih (k u x) k hk
      rw [h] at h2
      exact ⟨a2, b2, c2, h2⟩
  unfold State.faultStruck
  simp only
  split
  · exact f _ _ _ (fun v a => one v _ _ _)
  · generalize hu : List.foldl (fun s k => (s.bump Reg.Ras.RECOVERY_RESTARTS).log 0x0F 1 0 1 (64 * k + s.fld (Reg.Stack.COPY_PC k)) 0 (if isKstack k then 3 else 1)) s
      (List.filter (fun k => s.flag (Reg.Stack.COPY_ACTIVE k)) (List.range 12)) = u
    obtain ⟨a, b, c, h⟩ := one u 13 0 0
    obtain ⟨a2, b2, c2, h2⟩ := f ((List.range 12).filter (fun k => s.flag (Reg.Stack.COPY_ACTIVE k))) s
      (fun s k => (s.bump Reg.Ras.RECOVERY_RESTARTS).log 0x0F 1 0 1 (64 * k + s.fld (Reg.Stack.COPY_PC k)) 0 (if isKstack k then 3 else 1)) (fun v a => one v _ _ _)
    rw [hu] at h2
    rw [h2] at h
    exact ⟨a, b, c, h⟩

end Sys2Proof.Machine
end

