-- ==== Sys2Proof/Laws/KeepCoherenceRows.lean ====
section
/-! SUPPORT. What the operations of Machine/CoherenceRows.lean may touch. -/

namespace Sys2Proof.Machine

open Sys2Proof

theorem execRdShared_agree {L s0 agent txn line dom dirErr s t} (he : execRdShared agent txn line dom dirErr s = .next t) (hL : [.freshCount, .regs, .linkOut, .mem, .pages, .ras, .flash, .link, .nb] ⊆ L) (h : Agree L s0 s) : Agree L s0 t := by
  unfold execRdShared at he
  refine node_agree he (fun u hu => ?_) h
  show Agree L s0 _
  refine State.request_agree (sub hL (by decide)) ?_
  exact hu

theorem execRdOwn_agree {L s0 agent txn line dom dirErr s t} (he : execRdOwn agent txn line dom dirErr s = .next t) (hL : [.freshCount, .regs, .linkOut, .mem, .pages, .ras, .flash, .link, .nb] ⊆ L) (h : Agree L s0 s) : Agree L s0 t := by
  unfold execRdOwn at he
  refine node_agree he (fun u hu => ?_) h
  show Agree L s0 _
  refine State.request_agree (sub hL (by decide)) ?_
  exact hu

theorem execRdOnce_agree {L s0 agent txn line dom s t} (he : execRdOnce agent txn line dom s = .next t) (hL : [.freshCount, .regs, .linkOut, .mem, .pages, .ras, .flash, .link, .nb] ⊆ L) (h : Agree L s0 s) : Agree L s0 t := by
  unfold execRdOnce at he
  refine node_agree he (fun u hu => ?_) h
  show Agree L s0 _
  refine State.request_agree (sub hL (by decide)) ?_
  exact hu

theorem execWrInv_agree {L s0 agent txn line dom data s t} (he : execWrInv agent txn line dom data s = .next t) (hL : [.freshCount, .regs, .linkOut, .mem, .pages, .ras, .flash, .link, .nb] ⊆ L) (h : Agree L s0 s) : Agree L s0 t := by
  unfold execWrInv at he
  refine node_agree he (fun u hu => ?_) h
  show Agree L s0 _
  refine State.request_agree (sub hL (by decide)) ?_
  exact hu

theorem execWrPtl_agree {L s0 agent txn line dom mask data s t} (he : execWrPtl agent txn line dom mask data s = .next t) (hL : [.freshCount, .regs, .linkOut, .mem, .pages, .ras, .flash, .link, .nb] ⊆ L) (h : Agree L s0 s) : Agree L s0 t := by
  unfold execWrPtl at he
  refine node_agree he (fun u hu => ?_) h
  show Agree L s0 _
  refine State.request_agree (sub hL (by decide)) ?_
  exact hu

theorem execWrBack_agree {L s0 agent txn line dom data poison s t} (he : execWrBack agent txn line dom data poison s = .next t) (hL : [.freshCount, .regs, .linkOut, .mem, .pages, .ras, .flash, .link, .nb] ⊆ L) (h : Agree L s0 s) : Agree L s0 t := by
  unfold execWrBack at he
  refine node_agree he (fun u hu => ?_) h
  show Agree L s0 _
  refine State.request_agree (sub hL (by decide)) ?_
  exact hu

theorem execEvict_agree {L s0 agent txn line dom s t} (he : execEvict agent txn line dom s = .next t) (hL : [.freshCount, .regs, .linkOut, .mem, .pages, .ras, .flash, .link, .nb] ⊆ L) (h : Agree L s0 s) : Agree L s0 t := by
  unfold execEvict at he
  refine node_agree he (fun u hu => ?_) h
  show Agree L s0 _
  refine State.request_agree (sub hL (by decide)) ?_
  exact hu

theorem execWrHint_agree {L s0 agent txn line dom target data s t} (he : execWrHint agent txn line dom target data s = .next t) (hL : [.freshCount, .regs, .linkOut, .mem, .pages, .ras, .flash, .link, .nb] ⊆ L) (h : Agree L s0 s) : Agree L s0 t := by
  unfold execWrHint at he
  refine node_agree he (fun u hu => ?_) h
  show Agree L s0 _
  refine State.request_agree (sub hL (by decide)) ?_
  exact hu

theorem execRspI_agree {L s0 agent line attempt s t} (he : execRspI agent line attempt s = .next t) (hL : [.freshCount, .regs, .linkOut, .mem, .pages, .ras, .flash, .link, .nb] ⊆ L) (h : Agree L s0 s) : Agree L s0 t := by
  unfold execRspI at he
  refine node_agree he (fun u hu => ?_) h
  show Agree L s0 _
  refine State.rspI_agree (sub hL (by decide)) ?_
  exact hu

theorem execRspS_agree {L s0 agent line attempt s t} (he : execRspS agent line attempt s = .next t) (hL : [.freshCount, .regs, .linkOut, .mem, .pages, .ras, .flash, .link, .nb] ⊆ L) (h : Agree L s0 s) : Agree L s0 t := by
  unfold execRspS at he
  refine node_agree he (fun u hu => ?_) h
  show Agree L s0 _
  refine State.rspS_agree (sub hL (by decide)) ?_
  exact hu

theorem execRspFwd_agree {L s0 agent line attempt data poison s t} (he : execRspFwd agent line attempt data poison s = .next t) (hL : [.freshCount, .regs, .linkOut, .mem, .pages, .ras, .flash, .link, .nb] ⊆ L) (h : Agree L s0 s) : Agree L s0 t := by
  unfold execRspFwd at he
  refine node_agree he (fun u hu => ?_) h
  show Agree L s0 _
  refine State.rspFwd_agree (sub hL (by decide)) ?_
  exact hu

theorem execRspDirty_agree {L s0 agent line attempt data poison s t} (he : execRspDirty agent line attempt data poison s = .next t) (hL : [.freshCount, .regs, .linkOut, .mem, .pages, .ras, .flash, .link, .nb] ⊆ L) (h : Agree L s0 s) : Agree L s0 t := by
  unfold execRspDirty at he
  refine node_agree he (fun u hu => ?_) h
  show Agree L s0 _
  refine State.rspDirty_agree (sub hL (by decide)) ?_
  exact hu

theorem execRspDecline_agree {L s0 agent line attempt s t} (he : execRspDecline agent line attempt s = .next t) (hL : [.freshCount, .regs, .linkOut, .mem, .pages, .ras, .flash, .link, .nb] ⊆ L) (h : Agree L s0 s) : Agree L s0 t := by
  unfold execRspDecline at he
  refine node_agree he (fun u hu => ?_) h
  show Agree L s0 _
  refine State.rspDecline_agree (sub hL (by decide)) ?_
  exact hu

theorem execSnoopLate_agree {L s0 agent line s t} (he : execSnoopLate agent line s = .next t) (hL : [.freshCount, .regs, .linkOut, .mem, .pages, .ras, .flash, .link, .nb] ⊆ L) (h : Agree L s0 s) : Agree L s0 t := by
  unfold execSnoopLate at he
  refine node_agree he (fun u hu => ?_) h
  show Agree L s0 _
  refine State.snoopLate_agree (sub hL (by decide)) ?_
  exact hu

theorem execAgentKill_agree {L s0 agent dom target s t} (he : execAgentKill agent dom target s = .next t) (hL : [.freshCount, .regs, .latches, .heldMsgs, .linkOut, .mem, .pages, .ras, .flash, .link, .nb] ⊆ L) (h : Agree L s0 s) : Agree L s0 t := by
  unfold execAgentKill at he
  refine node_agree he (fun u hu => ?_) h
  show Agree L s0 _
  refine State.regMessage_agree (sub hL (by decide)) ?_
  exact hu

theorem execAgentRevive_agree {L s0 agent dom target s t} (he : execAgentRevive agent dom target s = .next t) (hL : [.freshCount, .regs, .latches, .heldMsgs, .linkOut, .mem, .pages, .ras, .flash, .link, .nb] ⊆ L) (h : Agree L s0 s) : Agree L s0 t := by
  unfold execAgentRevive at he
  refine node_agree he (fun u hu => ?_) h
  show Agree L s0 _
  refine State.regMessage_agree (sub hL (by decide)) ?_
  exact hu

theorem execReclaimWalkEnd_agree {L s0 s t} (he : execReclaimWalkEnd s = .next t) (hL : [.regs, .mem, .ras, .link] ⊆ L) (h : Agree L s0 s) : Agree L s0 t := by
  unfold execReclaimWalkEnd at he
  refine node_agree he (fun u hu => ?_) h
  show Agree L s0 _
  refine State.walkEnd_agree (sub hL (by decide)) ?_
  exact hu

theorem execRingWatchRead_agree {L s0 dom ring s t} (he : execRingWatchRead dom ring s = .next t) (hL : [.freshCount, .regs, .linkOut, .mem, .rings, .sched, .colls, .parts, .pages, .ras, .fabric, .flash, .link, .emb, .nb] ⊆ L) (h : Agree L s0 s) : Agree L s0 t := by
  unfold execRingWatchRead at he
  refine node_agree he (fun u hu => ?_) h
  show Agree L s0 _
  refine State.ringWatch_agree (sub hL (by decide)) ?_
  exact hu

theorem execLinkTraining_agree {L s0 s t} (he : execLinkTraining s = .next t) (hL : [.regs] ⊆ L) (h : Agree L s0 s) : Agree L s0 t := by
  unfold execLinkTraining at he
  refine node_agree he (fun u hu => ?_) h
  show Agree L s0 _
  refine State.linkTraining_agree (sub hL (by decide)) ?_
  exact hu

theorem execLinkTrained_agree {L s0 wide s t} (he : execLinkTrained wide s = .next t) (hL : [.regs, .linkOut, .link] ⊆ L) (h : Agree L s0 s) : Agree L s0 t := by
  unfold execLinkTrained at he
  refine node_agree he (fun u hu => ?_) h
  show Agree L s0 _
  refine State.linkTrained_agree (sub hL (by decide)) ?_
  exact hu

theorem execRetrainTimeout_agree {L s0 s t} (he : execRetrainTimeout s = .next t) (hL : [.freshCount, .regs, .linkOut, .mem, .pages, .ras, .flash, .link, .nb] ⊆ L) (h : Agree L s0 s) : Agree L s0 t := by
  unfold execRetrainTimeout at he
  refine node_agree he (fun u hu => ?_) h
  show Agree L s0 _
  refine State.retrainTimeout_agree (sub hL (by decide)) ?_
  exact hu

theorem execPartnerLoss_agree {L s0 s t} (he : execPartnerLoss s = .next t) (hL : [.freshCount, .regs, .linkOut, .mem, .pages, .ras, .flash, .link, .nb] ⊆ L) (h : Agree L s0 s) : Agree L s0 t := by
  unfold execPartnerLoss at he
  refine node_agree he (fun u hu => ?_) h
  show Agree L s0 _
  refine State.partnerLoss_agree (sub hL (by decide)) ?_
  exact hu

theorem execFlitReplay_agree {L s0 s t} (he : execFlitReplay s = .next t) (hL : [.regs] ⊆ L) (h : Agree L s0 s) : Agree L s0 t := by
  unfold execFlitReplay at he
  refine node_agree he (fun u hu => ?_) h
  show Agree L s0 _
  refine State.flitReplay_agree (sub hL (by decide)) ?_
  exact hu

theorem execLaneFault_agree {L s0 lane s t} (he : execLaneFault lane s = .next t) (hL : [.freshCount, .regs, .linkOut, .mem, .pages, .ras, .flash, .link, .nb] ⊆ L) (h : Agree L s0 s) : Agree L s0 t := by
  unfold execLaneFault at he
  refine node_agree he (fun u hu => ?_) h
  show Agree L s0 _
  refine State.laneFault_agree (sub hL (by decide)) ?_
  exact hu

end Sys2Proof.Machine
end

