-- ==== Sys2Proof/Laws/Agents.lean ====
section
/-! SUPPORT. Deaths of agents where nothing is in flight (R375, R376). -/

namespace Sys2Proof.Machine

open Sys2Proof

/-- Nothing of the directory waits: no request, and no snoop in flight (R361, R365). -/
theorem State.drive_idle (s : State) (h : s.link.waiting = []) : s.drive = s := by
  unfold State.drive
  rw [h]
  simp only [List.length_nil]
  unfold State.drive.go
  simp only [h, State.drivePass, List.length_nil, Nat.lt_irrefl, if_false]

theorem State.kill_idle {s : State} {a : Nat} (hw : s.link.waiting = []) (hd : ∀ x ∈ s.link.dir, x.2.snoops = []) (h3 : 3 ≤ a) (h128 : a < 128) (hc : s.classOf a ≠ 0)
    (hs : s.fld (Reg.Agent.STATE a) = 1 ∨ s.fld (Reg.Agent.STATE a) = 2) :
    s.kill a = ((s.setFld (Reg.Agent.STATE a) 2).setFld Reg.Link.RECLAIM_ACTIVE 1).setLink { s.link with walk := insNat s.link.walk a, walkLogged := 0 } := by
  unfold State.kill
  simp only
  rw [if_neg (by simp [hc, hs]; omega)]
  have hb : (s.link.dir.filter (fun x => x.2.snoops.any (fun y => y.agent = a))) = [] := by
    rw [List.filter_eq_nil_iff]
    intro x hx
    rw [hd x hx]
    simp
  generalize hu : ((s.setFld (Reg.Agent.STATE a) 2).setFld Reg.Link.RECLAIM_ACTIVE 1) = u
  have ul : u.link = s.link := by rw [← hu]; rfl
  rw [ul, hw, List.filter_nil]
  have e : (u.setLink { s.link with walk := insNat s.link.walk a, walkLogged := 0, waiting := [] }).link.dir = s.link.dir := rfl
  rw [e, hb, List.map_nil, List.foldl_nil, State.drive_idle _ rfl, ← hw]

theorem State.kill_skip {s : State} {a : Nat} (h : s.classOf a = 0 ∨ (s.fld (Reg.Agent.STATE a) ≠ 1 ∧ s.fld (Reg.Agent.STATE a) ≠ 2)) : s.kill a = s := by
  unfold State.kill
  simp only
  rw [if_pos]
  rcases h with h | h <;> simp [h]

/-- The agents of a list die, one by one, where nothing is in flight. -/
theorem State.kills : ∀ (l : List Nat) (s : State), (∀ a ∈ l, 3 ≤ a ∧ a < 128) → s.link.waiting = [] → (∀ x ∈ s.link.dir, x.2.snoops = []) → l.Nodup →
    (∀ a ∈ l, s.classOf a ≠ 0 → s.fld (Reg.Agent.STATE a) = 1 → (l.foldl State.kill s).fld (Reg.Agent.STATE a) = 2 ∧ a ∈ (l.foldl State.kill s).link.walk) ∧
    (∀ g : Fld, g.addr < 0x800048 → (l.foldl State.kill s).fld g = s.fld g) ∧ (∀ a, a ∉ l → (l.foldl State.kill s).fld (Reg.Agent.STATE a) = s.fld (Reg.Agent.STATE a)) ∧
    (∀ a ∈ s.link.walk, a ∈ (l.foldl State.kill s).link.walk) ∧ (l.foldl State.kill s).link.dir = s.link.dir := by
  intro l
  induction l with
  | nil => intro s _ _ _ _; exact ⟨fun a h => by simp at h, fun _ _ => rfl, fun _ _ => rfl, fun _ h => h, rfl⟩
  | cons a t ih =>
    intro s hl hw hd hn
    obtain ⟨h3, h128⟩ := hl a List.mem_cons_self
    obtain ⟨hnt, hn2⟩ := List.nodup_cons.mp hn
    have hl2 : ∀ b ∈ t, 3 ≤ b ∧ b < 128 := fun b hb => hl b (List.mem_cons_of_mem _ hb)
    have sa : ∀ i, (Reg.Agent.STATE i).addr = 0x800400 + 8 * i := fun _ => rfl
    have ca : ∀ i, (Reg.Agent.CLASS i).addr = 0x800400 + 8 * i := fun _ => rfl
    have ra : Reg.Link.RECLAIM_ACTIVE.addr = 0x800048 := rfl
    have wl : (Reg.Agent.STATE a).lo + (Reg.Agent.STATE a).width ≤ 32 := Nat.le_of_ble_eq_true rfl
    -- what one death leaves
    have one : (s.kill a).link.waiting = [] ∧ (s.kill a).link.dir = s.link.dir ∧ (∀ b, (s.kill a).classOf b = s.classOf b) ∧
        (∀ b, b ≠ a → (s.kill a).fld (Reg.Agent.STATE b) = s.fld (Reg.Agent.STATE b)) ∧ (∀ g : Fld, g.addr < 0x800048 → (s.kill a).fld g = s.fld g) ∧
        (∀ b ∈ s.link.walk, b ∈ (s.kill a).link.walk) ∧ (s.classOf a ≠ 0 → s.fld (Reg.Agent.STATE a) = 1 → (s.kill a).fld (Reg.Agent.STATE a) = 2 ∧ a ∈ (s.kill a).link.walk) := by
      by_cases hk : s.classOf a ≠ 0 ∧ (s.fld (Reg.Agent.STATE a) = 1 ∨ s.fld (Reg.Agent.STATE a) = 2)
      · rw [State.kill_idle hw hd h3 h128 hk.1 hk.2]
        have kl : ∀ (u : State) p (g : Fld), (u.setLink p).fld g = u.fld g := fun _ _ _ => rfl
        refine ⟨hw, rfl, ?_, ?_, ?_, ?_, ?_⟩
        · intro b
          unfold State.classOf
          rw [kl, State.fld_setFld_addr _ _ (by rw [ra, ca]; omega)]
          exact State.fld_setFld_bits _ _ wl (Or.inl (Nat.le_of_ble_eq_true rfl))
        · intro b hb
          rw [kl, State.fld_setFld_addr _ _ (by rw [ra, sa]; omega), State.fld_setFld_addr _ _ (by rw [sa, sa]; omega)]
        · intro g hg
          rw [kl, State.fld_setFld_addr _ _ (by rw [ra]; omega), State.fld_setFld_addr _ _ (by rw [sa]; omega)]
        · intro b hb
          show b ∈ insNat s.link.walk a
          generalize s.link.walk = w at hb
          induction w with
          | nil => cases hb
          | cons x r ih2 =>
            unfold insNat
            split
            · exact List.mem_cons_of_mem _ hb
            · split
              · exact hb
              · rcases List.mem_cons.mp hb with hb | hb
                · rw [hb]; exact List.mem_cons_self
                · exact List.mem_cons_of_mem _ (ih2 hb)
        · intro _ _
          refine ⟨?_, mem_insNat_self _ _⟩
          rw [kl, State.fld_setFld_addr _ _ (by rw [ra, sa]; omega), State.fld_setFld_same _ _ _ wl]
          rfl
      · rw [State.kill_skip (by
          by_cases h0 : s.classOf a = 0
          · exact Or.inl h0
          · right
            constructor <;> intro h1 <;> exact hk ⟨h0, by simp [h1]⟩)]
        exact ⟨hw, rfl, fun _ => rfl, fun _ _ => rfl, fun _ _ => rfl, fun _ h => h, fun h0 h1 => absurd ⟨h0, Or.inl h1⟩ hk⟩
    obtain ⟨o1, o2, o3, o4, o5, o6, o7⟩ := one
    obtain ⟨i1, i2, i3, i4, i5⟩ := ih (s.kill a) hl2 o1 (by rw [o2]; exact hd) hn2
    rw [List.foldl_cons]
    refine ⟨?_, ?_, ?_, ?_, ?_⟩
    · intro b hb hc hst
      by_cases hba : b = a
      · subst hba
        rw [i3 _ hnt]
        exact ⟨(o7 hc hst).1, i4 _ (o7 hc hst).2⟩
      · have hbt : b ∈ t := by
          rcases List.mem_cons.mp hb with h | h
          · exact absurd h hba
          · exact h
        exact i1 b hbt (by rw [o3]; exact hc) (by rw [o4 _ hba]; exact hst)
    · intro g hg
      rw [i2 g hg, o5 g hg]
    · intro b hb
      have := not_or.mp (fun h => hb (List.mem_cons.mpr h))
      rw [i3 b this.2, o4 b this.1]
    · intro b hb
      exact i4 b (o6 b hb)
    · rw [i5, o2]

/-- The agents behind the link die. -/
theorem State.killBehind_spec {s : State} (hw : s.link.waiting = []) (hd : ∀ x ∈ s.link.dir, x.2.snoops = []) :
    (∀ a, 3 ≤ a → a < 128 → s.classOf a ≠ 0 → s.fld (Reg.Agent.STATE a) = 1 → s.killBehind.fld (Reg.Agent.STATE a) = 2 ∧ a ∈ s.killBehind.link.walk) ∧
    (∀ g : Fld, g.addr < 0x800048 → s.killBehind.fld g = s.fld g) := by
  have e : s.killBehind = ((List.range 125).map (fun i => i + 3)).foldl State.kill s := by
    unfold State.killBehind
    rw [List.foldl_map]
  have hn : ((List.range 125).map (fun i => i + 3)).Nodup := by
    refine List.Nodup.map ?_ List.nodup_range
    intro x y hxy
    simpa using hxy
  obtain ⟨a1, a2, -⟩ := State.kills ((List.range 125).map (fun i => i + 3)) s (by
    intro a ha
    obtain ⟨i, hi, rfl⟩ := List.mem_map.mp ha
    have := List.mem_range.mp hi
    omega) hw hd hn
  rw [e]
  refine ⟨fun a h3 h128 hc hs => a1 a (List.mem_map.mpr ⟨a - 3, List.mem_range.mpr (by omega), by omega⟩) hc hs, a2⟩

end Sys2Proof.Machine
end

