-- ==== Sys2Proof/Laws/Boundary.lean ====
section
/-! SUPPORT. What boundary work keeps and does. -/

namespace Sys2Proof.Machine

open Sys2Proof

/-- Dooming touches no slice. -/
theorem State.doomJob_slices (s : State) (id : Nat) (st : Status) : (s.doomJob id st).sched.slices = s.sched.slices := by
  unfold State.doomJob; split <;> rfl

theorem State.doomJob_overruns (s : State) (id : Nat) (st : Status) : (s.doomJob id st).sched.overruns = s.sched.overruns := by
  unfold State.doomJob; split <;> rfl

theorem State.doomJobs_slices (l : List Nat) (st : Status) : ∀ s : State, (l.foldl (fun s j => s.doomJob j st) s).sched.slices = s.sched.slices ∧
    (l.foldl (fun s j => s.doomJob j st) s).sched.overruns = s.sched.overruns := by
  induction l with
  | nil => exact fun s => ⟨rfl, rfl⟩
  | cons a t ih =>
    intro s
    rw [List.foldl_cons, (ih _).1, (ih _).2, State.doomJob_slices, State.doomJob_overruns]
    exact ⟨rfl, rfl⟩

/-- An overrun slice is stopped and noted (R35, R37). -/
theorem State.overrunSlice_spec (s : State) (x : Slice) :
    (∀ y ∈ (s.overrunSlice x).sched.slices, y.id ≠ x.id) ∧
      (64 * sourceKind x.engine + x.idx, s.now) ∈ (s.overrunSlice x).sched.overruns := by
  unfold State.overrunSlice
  simp only
  have hs : ∀ u v : State, (State.checkOverruns (u.dropStaged x.pages) x.engine x.idx).sched = u.sched := fun u v =>
    (State.checkOverruns_agree (L := [.regs, .ras, .flash]) (by decide) (State.dropStaged_agree (by decide) (Agree.refl _ u))).sched_eq (by decide)
  rw [hs _ s, (State.doomJobs_slices _ _ _).1, (State.doomJobs_slices _ _ _).2]
  have hl : ∀ (u : State) a b c d e f g, ((State.countOverrun u x.engine x.idx).log a b c d e f g).sched = u.sched := fun u a b c d e f g =>
    (State.log_agree (L := [.regs, .ras]) (by decide) (State.countOverrun_agree (by decide) (Agree.refl _ u))).sched_eq (by decide)
  simp only [hl]
  have ht : ∀ (u : State) a b c d e f g, ((State.countOverrun u x.engine x.idx).log a b c d e f g).time = u.time := fun u a b c d e f g =>
    (State.log_agree (L := [.regs, .ras]) (by decide) (State.countOverrun_agree (by decide) (Agree.refl _ u))).time_eq (by decide)
  have hn : (s.stopNb x.kind).time = s.time := (State.stopNb_agree (fun _ h => h) (Agree.refl _ s)).time_eq (by decide)
  refine ⟨?_, ?_⟩
  · intro y hy
    have := (List.mem_filter.mp hy).2
    simpa using this
  · apply List.mem_append_right
    unfold State.now
    rw [ht, hn]
    exact List.mem_singleton.mpr rfl

theorem awlEngine_source {e : Engine} {i b : Nat} (he : e ≠ .nbIssue) (hi : i < engineCount e) (h : sourceBlock (sourceKind e) i = some b) :
    awlEngine b = some (e, i) := by
  cases e <;> simp [sourceKind, sourceBlock, engineCount] at * <;> (obtain ⟨h1, rfl⟩ := h) <;> unfold awlEngine <;>
    (repeat' (split <;> try omega)) <;> simp <;> omega

theorem State.blockState_set (s : State) {e : Engine} {i v : Nat} (he : e ≠ .nbIssue) (hw : s.ras.wedged.contains (sourceKind e, i) = false)
    (hv : v < 4) : (s.setBlockState e i v).blockState e i = v := by
  cases e with
  | nbIssue => exact absurd rfl he
  | matrix =>
    unfold State.blockState State.setBlockState
    rw [if_neg (by simpa using hw)]
    exact (State.fld_setFld_same _ _ _ (by simp [Reg.Core.STATE])).trans (Nat.mod_eq_of_lt hv)
  | vector =>
    unfold State.blockState State.setBlockState
    rw [if_neg (by simpa using hw)]
    exact (State.fld_setFld_same _ _ _ (by simp [Reg.Core.STATE])).trans (Nat.mod_eq_of_lt hv)
  | tile =>
    unfold State.blockState State.setBlockState
    rw [if_neg (by simpa using hw)]
    exact (State.fld_setFld_same _ _ _ (by simp [Reg.Tile.STATE])).trans (Nat.mod_eq_of_lt hv)
  | sorter =>
    unfold State.blockState State.setBlockState
    rw [if_neg (by simpa using hw)]
    exact (State.fld_setFld_same _ _ _ (by simp [Reg.Sorter.STATE])).trans (Nat.mod_eq_of_lt hv)

/-- The first boundary keeps the epoch and the phase. -/
theorem State.actions_time (s : State) : s.actions.time.epoch = s.time.epoch ∧ s.actions.time.phase = s.time.phase ∧
    s.actions.time.firstCommit = true ∧ s.actions.time.stitchLen = s.time.stitchLen := by
  unfold State.actions
  simp only
  have h1 : ∀ u : State, (((u.versionSwaps (fun _ => true)).layoutSwaps (fun _ => true)).embSwaps (fun _ => true)).time = u.time := by
    intro u
    exact (State.embSwaps_agree (L := [.freshCount, .regs, .linkOut, .mem, .rings, .sched, .colls, .parts, .pages, .ras, .fabric, .flash, .link, .attn, .emb, .nb])
      (by decide) (State.layoutSwaps_agree (by decide) (State.versionSwaps_agree (by decide) (Agree.refl _ u)))).time_eq (by decide)
  have h2 : ∀ u : State, ((u.closeSteps (fun _ => true)).gateRestart).time = u.time := by
    intro u
    exact (State.gateRestart_agree (L := [.freshCount, .regs, .linkOut, .mem, .rings, .sched, .colls, .parts, .pages, .ras, .fabric, .flash, .link, .attn, .emb, .nb])
      (by decide) (State.closeSteps_agree (by decide) (Agree.refl _ u))).time_eq (by decide)
  have h3 : ((s.activateMap.releaseAt).commits).time = s.time := by
    exact (State.commits_agree (L := [.freshCount, .regs, .linkOut, .mem, .rings, .sched, .colls, .parts, .pages, .ras, .boot, .fabric, .flash, .link, .attn, .emb, .nb])
      (by decide) (State.releaseAt_agree (by decide) (State.activateMap_agree (by decide) (Agree.refl _ s)))).time_eq (by decide)
  rw [h2, h1]
  have h4 : ∀ u : State, (u.firstBoundary).time = { u.time with firstCommit := true } := by
    intro u
    unfold State.firstBoundary
    simp only
    split
    · exact (State.enterTrain_agree (fun _ h => h) (Agree.refl _ _)).time_eq (by decide)
    · rfl
  rw [h4, h3]
  exact ⟨rfl, rfl, rfl, rfl⟩

/-- A new epoch: one more, at phase 0. -/
theorem State.newEpoch_time (s : State) (c : Int) : (s.newEpoch c).time = { s.time with epoch := s.time.epoch + 1, phase := 0, stitchLen := s.nextLen c } := by
  unfold State.newEpoch
  simp only
  split <;> rfl

end Sys2Proof.Machine
end

