-- ==== Sys2Proof/Laws/KeepFabricRows.lean ====
section
/-! SUPPORT. What the operations of Machine/FabricRows.lean may touch. -/

namespace Sys2Proof.Machine

open Sys2Proof

theorem execPortTraining_agree {L s0 port s t} (he : execPortTraining port s = .next t) (hL : [.regs, .fabric] ⊆ L) (h : Agree L s0 s) : Agree L s0 t := by
  unfold execPortTraining at he
  refine node_agree he (fun u hu => ?_) h
  show Agree L s0 _
  refine State.portTraining_agree (sub hL (by decide)) ?_
  exact hu

theorem execPortUp_agree {L s0 port s t} (he : execPortUp port s = .next t) (hL : [.regs, .fabric] ⊆ L) (h : Agree L s0 s) : Agree L s0 t := by
  unfold execPortUp at he
  refine node_agree he (fun u hu => ?_) h
  show Agree L s0 _
  refine State.portUp_agree (sub hL (by decide)) ?_
  exact hu

theorem execPortDown_agree {L s0 port s t} (he : execPortDown port s = .next t) (hL : [.regs, .fabric] ⊆ L) (h : Agree L s0 s) : Agree L s0 t := by
  unfold execPortDown at he
  refine node_agree he (fun u hu => ?_) h
  show Agree L s0 _
  refine State.portDown_agree (sub hL (by decide)) ?_
  exact hu

theorem execFabricLaneFault_agree {L s0 port lane s t} (he : execFabricLaneFault port lane s = .next t) (hL : [.regs, .ras, .fabric] ⊆ L) (h : Agree L s0 s) : Agree L s0 t := by
  unfold execFabricLaneFault at he
  refine node_agree he (fun u hu => ?_) h
  show Agree L s0 _
  refine State.portFault_agree (sub hL (by decide)) ?_
  exact hu

theorem execDataFrame_agree {L s0 port f s t} (he : execDataFrame port f s = .next t) (hL : [.regs, .fabric] ⊆ L) (h : Agree L s0 s) : Agree L s0 t := by
  unfold execDataFrame at he
  refine node_agree he (fun u hu => ?_) h
  show Agree L s0 _
  refine State.dataFrame_agree (sub hL (by decide)) ?_
  exact hu

theorem execAcknowledgement_agree {L s0 dst queue msgNo idx s t} (he : execAcknowledgement dst queue msgNo idx s = .next t) (hL : [.regs, .linkOut, .mem, .rings, .sched, .pages, .ras, .fabric, .flash, .link, .nb] ⊆ L) (h : Agree L s0 s) : Agree L s0 t := by
  unfold execAcknowledgement at he
  refine node_agree he (fun u hu => ?_) h
  show Agree L s0 _
  refine State.acked_agree (sub hL (by decide)) ?_
  exact hu

theorem execRetx_agree {L s0 dst queue msgNo idx s t} (he : execRetx dst queue msgNo idx s = .next t) (hL : [.regs, .fabric] ⊆ L) (h : Agree L s0 s) : Agree L s0 t := by
  unfold execRetx at he
  refine node_agree he (fun u hu => ?_) h
  show Agree L s0 _
  refine State.resend_agree (sub hL (by decide)) ?_
  exact hu

theorem execEgressSelect_agree {L s0 port t' s t} (he : execEgressSelect port t' s = .next t) (hL : [.regs, .fabric] ⊆ L) (h : Agree L s0 s) : Agree L s0 t := by
  unfold execEgressSelect at he
  refine node_agree he (fun u hu => ?_) h
  show Agree L s0 _
  refine State.egressSelect_agree (sub hL (by decide)) ?_
  exact hu

theorem execGateEntry_agree {L s0 port t' s t} (he : execGateEntry port t' s = .next t) (hL : [.regs, .fabric] ⊆ L) (h : Agree L s0 s) : Agree L s0 t := by
  unfold execGateEntry at he
  refine node_agree he (fun u hu => ?_) h
  show Agree L s0 _
  refine State.gateEntry_agree (sub hL (by decide)) ?_
  exact hu

theorem execGuardBand_agree {L s0 port queue t' s t} (he : execGuardBand port queue t' s = .next t) (hL : [.regs, .fabric] ⊆ L) (h : Agree L s0 s) : Agree L s0 t := by
  unfold execGuardBand at he
  refine node_agree he (fun u hu => ?_) h
  show Agree L s0 _
  refine State.guardBand_agree (sub hL (by decide)) ?_
  exact hu

theorem execTimeMessage_agree {L s0 port t' bytes s t} (he : execTimeMessage port t' bytes s = .next t) (hL : [.fabric] ⊆ L) (h : Agree L s0 s) : Agree L s0 t := by
  unfold execTimeMessage at he
  refine node_agree he (fun u hu => ?_) h
  show Agree L s0 _
  refine State.timeMessage_agree (sub hL (by decide)) ?_
  exact hu

theorem execJoinReq_agree {L s0 s t} (he : execJoinReq s = .next t) (hL : [.fabric] ⊆ L) (h : Agree L s0 s) : Agree L s0 t := by
  unfold execJoinReq at he
  refine node_agree he (fun u hu => ?_) h
  show Agree L s0 _
  refine State.joinReq_agree (sub hL (by decide)) ?_
  exact hu

theorem execAssign_agree {L s0 addr comp join s t} (he : execAssign addr comp join s = .next t) (hL : [.regs, .fabric] ⊆ L) (h : Agree L s0 s) : Agree L s0 t := by
  unfold execAssign at he
  refine node_agree he (fun u hu => ?_) h
  show Agree L s0 _
  refine State.assign_agree (sub hL (by decide)) ?_
  exact hu

theorem execRefuseJoin_agree {L s0 code s t} (he : execRefuseJoin code s = .next t) (hL : [.regs, .ras, .fabric] ⊆ L) (h : Agree L s0 s) : Agree L s0 t := by
  unfold execRefuseJoin at he
  refine node_agree he (fun u hu => ?_) h
  show Agree L s0 _
  refine State.refuseJoin_agree (sub hL (by decide)) ?_
  exact hu

theorem execJoinEpoch_agree {L s0 s t} (he : execJoinEpoch s = .next t) (hL : [.freshCount, .time, .regs, .linkOut, .mem, .rings, .sched, .colls, .pages, .ras, .fabric, .flash, .link, .emb, .nb] ⊆ L) (h : Agree L s0 s) : Agree L s0 t := by
  unfold execJoinEpoch at he
  refine node_agree he (fun u hu => ?_) h
  show Agree L s0 _
  refine State.joinEpoch_agree (sub hL (by decide)) ?_
  exact hu

theorem execDeclareFailed_agree {L s0 failed _epoch s t} (he : execDeclareFailed failed _epoch s = .next t) (hL : [.regs, .linkOut, .mem, .rings, .sched, .pages, .ras, .fabric, .flash, .link, .emb, .nb] ⊆ L) (h : Agree L s0 s) : Agree L s0 t := by
  unfold execDeclareFailed at he
  refine node_agree he (fun u hu => ?_) h
  show Agree L s0 _
  refine State.declareFailed_agree (sub hL (by decide)) ?_
  exact hu

theorem execMapWrite_agree {L s0 offset data s t} (he : execMapWrite offset data s = .next t) (hL : [.mem, .fabric] ⊆ L) (h : Agree L s0 s) : Agree L s0 t := by
  unfold execMapWrite at he
  refine node_agree he (fun u hu => ?_) h
  show Agree L s0 _
  refine State.mapWrite_agree (sub hL (by decide)) ?_
  exact hu

theorem execMapActivate_agree {L s0 epoch s t} (he : execMapActivate epoch s = .next t) (hL : [.regs, .mem, .fabric] ⊆ L) (h : Agree L s0 s) : Agree L s0 t := by
  unfold execMapActivate at he
  refine node_agree he (fun u hu => ?_) h
  show Agree L s0 _
  refine State.mapActivate_agree (sub hL (by decide)) ?_
  exact hu

theorem execMapActivation_agree {L s0 s t} (he : execMapActivation s = .next t) (hL : [.regs, .fabric] ⊆ L) (h : Agree L s0 s) : Agree L s0 t := by
  unfold execMapActivation at he
  refine node_agree he (fun u hu => ?_) h
  show Agree L s0 _
  refine State.atWindow_agree ?_ ?_
  · intro t1_0 h1_0
    show Agree L s0 _
    refine State.activateMap_agree (sub hL (by decide)) ?_
    exact h1_0
  · exact hu

theorem execRebuild_agree {L s0 group member s t} (he : execRebuild group member s = .next t) (hL : [.fabric] ⊆ L) (h : Agree L s0 s) : Agree L s0 t := by
  unfold execRebuild at he
  refine node_agree he (fun u hu => ?_) h
  show Agree L s0 _
  refine State.startRebuild_agree (sub hL (by decide)) ?_
  exact hu

theorem execRebuilt_agree {L s0 s t} (he : execRebuilt s = .next t) (hL : [.fabric] ⊆ L) (h : Agree L s0 s) : Agree L s0 t := by
  unfold execRebuilt at he
  refine node_agree he (fun u hu => ?_) h
  show Agree L s0 _
  refine State.rebuildDone_agree (sub hL (by decide)) ?_
  exact hu

theorem execReconstructionCopy_agree {L s0 src addr units s t} (he : execReconstructionCopy src addr units s = .next t) (hL : [.regs, .linkOut, .mem, .pages, .ras, .fabric, .flash, .link, .nb] ⊆ L) (h : Agree L s0 s) : Agree L s0 t := by
  unfold execReconstructionCopy at he
  refine node_agree he (fun u hu => ?_) h
  show Agree L s0 _
  refine State.fromPeer_agree (sub hL (by decide)) ?_ ?_
  · intro t1_0 h1_0
    show Agree L s0 _
    refine State.copyArrives_agree (sub hL (by decide)) ?_
    exact h1_0
  · exact hu

theorem execJournalTransfer_agree {L s0 src vectors s t} (he : execJournalTransfer src vectors s = .next t) (hL : [.regs, .linkOut, .mem, .pages, .ras, .flash, .link, .nb] ⊆ L) (h : Agree L s0 s) : Agree L s0 t := by
  unfold execJournalTransfer at he
  refine node_agree he (fun u hu => ?_) h
  show Agree L s0 _
  refine State.fromPeer_agree (sub hL (by decide)) ?_ ?_
  · intro t1_0 h1_0
    show Agree L s0 _
    refine State.journalVectors_agree (sub hL (by decide)) ?_
    exact h1_0
  · exact hu

end Sys2Proof.Machine
end

