-- ==== Sys2Proof/Laws/KeepFlashRows.lean ====
section
/-! SUPPORT. What the operations of Machine/FlashRows.lean may touch. -/

namespace Sys2Proof.Machine

open Sys2Proof

theorem execMigration_agree {L s0 s t} (he : execMigration s = .next t) (hL : [.freshCount, .regs, .linkOut, .mem, .pages, .ras, .flash, .link] ⊆ L) (h : Agree L s0 s) : Agree L s0 t := by
  unfold execMigration at he
  refine node_agree he (fun u hu => ?_) h
  show Agree L s0 _
  refine Agree.ite ?_ ?_
  · refine State.migrate_agree (sub hL (by decide)) ?_
    exact hu
  · exact hu

theorem execPageLanded_agree {L s0 page badSectors s t} (he : execPageLanded page badSectors s = .next t) (hL : [.regs, .mem, .pages, .ras, .flash] ⊆ L) (h : Agree L s0 s) : Agree L s0 t := by
  unfold execPageLanded at he
  refine node_agree he (fun u hu => ?_) h
  show Agree L s0 _
  refine State.landPage_agree (sub hL (by decide)) ?_
  exact hu

theorem execWritebackDurable_agree {L s0 page s t} (he : execWritebackDurable page s = .next t) (hL : [.regs, .mem, .pages] ⊆ L) (h : Agree L s0 s) : Agree L s0 t := by
  unfold execWritebackDurable at he
  refine node_agree he (fun u hu => ?_) h
  show Agree L s0 _
  refine State.leaveWriting_agree (sub hL (by decide)) ?_
  exact hu

theorem execWbFlush_agree {L s0 sector s t} (he : execWbFlush sector s = .next t) (hL : [.regs, .linkOut, .mem, .sched, .pages, .ras, .flash, .link, .nb] ⊆ L) (h : Agree L s0 s) : Agree L s0 t := by
  unfold execWbFlush at he
  refine node_agree he (fun u hu => ?_) h
  show Agree L s0 _
  refine State.wbFlush_agree (sub hL (by decide)) ?_
  exact hu

theorem execWillneed_agree {L s0 dom ring s t} (he : execWillneed dom ring s = .next t) (hL : [.freshCount, .regs, .linkOut, .mem, .rings, .sched, .colls, .parts, .pages, .ras, .fabric, .flash, .link, .emb, .nb] ⊆ L) (h : Agree L s0 s) : Agree L s0 t := by
  unfold execWillneed at he
  refine node_agree he (fun u hu => ?_) h
  show Agree L s0 _
  refine State.takeKind_agree (sub hL (by decide)) ?_
  exact hu

theorem execCold_agree {L s0 dom ring s t} (he : execCold dom ring s = .next t) (hL : [.freshCount, .regs, .linkOut, .mem, .rings, .sched, .colls, .parts, .pages, .ras, .fabric, .flash, .link, .emb, .nb] ⊆ L) (h : Agree L s0 s) : Agree L s0 t := by
  unfold execCold at he
  refine node_agree he (fun u hu => ?_) h
  show Agree L s0 _
  refine State.takeKind_agree (sub hL (by decide)) ?_
  exact hu

theorem execPin_agree {L s0 dom ring s t} (he : execPin dom ring s = .next t) (hL : [.freshCount, .regs, .linkOut, .mem, .rings, .sched, .colls, .parts, .pages, .ras, .fabric, .flash, .link, .emb, .nb] ⊆ L) (h : Agree L s0 s) : Agree L s0 t := by
  unfold execPin at he
  refine node_agree he (fun u hu => ?_) h
  show Agree L s0 _
  refine State.takeKind_agree (sub hL (by decide)) ?_
  exact hu

theorem execUnpin_agree {L s0 dom ring s t} (he : execUnpin dom ring s = .next t) (hL : [.freshCount, .regs, .linkOut, .mem, .rings, .sched, .colls, .parts, .pages, .ras, .fabric, .flash, .link, .emb, .nb] ⊆ L) (h : Agree L s0 s) : Agree L s0 t := by
  unfold execUnpin at he
  refine node_agree he (fun u hu => ?_) h
  show Agree L s0 _
  refine State.takeKind_agree (sub hL (by decide)) ?_
  exact hu

theorem execSync_agree {L s0 dom ring s t} (he : execSync dom ring s = .next t) (hL : [.freshCount, .regs, .linkOut, .mem, .rings, .sched, .colls, .parts, .pages, .ras, .fabric, .flash, .link, .emb, .nb] ⊆ L) (h : Agree L s0 s) : Agree L s0 t := by
  unfold execSync at he
  refine node_agree he (fun u hu => ?_) h
  show Agree L s0 _
  refine State.takeKind_agree (sub hL (by decide)) ?_
  exact hu

theorem execDiscard_agree {L s0 dom ring s t} (he : execDiscard dom ring s = .next t) (hL : [.freshCount, .regs, .linkOut, .mem, .rings, .sched, .colls, .parts, .pages, .ras, .fabric, .flash, .link, .emb, .nb] ⊆ L) (h : Agree L s0 s) : Agree L s0 t := by
  unfold execDiscard at he
  refine node_agree he (fun u hu => ?_) h
  show Agree L s0 _
  refine State.takeKind_agree (sub hL (by decide)) ?_
  exact hu

theorem execSetHint_agree {L s0 dom ring s t} (he : execSetHint dom ring s = .next t) (hL : [.freshCount, .regs, .linkOut, .mem, .rings, .sched, .colls, .parts, .pages, .ras, .fabric, .flash, .link, .emb, .nb] ⊆ L) (h : Agree L s0 s) : Agree L s0 t := by
  unfold execSetHint at he
  refine node_agree he (fun u hu => ?_) h
  show Agree L s0 _
  refine State.takeKind_agree (sub hL (by decide)) ?_
  exact hu

theorem execJournalRead_agree {L s0 dom ring s t} (he : execJournalRead dom ring s = .next t) (hL : [.freshCount, .regs, .linkOut, .mem, .rings, .sched, .colls, .parts, .pages, .ras, .fabric, .flash, .link, .emb, .nb] ⊆ L) (h : Agree L s0 s) : Agree L s0 t := by
  unfold execJournalRead at he
  refine node_agree he (fun u hu => ?_) h
  show Agree L s0 _
  refine State.takeOp_agree (sub hL (by decide)) ?_
  exact hu

theorem execJournalFlush_agree {L s0 s t} (he : execJournalFlush s = .next t) (hL : [.flash] ⊆ L) (h : Agree L s0 s) : Agree L s0 t := by
  unfold execJournalFlush at he
  refine node_agree he (fun u hu => ?_) h
  show Agree L s0 _
  refine State.journalFlush_agree (sub hL (by decide)) ?_
  exact hu

theorem execRunDurable_agree {L s0 run sb s t} (he : execRunDurable run sb s = .next t) (hL : [.freshCount, .regs, .linkOut, .mem, .rings, .sched, .pages, .ras, .fabric, .flash, .link, .nb] ⊆ L) (h : Agree L s0 s) : Agree L s0 t := by
  unfold execRunDurable at he
  refine node_agree he (fun u hu => ?_) h
  show Agree L s0 _
  refine State.parityDeltas_agree (sub hL (by decide)) ?_ ?_
  · refine State.runDone_agree (sub hL (by decide)) ?_
    exact hu
  · exact hu

theorem execParityDelta_agree {L s0 src msg s t} (he : execParityDelta src msg s = .next t) (hL : [.regs, .linkOut, .mem, .pages, .ras, .fabric, .flash, .link, .nb] ⊆ L) (h : Agree L s0 s) : Agree L s0 t := by
  unfold execParityDelta at he
  refine node_agree he (fun u hu => ?_) h
  show Agree L s0 _
  refine State.fromPeer_agree (sub hL (by decide)) ?_ ?_
  · intro t1_0 h1_0
    show Agree L s0 _
    refine State.parityDelta_agree (sub hL (by decide)) ?_
    exact h1_0
  · exact hu

theorem execSuperblockVerify_agree {L s0 sb weak rebuilt s t} (he : execSuperblockVerify sb weak rebuilt s = .next t) (hL : [.regs, .fabric, .flash] ⊆ L) (h : Agree L s0 s) : Agree L s0 t := by
  unfold execSuperblockVerify at he
  refine node_agree he (fun u hu => ?_) h
  show Agree L s0 _
  refine State.parityDeltas_agree (sub hL (by decide)) ?_ ?_
  · refine State.verifySb_agree (sub hL (by decide)) ?_
    exact hu
  · exact hu

theorem execGarbageCollection_agree {L s0 shank s t} (he : execGarbageCollection shank s = .next t) (hL : [.freshCount, .regs, .fabric, .flash] ⊆ L) (h : Agree L s0 s) : Agree L s0 t := by
  unfold execGarbageCollection at he
  refine node_agree he (fun u hu => ?_) h
  show Agree L s0 _
  refine State.parityDeltas_agree (sub hL (by decide)) ?_ ?_
  · refine State.garbage_agree (sub hL (by decide)) ?_
    exact hu
  · exact hu

theorem execWearLevelling_agree {L s0 shank s t} (he : execWearLevelling shank s = .next t) (hL : [.regs, .fabric, .flash] ⊆ L) (h : Agree L s0 s) : Agree L s0 t := by
  unfold execWearLevelling at he
  refine node_agree he (fun u hu => ?_) h
  show Agree L s0 _
  refine State.parityDeltas_agree (sub hL (by decide)) ?_ ?_
  · refine State.wear_agree (sub hL (by decide)) ?_
    exact hu
  · exact hu

theorem execReadDisturb_agree {L s0 sb s t} (he : execReadDisturb sb s = .next t) (hL : [.regs, .fabric, .flash] ⊆ L) (h : Agree L s0 s) : Agree L s0 t := by
  unfold execReadDisturb at he
  refine node_agree he (fun u hu => ?_) h
  show Agree L s0 _
  refine State.parityDeltas_agree (sub hL (by decide)) ?_ ?_
  · refine State.readDisturb_agree (sub hL (by decide)) ?_
    exact hu
  · exact hu

theorem execPatrolRead_agree {L s0 sb soft s t} (he : execPatrolRead sb soft s = .next t) (hL : [.regs, .fabric, .flash] ⊆ L) (h : Agree L s0 s) : Agree L s0 t := by
  unfold execPatrolRead at he
  refine node_agree he (fun u hu => ?_) h
  show Agree L s0 _
  refine State.parityDeltas_agree (sub hL (by decide)) ?_ ?_
  · refine State.patrol_agree (sub hL (by decide)) ?_
    exact hu
  · exact hu

theorem execProgramFail_agree {L s0 sb channel erase s t} (he : execProgramFail sb channel erase s = .next t) (hL : [.regs, .fabric] ⊆ L) (h : Agree L s0 s) : Agree L s0 t := by
  unfold execProgramFail at he
  refine node_agree he (fun u hu => ?_) h
  show Agree L s0 _
  refine State.parityDeltas_agree (sub hL (by decide)) ?_ ?_
  · refine State.programFail_agree (sub hL (by decide)) ?_
    exact hu
  · exact hu

theorem execMapRebuild_agree {L s0 sbTotal userGb s t} (he : execMapRebuild sbTotal userGb s = .next t) (hL : [.regs, .boot, .flash] ⊆ L) (h : Agree L s0 s) : Agree L s0 t := by
  unfold execMapRebuild at he
  refine node_agree he (fun u hu => ?_) h
  show Agree L s0 _
  refine State.startScan_agree (sub hL (by decide)) ?_
  exact hu

theorem execSetReady_agree {L s0 set torn bad s t} (he : execSetReady set torn bad s = .next t) (hL : [.regs, .linkOut, .mem, .pages, .ras, .flash, .link, .nb] ⊆ L) (h : Agree L s0 s) : Agree L s0 t := by
  unfold execSetReady at he
  refine node_agree he (fun u hu => ?_) h
  show Agree L s0 _
  refine State.setReady_agree (sub hL (by decide)) ?_
  exact hu

end Sys2Proof.Machine
end

