-- ==== Sys2Proof/Laws/Memory.lean ====
section
/-! SUPPORT. Reading memory back: poison of lines after writes and after lines are poisoned. -/

namespace Sys2Proof.Machine

open Sys2Proof

theorem get_putAll {β : Type} [DecidableEq β] (d : Nat → β) (v : β) (a : Nat) : ∀ (ls : List Nat) (m : SMap β),
    SMap.get d (putAll d v m ls) a = if a ∈ ls then v else SMap.get d m a
  | [], m => by simp [putAll]
  | l :: t, m => by
    rw [putAll, get_putAll d v a t]
    by_cases ht : a ∈ t
    · simp [ht]
    · by_cases hl : a = l
      · subst hl; simp [ht, SMap.get_set_same]
      · simp [ht, hl, SMap.get_set_other _ _ hl]

theorem linesOf_line (l : Nat) : linesOf (64 * l) 64 = [l] := by
  unfold linesOf
  rw [if_neg (by decide), show (64 * l + 64 - 1) / 64 - 64 * l / 64 + 1 = 1 by omega]
  simp

/-- A poisoned line is poisoned, and no other line's poison changes. -/
theorem MemSt.linePoison_poisonLine (m : MemSt) (l dom k : Nat) : (m.poisonLine l dom).linePoison k = if k = l then true else m.linePoison k := by
  unfold MemSt.poisonLine MemSt.linePoison
  by_cases h : k = l
  · subst h; simp [SMap.get_set_same]
  · rw [if_neg h]
    dsimp only
    refine (SMap.get_set_other (d := poisonDefault) _ _ h).trans ?_
    unfold MemSt.write
    simp only [List.length_replicate, linesOf_line]
    rw [get_putAll]
    rw [if_neg]
    intro hm
    have := (List.mem_filter.mp hm).1
    simp only [List.mem_singleton] at this
    exact h this

/-- Poisoning the lines of a range. -/
theorem State.markPoisons (base dom : Nat) : ∀ (n : Nat) (s : State) (k : Nat),
    ((List.range n).foldl (fun s i => s.markPoison (base + i) dom) s).mem.linePoison k = if base ≤ k ∧ k < base + n then true else s.mem.linePoison k
  | 0, s, k => by
    have : ¬ (base ≤ k ∧ k < base + 0) := by omega
    simp [this]
  | n + 1, s, k => by
    rw [List.range_succ, List.foldl_append, List.foldl_cons, List.foldl_nil]
    have e : ∀ u : State, (u.markPoison (base + n) dom).mem = u.mem.poisonLine (base + n) dom := fun u => rfl
    rw [e, MemSt.linePoison_poisonLine, State.markPoisons base dom n s k]
    by_cases h1 : k = base + n
    · subst h1; simp
    · by_cases h2 : base ≤ k ∧ k < base + n
      · rw [if_neg h1, if_pos h2, if_pos (by omega)]
      · rw [if_neg h1, if_neg h2, if_neg (by omega)]

/-- Reading back what was written. -/
theorem MemSt.read_write (m : MemSt) (a : Nat) (data : List Byte) (dom nb : Nat) :
    (List.range data.length).map (fun i => (m.write a data dom nb).byte (a + i)) = data := by
  apply List.ext_getElem
  · simp
  · intro i h1 h2
    simp only [List.getElem_map, List.getElem_range]
    exact MemSt.byte_write_in m a data dom nb i h2

end Sys2Proof.Machine
end

