-- ==== Sys2Proof/Laws/Passes.lean ====
section
/-! SUPPORT. Passes, local selects and what their slices leave. -/

namespace Sys2Proof.Machine

open Sys2Proof

/-! Passes. -/

theorem State.pass?_congr {s t : State} (h : t.sched.passes = s.sched.passes) (id : Nat) : t.pass? id = s.pass? id := by
  unfold State.pass?; rw [h]

theorem State.pass?_putPass {s : State} {id : Nat} {p : Pass} (q : Pass) (h : s.pass? id = some p) (hq : q.id = id) :
    (s.putPass q).pass? id = some q := by
  unfold State.pass? State.putPass at *
  simp only
  generalize s.sched.passes = l at h
  induction l with
  | nil => simp at h
  | cons x t ih =>
    subst hq
    by_cases hx : x.id = q.id
    · simp [List.find?_cons, hx]
    · simp only [List.map_cons, List.find?_cons, hx, decide_false, if_false] at h ⊢
      exact ih h

theorem State.pass?_id {s : State} {id : Nat} {p : Pass} (h : s.pass? id = some p) : p.id = id := by
  unfold State.pass? at h
  simpa using List.find?_some h

theorem State.doomJob_passes (s : State) (id : Nat) (st : Status) : (s.doomJob id st).sched.passes = s.sched.passes := by
  unfold State.doomJob; split <;> rfl

theorem State.doomJobs_passes (l : List Nat) (st : Status) : ∀ s : State,
    (l.foldl (fun s j => s.doomJob j st) s).sched.passes = s.sched.passes := by
  induction l with
  | nil => exact fun _ => rfl
  | cons a t ih => intro s; rw [List.foldl_cons, ih, State.doomJob_passes]

theorem State.pass?_settleFrames (s : State) (l : List Nat) (id : Nat) : (s.settleFrames l).pass? id = s.pass? id := by
  unfold State.settleFrames
  split
  · exact State.pass?_congr (s := s) (State.doomJobs_passes l .refused s) id
  · rfl

theorem State.pass?_dropStaged (s : State) (l : List Nat) (id : Nat) : (s.dropStaged l).pass? id = s.pass? id := rfl

/-- A slice of a pass that has others running counts out. -/
theorem State.passSliceEnd_running {s : State} {id : Nat} {p : Pass} {l : Layout} (h : s.pass? id = some p) (hl : s.passLayout p = some l)
    (hr : 2 ≤ p.running) : s.passSliceEnd id = s.putPass { p with running := p.running - 1 } := by
  have hid := State.pass?_id h
  unfold State.passSliceEnd State.closePass
  rw [h]
  simp only
  rw [State.pass?_putPass { p with running := p.running - 1 } h hid]
  simp only
  have ho : (s.putPass { p with running := p.running - 1 }).passOver { p with running := p.running - 1 } = false := by
    unfold State.passOver
    have e : (s.putPass { p with running := p.running - 1 }).passLayout { p with running := p.running - 1 } = some l := hl
    rw [e]
    have : ¬ (p.running - 1 = 0) := by omega
    simp [this]
  rw [ho]
  rfl

/-- What becomes of a job and a pass when a slice ends. -/
theorem slice_pass {s u : State} {sid : Nat} {x : Slice} {f : State → Slice → State} {id i : Nat} {w : Work} {p : Pass} {code : Nat}
    (h : s.running = true) (hs : s.endSlice sid = some (x, u)) (hk : kindCode x.kind = code) (hw : (f u x).work? i = some w)
    (hp : (f u x).pass? id = some p) :
    ∃ t, node s (fun s => s.sliceEnds sid code f) = .next t ∧ t.work? i = some w ∧ t.pass? id = some p := by
  refine ⟨_, node_next h, ?_⟩
  rw [← hk, State.sliceEnds_of hs, State.work?_dropStaged, State.work?_settleFrames, hw, State.pass?_dropStaged, State.pass?_settleFrames, hp]
  exact ⟨rfl, rfl⟩

/-- What making a local select final reads is the epoch alone. -/
theorem State.settleLocal_congr {s t : State} (h : t.time = s.time) (q : Query) : t.settleLocal q = s.settleLocal q := by
  unfold State.settleLocal State.now; rw [h]

theorem State.work?_putQuery {s t : State} {id : Nat} {j : Job} {q : Query} (h : s.query? id = some (j, q)) (ht : t.sched.jobs = s.sched.jobs)
    (r : Query) : (t.putQuery j r).work? id = some (.query r) :=
  State.work?_put (State.query?_some h).1 ht (.query r)

/-- A scan given to its query, from any state with the same jobs. -/
theorem State.takeScan_work {s t : State} {id : Nat} {j : Job} {q : Query} (h : s.query? id = some (j, q)) (ht : t.sched.jobs = s.sched.jobs)
    (need : Nat) (x : Scan) :
    (t.takeScan j q need x).work? id = some (.query { q with
      arrived := q.arrived ++ (sliceList (64 * need) q.cut x.cands).1
      clips := q.clips ++ (sliceList (64 * need) q.cut x.cands).2.toList, codesScored := q.codesScored + x.scored }) := by
  unfold State.takeScan
  simp only
  have hb : (t.bumpBy Reg.G.SCORE_SAT x.sat).sched.jobs = s.sched.jobs := ht
  split
  · rw [State.work?_doomJob]; exact State.work?_putQuery h hb _
  · exact State.work?_putQuery h hb _

theorem State.takeScan_passes (t : State) (j : Job) (q : Query) (need : Nat) (x : Scan) :
    (t.takeScan j q need x).sched.passes = t.sched.passes ∧ (t.takeScan j q need x).parts = t.parts := by
  refine ⟨?_, (State.takeScan_agree (fun _ h => h) (Agree.refl _ t)).parts_eq (by decide)⟩
  unfold State.takeScan
  simp only
  split
  · rw [State.doomJob_passes]; rfl
  · rfl

theorem State.passLayout_congr {s t : State} (h : t.parts = s.parts) (p : Pass) : t.passLayout p = s.passLayout p := by
  unfold State.passLayout State.part; rw [h]

/-- The end of a pass slice with others running, where what the slice did keeps the passes and the partitions. -/
theorem State.passSliceEnd_after {u v : State} {id : Nat} {p : Pass} {l : Layout} (h : u.pass? id = some p) (hl : u.passLayout p = some l)
    (hr : 2 ≤ p.running) (h1 : v.sched.passes = u.sched.passes) (h2 : v.parts = u.parts) :
    (v.passSliceEnd id).pass? id = some { p with running := p.running - 1 } ∧ ∀ i, (v.passSliceEnd id).work? i = v.work? i := by
  have h' : v.pass? id = some p := (State.pass?_congr h1 id).trans h
  have hl' : v.passLayout p = some l := (State.passLayout_congr h2 p).trans hl
  rw [State.passSliceEnd_running h' hl' hr]
  exact ⟨State.pass?_putPass { p with running := p.running - 1 } h' (show p.id = id from State.pass?_id h'), fun _ => rfl⟩

theorem State.query?_sched {u : State} {i : Nat} {j : Job} {q : Query} (h : u.query? i = some (j, q)) (v : State)
    (hv : v.sched.jobs = u.sched.jobs) : v.query? i = some (j, q) := by
  have e : v.query? i = u.query? i := by unfold State.query?; rw [State.job?_congr hv]
  rw [e, h]

/-- A pass with one member, a query. -/
theorem State.passMembers_one {u : State} {p : Pass} {i ord need : Nat} {j : Job} {q : Query} (hm : p.members = [(i, ord, need)])
    (h : u.query? i = some (j, q)) (v : State) (hv : v.sched.jobs = u.sched.jobs) : v.passMembers p = [(i, ord, need)] := by
  unfold State.passMembers
  rw [hm]
  simp [State.query?_sched h v hv]

theorem State.tileRead_sched (s : State) (i n : Nat) : (s.tileRead i n).sched.jobs = s.sched.jobs ∧ (s.tileRead i n).sched.passes = s.sched.passes ∧
    (s.tileRead i n).parts = s.parts ∧ (s.tileRead i n).mem = s.mem := ⟨rfl, rfl, rfl, rfl⟩

theorem State.countSelect_kept (u : State) (t n : Nat) (r : Selected) (b : Bool) :
    (u.countSelect t n r b).sched.jobs = u.sched.jobs ∧ (u.countSelect t n r b).time = u.time := by
  refine ⟨?_, (State.countSelect_agree (fun _ h => h) (Agree.refl _ u)).time_eq (by decide)⟩
  unfold State.countSelect
  simp only
  split <;> rfl

end Sys2Proof.Machine
end

