-- ==== Sys2Proof/Laws/Versions.lean ====
section
/-! SUPPORT. Passes that start, versions and layouts that swap, shares served, tombstones. -/

namespace Sys2Proof.Machine

open Sys2Proof

theorem State.part_setPart (s : State) (c p : Nat) (v : Part) : (s.setPart c p v).part c p = v := SMap.get_set_same _ _ _

theorem State.part_congr {s t : State} (h : t.parts = s.parts) (c p : Nat) : t.part c p = s.part c p := by unfold State.part; rw [h]

theorem State.coll_congr {s t : State} (h : t.colls = s.colls) (c : Nat) : t.coll c = s.coll c := by unfold State.coll; rw [h]

theorem foldl_skip_at {α : Type} {f : State → α → State} (s : State) : ∀ {l : List α}, (∀ a ∈ l, f s a = s) → l.foldl f s = s
  | [], _ => rfl
  | a :: t, h => by
    rw [List.foldl_cons, h a (List.mem_cons_self ..)]
    exact foldl_skip_at s (fun b hb => h b (List.mem_cons_of_mem _ hb))

theorem State.postRecord_compTail (s : State) (d r : Nat) (st : Status) (ws : List Nat) :
    ((s.postRecord d r st ws).ring d r).compTail = ((s.ring d r).compTail + 1) % 2 ^ 32 := by
  rw [State.postRecord_ring]

/-- One probe starts a pass of its own (R93). -/
theorem State.startPass_one (s : State) (sketch : Bool) (w : Waiting) {j : Job} {q : Query} (hq : s.query? w.job = some (j, q)) :
    ∃ x, (s.startPass sketch [w]).sched.passes = s.sched.passes ++ [x] ∧ x.coll = w.coll ∧ x.part = w.part ∧ x.ver = w.ver ∧ x.sketch = sketch ∧
      x.members = [(w.job, w.order, w.need)] ∧ (s.startPass sketch [w]).work? w.job = some (.query (q.setProbe w.order (fun y => { y with st := if sketch then 3 else 4 }))) := by
  unfold State.startPass
  simp only [List.foldl_cons, List.foldl_nil]
  generalize hp : (Pass.mk _ _ _ _ _ _ _ _ _ _) = p
  have hq' : ({ s with sched := { s.sched with nextPass := s.sched.nextPass + 1, passes := s.sched.passes ++ [p] } } : State).query? w.job = some (j, q) := hq
  simp only [hq']
  refine ⟨p, rfl, ?_, ?_, ?_, ?_, ?_, State.work?_putQuery hq rfl _⟩ <;> rw [← hp] <;> rfl

theorem State.swapLayout_parts (s : State) (j : Job) (x : Compact) : (s.swapLayout j x).parts = (s.setPart x.coll x.part { s.part x.coll x.part with
      cur := { x.new with since := s.now, ordHigh := (s.part x.coll x.part).cur.ordHigh }
      old := { (s.part x.coll x.part).cur with rel := some { dom := j.dom, ring := j.ring, tag := j.tag, fold := x.fold, records := x.records, dropped := x.dropped.length - x.poisonDropped, sideCarried := x.new.sideCount, tombCarried := x.new.tombs.length, poisonDropped := x.poisonDropped, freed := x.dropped } } :: (s.part x.coll x.part).old }).parts := by
  unfold State.swapLayout
  simp only
  generalize State.setPart s _ _ _ = u
  exact (State.dropJob_agree (L := [.regs, .linkOut, .mem, .rings, .sched, .pages, .ras, .flash, .link, .nb]) (by decide) (State.postRecord_agree (by decide) (State.writeDesc_agree (by decide) (State.fillHoles_agree (by decide) (Agree.refl _ u))))).parts_eq (by decide)

theorem State.settleLocal_keeps (s : State) (q : Query) : (s.settleLocal q).k = q.k ∧ (s.settleLocal q).depth = q.depth ∧ (s.settleLocal q).probeList = q.probeList ∧
    (s.settleLocal q).sorter = q.sorter ∧ (s.settleLocal q).shareIn = q.shareIn ∧ (s.settleLocal q).coll = q.coll ∧ (s.settleLocal q).bound = q.bound ∧ (s.settleLocal q).routed = q.routed := by
  unfold State.settleLocal
  split <;> exact ⟨rfl, rfl, rfl, rfl, rfl, rfl, rfl, rfl⟩

/-- A share that its holder serves becomes a query of the probes it names (R110). -/
theorem State.tryShare_serve (s : State) (src a : Nat) (m : ShareReq) {t : Nat} (a1 : s.shareAnswer a m = .serve) (a2 : ¬ (s.startState < 4)) (a3 : ¬ (6 < s.startState))
    (a4 : s.shareFail m = none) (a5 : s.bindSorter ((m.context + m.share) % 4) = some t) (a6 : s.poolFits (s.shareQuery m 0).len = true) (hj : s.job? s.sched.nextJob = none) :
    ∃ q, (s.tryShare (src, a, m)).work? s.sched.nextJob = some (.query q) ∧ q.coll = m.coll ∧ q.k = m.k ∧ q.depth = m.depth ∧ q.probeList = m.probes ∧
      q.sorter = t ∧ q.bound = true ∧ q.routed = true ∧ q.shareIn = some { collector := m.collector, context := m.context, share := m.share, compEpoch := m.compEpoch } := by
  have a23 : (decide (s.startState < 4) || decide (6 < s.startState)) = false := by simp [a2, a3]
  unfold State.tryShare
  simp only [a1, a23, Bool.false_eq_true, a4, a5, a6, if_false, if_true]
  generalize hq2 : (if (s.ownProbes (s.shareQuery m 0) m.probes).all (fun p => decide (p.st = 5)) = true then s.settleLocal _ else _ : Query) = q2
  have k2 : q2.coll = m.coll ∧ q2.k = m.k ∧ q2.depth = m.depth ∧ q2.probeList = m.probes ∧ q2.sorter = t ∧ q2.bound = true ∧ q2.routed = true ∧
      q2.shareIn = some { collector := m.collector, context := m.context, share := m.share, compEpoch := m.compEpoch } := by
    rw [← hq2]
    split
    · generalize hq : (Query.mk _ _ _ _ _ _ _ _ _ _ _ _ _ _ _ _ _ _ _ _ _ _ _ _ _ _ _ _ _ _ _ _ _ _ _ _ _ _ _ _ _ _ _ _ _ _ _ _ _ _ _ _ _ _ _ _ _ _ _) = q3
      obtain ⟨e1, e2, e3, e4, e5, e6, e7, e8⟩ := State.settleLocal_keeps s q3
      rw [e1, e2, e3, e4, e5, e6, e7, e8, ← hq]
      exact ⟨rfl, rfl, rfl, rfl, rfl, rfl, rfl, rfl⟩
    · exact ⟨rfl, rfl, rfl, rfl, rfl, rfl, rfl, rfl⟩
  refine ⟨q2, ?_, k2⟩
  have key : ∀ v w : State, w.sched.jobs = (v.addJob (s.coll m.coll).dom 8 0x01 0 (.query q2)).1.sched.jobs → v.sched = s.sched →
      (w.setJobs (w.sched.jobs.map (fun j => if j.id = s.sched.nextJob then { j with epoch := m.epoch } else j))).fresh.work? s.sched.nextJob = some (.query q2) := by
    intro v w hw hv
    refine (State.work?_congr (s := w.setJobs (w.sched.jobs.map (fun j => if j.id = s.sched.nextJob then { j with epoch := m.epoch } else j))) rfl _).trans ?_
    rw [State.work?_map, State.work?_congr hw]
    · rw [← hv]
      exact State.addJob_work? v _ _ _ _ _ (by rw [State.job?_congr (congrArg SchedSt.jobs hv), hv]; exact hj)
    · intro j; split <;> rfl
    · intro j; split <;> rfl
  split
  · rw [State.work?_doomJob]
    refine key ({ s with fabric := { s.fabric with shareWait := s.fabric.shareWait.erase (src, a, m) } } : State) _ ?_ rfl
    (repeat' split) <;> rfl
  · refine key ({ s with fabric := { s.fabric with shareWait := s.fabric.shareWait.erase (src, a, m) } } : State) _ ?_ rfl
    (repeat' split) <;> rfl

theorem tomb?_insTomb (o e : Nat) : ∀ l : List (Nat × Nat), (l.find? (fun t => t.1 = o)) = none → (insTomb l (o, e)).find? (fun t => t.1 = o) = some (o, e)
  | [], _ => by simp [insTomb]
  | y :: t, h => by
    have hy : ¬ y.1 = o := by
      intro hy
      simp [List.find?_cons, hy] at h
    have ht : t.find? (fun t => t.1 = o) = none := by simpa [List.find?_cons, hy] using h
    unfold insTomb
    split
    · simp
    · simp only [List.find?_cons, hy, decide_false]
      exact tomb?_insTomb o e t ht

/-- A delete of a live ordinal commits as a tombstone (R144). -/
theorem State.commitDelete_new (s : State) (j : Job) (u : Update) (eff : Nat) (ht : (s.part u.coll u.part).cur.tomb? u.ordinal = none) :
    ((s.commitDelete j u eff).part u.coll u.part).cur.tomb? u.ordinal = some eff ∧
      ((s.commitDelete j u eff).ring j.dom j.ring).compTail = ((s.ring j.dom j.ring).compTail + 1) % 2 ^ 32 ∧ (s.commitDelete j u eff).sched.batches = s.sched.batches := by
  unfold State.commitDelete
  simp only [ht]
  generalize hr : s.addTomb (s.part u.coll u.part).cur u.ordinal eff = r
  have r1 : Agree [.regs, .linkOut, .mem, .pages, .ras, .flash, .link, .nb] s r.1 := by rw [← hr]; exact State.addTomb_agree (by decide) (Agree.refl _ s)
  have r2 : r.2.tomb? u.ordinal = some eff := by
    rw [← hr]
    unfold State.addTomb Layout.tomb?
    simp only
    rw [tomb?_insTomb]
    · rfl
    · unfold Layout.tomb? at ht
      simpa using ht
  generalize hy : (State.syncCounts _ u.coll u.part) = y
  have y1 : Agree [.regs, .linkOut, .mem, .pages, .ras, .flash, .link, .nb] (r.1.setPart u.coll u.part { s.part u.coll u.part with cur := r.2 }) y := by
    rw [← hy]; exact State.syncCounts_agree (by decide) (Agree.refl _ _)
  have y2 : (y.part u.coll u.part).cur.tomb? u.ordinal = some eff := by
    rw [State.part_congr (y1.parts_eq (by decide)), State.part_setPart]; exact r2
  have y3 : y.rings = s.rings := (y1.rings_eq (by decide)).trans (r1.rings_eq (by decide))
  have y4 : y.sched = s.sched := (y1.sched_eq (by decide)).trans (r1.sched_eq (by decide))
  have key : ∀ (z : State) (ws : List Nat), z.parts = y.parts → z.rings = y.rings → z.sched.batches = y.sched.batches →
      (((((z.fresh.bump Reg.G.DELETES_DONE).postRecord j.dom j.ring .ok ws).part u.coll u.part).cur.tomb? u.ordinal = some eff) ∧
      (((z.fresh.bump Reg.G.DELETES_DONE).postRecord j.dom j.ring .ok ws).ring j.dom j.ring).compTail = ((s.ring j.dom j.ring).compTail + 1) % 2 ^ 32 ∧
      ((z.fresh.bump Reg.G.DELETES_DONE).postRecord j.dom j.ring .ok ws).sched.batches = s.sched.batches) := by
    intro z ws z1 z2 z3
    refine ⟨?_, ?_, ?_⟩
    · rw [State.part_congr (s := y) (t := (z.fresh.bump Reg.G.DELETES_DONE).postRecord j.dom j.ring .ok ws) (((State.postRecord_agree (fun _ h => h) (Agree.refl _ _)).parts_eq (by decide)).trans z1)]
      exact y2
    · rw [State.postRecord_compTail, State.ring_congr (s := s) (t := z.fresh.bump Reg.G.DELETES_DONE) (z2.trans y3)]
    · rw [State.postRecord_sched]
      exact z3.trans (congrArg SchedSt.batches y4)
  cases hc : y.compacting u.coll u.part with
  | none => exact key y _ rfl rfl rfl
  | some p =>
    obtain ⟨cj, x⟩ := p
    have a := State.addTomb_agree (L := [.regs, .linkOut, .mem, .pages, .ras, .flash, .link, .nb]) (l := x.new) (o := u.ordinal) (e := eff) (by decide) (Agree.refl _ y)
    exact key ((y.addTomb x.new u.ordinal eff).1.putCompact cj { x with new := (y.addTomb x.new u.ordinal eff).2 }) _ (a.parts_eq (by decide)) (a.rings_eq (by decide))
      (show (y.addTomb x.new u.ordinal eff).1.sched.batches = _ from congrArg SchedSt.batches (a.sched_eq (by decide)))

/-- A fold in which one item alone counts, at the states it meets. -/
theorem foldl_pick {α : Type} {f : State → α → State} {l1 l2 : List α} {a : α} (s u : State) (h1 : ∀ b ∈ l1, f s b = s) (ha : f s a = u) (h2 : ∀ b ∈ l2, f u b = u) :
    (l1 ++ a :: l2).foldl f s = u := by
  rw [List.foldl_append, foldl_skip_at s h1, List.foldl_cons, ha, foldl_skip_at u h2]

/-- A slot becomes CURRENT, and the one that was CURRENT RETIRED (R156). -/
theorem State.makeCurrent_spec (s : State) (j : Job) (c table slot : Nat) (h : slot ≤ 1) : (s.makeCurrent j c table slot).sched.jobs = (s.dropJob j.id).sched.jobs ∧
      (table = 0 → ((s.makeCurrent j c table slot).coll c).routeSwap = s.now ∧ ((s.makeCurrent j c table slot).coll c).route slot = { (s.coll c).route slot with state := 2, since := s.now } ∧
        (((s.coll c).route (1 - slot)).state = 2 → (((s.makeCurrent j c table slot).coll c).route (1 - slot)).state = 3 ∧ (((s.makeCurrent j c table slot).coll c).route (1 - slot)).since = s.now)) ∧
      (table ≠ 0 → ((s.makeCurrent j c table slot).coll c).cbSwap = s.now ∧ ((s.makeCurrent j c table slot).coll c).cb slot = { (s.coll c).cb slot with state := 2, since := s.now } ∧
        (((s.coll c).cb (1 - slot)).state = 2 → (((s.makeCurrent j c table slot).coll c).cb (1 - slot)).state = 3 ∧ (((s.makeCurrent j c table slot).coll c).cb (1 - slot)).since = s.now)) := by
  have hr : ∀ (u : State) (st : Status) (ws : List Nat), (u.postRecord j.dom j.ring st ws).colls = u.colls ∧ (u.postRecord j.dom j.ring st ws).sched = u.sched := fun u st ws =>
    ⟨(State.postRecord_agree (fun _ h => h) (Agree.refl _ u)).colls_eq (by decide), (State.postRecord_agree (fun _ h => h) (Agree.refl _ u)).sched_eq (by decide)⟩
  have key : ∀ (u : State) (ws : List Nat) (p : Prop) [Decidable p] (g : State → State), (∀ v, (g v).colls = v.colls ∧ (g v).sched = v.sched) →
      (if p then (u.postRecord j.dom j.ring .ok ws).dropJob j.id else g ((u.postRecord j.dom j.ring .ok ws).dropJob j.id)).colls = u.colls ∧
      (if p then (u.postRecord j.dom j.ring .ok ws).dropJob j.id else g ((u.postRecord j.dom j.ring .ok ws).dropJob j.id)).sched.jobs = (u.dropJob j.id).sched.jobs := by
    intro u ws p _ g hg
    have a : ((u.postRecord j.dom j.ring .ok ws).dropJob j.id).sched.jobs = (u.dropJob j.id).sched.jobs := by
      unfold State.dropJob; simp only [(hr u .ok ws).2]
    split
    · exact ⟨(hr u .ok ws).1, a⟩
    · rw [(hg _).1, (hg _).2]
      exact ⟨(hr u .ok ws).1, a⟩
  have hs : slot = 0 ∨ slot = 1 := by omega
  unfold State.makeCurrent
  simp only
  generalize hu : State.setColl _ c _ = u
  have k3 : ∀ p : Prop, [Decidable p] → _ := fun p _ => key u (maintWords j.tag .ok 0 u.now {}) p (fun v => v.setRing j.dom j.ring { v.ring j.dom j.ring with reserved := (v.ring j.dom j.ring).reserved - 1 }) (fun v => ⟨rfl, rfl⟩)
  obtain ⟨k1, k2⟩ := k3 ((if table = 0 then ((s.coll c).route (1 - slot)).state else ((s.coll c).cb (1 - slot)).state) = 2)
  refine ⟨k2.trans ?_, ?_, ?_⟩
  · rw [← hu]; rfl
  · intro ht
    subst ht
    rw [State.coll_congr k1, ← hu, State.coll_setColl_same]
    have hn : ∀ (a b : Nat) (f : VSlot → VSlot), (s.setSlot c a b f).now = s.now := fun _ _ _ => rfl
    rcases hs with rfl | rfl
    · refine ⟨rfl, ?_, ?_⟩
      · simp [State.setSlot, Coll.route, Coll.setRoute, State.coll_setColl_same, hn]
        rfl
      · intro h2
        simp [Coll.route] at h2
        simp [State.setSlot, Coll.route, Coll.setRoute, State.coll_setColl_same, h2]
    · refine ⟨rfl, ?_, ?_⟩
      · simp [State.setSlot, Coll.route, Coll.setRoute, State.coll_setColl_same, hn]
        rfl
      · intro h2
        simp [Coll.route] at h2
        simp [State.setSlot, Coll.route, Coll.setRoute, State.coll_setColl_same, h2]
  · intro ht
    rw [State.coll_congr k1, ← hu, State.coll_setColl_same]
    have hn : ∀ (a b : Nat) (f : VSlot → VSlot), (s.setSlot c a b f).now = s.now := fun _ _ _ => rfl
    simp only [ht, if_false]
    rcases hs with rfl | rfl
    · refine ⟨rfl, ?_, ?_⟩
      · simp [State.setSlot, Coll.cb, Coll.setCb, State.coll_setColl_same, hn, ht]
        rfl
      · intro h2
        simp [Coll.cb] at h2
        simp [State.setSlot, Coll.cb, Coll.setCb, State.coll_setColl_same, h2, ht]
    · refine ⟨rfl, ?_, ?_⟩
      · simp [State.setSlot, Coll.cb, Coll.setCb, State.coll_setColl_same, hn, ht]
        rfl
      · intro h2
        simp [Coll.cb] at h2
        simp [State.setSlot, Coll.cb, Coll.setCb, State.coll_setColl_same, h2, ht]

end Sys2Proof.Machine
end

