-- ==== Sys2Proof/Laws/Offers.lean ====
section
/-! SUPPORT. Descriptors that a ring offers: what taking one leaves, and what a write leaves of the tier map's marks. -/

namespace Sys2Proof.Machine

open Sys2Proof

theorem State.Offers.tryHead {s t : State} {d r op n : Nat} {k : Nat → Bool} (h : s.Offers d r op n k) (ht : s.takeBy op d r = some t)
    (f : Nat → Bool) (hf : f (s.w64 (s.headAddr d r)) = true) : s.takeIf f d r = t := by
  have hb : (boundaryOnly op && !s.inWindow) = false := by
    cases e : boundaryOnly op
    · rfl
    · rw [h.window e]; rfl
  unfold State.takeIf State.tryHead
  simp only [h.on, h.visible, h.sound, h.admits, h.slots, Bool.not_true, Bool.or_self, Bool.false_eq_true, if_false]
  unfold State.takeVisible
  simp only [h.clean, h.opcode, hf, hb, h.group, Bool.not_true, Bool.or_self, Bool.false_eq_true, if_false]
  unfold State.takeGroup
  simp only [Nat.not_lt.mpr h.room, if_false, h.reads, Bool.not_true, Bool.false_eq_true, ht]

theorem State.Offers.takeOp {s t : State} {d r op n : Nat} {k : Nat → Bool} (h : s.Offers d r op n k) (ht : s.takeBy op d r = some t) : s.takeOp op d r = t :=
  h.tryHead ht _ (decide_eq_true h.opcode)

theorem State.Offers.takeKind {s t : State} {d r op n : Nat} {k : Nat → Bool} (h : s.Offers d r op n k) (ht : s.takeBy op d r = some t) : s.takeKind op k d r = t :=
  h.tryHead ht _ (by simp [h.opcode, h.kind])

theorem State.Offers.next {s t : State} {d r op n : Nat} {k : Nat → Bool} (h : s.Offers d r op n k) (ht : s.takeBy op d r = some t) :
    node s (fun s => s.takeOp op d r) = .next t := by
  rw [node_next h.running, h.takeOp ht]

theorem State.Offers.nextKind {s t : State} {d r op n : Nat} {k : Nat → Bool} (h : s.Offers d r op n k) (ht : s.takeBy op d r = some t) :
    node s (fun s => s.takeKind op k d r) = .next t := by
  rw [node_next h.running, h.takeKind ht]

/-- A head taken. -/
theorem State.took_head (s : State) (d r n : Nat) {t : State} (h : t.rings = (s.takeHead d r n).rings) :
    s.Took t d r 1 0 := by
  unfold State.Took
  rw [State.ring_congr h, State.takeHead_ring]
  exact ⟨rfl, rfl⟩

/-- A head taken, and its record posted. -/
theorem State.took_post (s : State) {u t : State} (d r n : Nat) (st : Status) (ws : List Nat) (h : u.rings = (s.takeHead d r n).rings)
    (ht : t.rings = (u.postRecord d r st ws).rings) : s.Took t d r 1 1 := by
  unfold State.Took
  rw [State.ring_congr ht, State.postRecord_ring, State.ring_congr h, State.takeHead_ring]
  exact ⟨rfl, rfl⟩

/-- A head taken, and its job added. -/
theorem State.takeHead_addJob (s : State) (d r n op tag : Nat) (w : Work) {u : State} (h : u.sched = (s.takeHead d r n).sched) (hj : s.job? s.sched.nextJob = none) :
    (u.addJob d r op tag w).1.work? s.sched.nextJob = some w := by
  have e : u.sched = s.sched := h.trans (State.takeHead_sched s d r n)
  have k := State.addJob_work? u d r op tag w (by rw [e, State.job?_congr (congrArg SchedSt.jobs e)]; exact hj)
  rw [e] at k
  exact k

/-- What a write leaves of a page's count, PIN and rebuild set. -/
def Page.marks (g : Page) : Nat × Bool × Nat := (g.count, g.pin, g.set)

theorem State.marks_setPage (s : State) (p q : Nat) (g : Page) (h : g.marks = (s.page p).marks) : ((s.setPage p g).page q).marks = (s.page q).marks := by
  by_cases e : q = p
  · subst e
    have : (s.setPage q g).page q = g := SMap.get_set_same _ _ _
    rw [this, h]
  · rw [State.page_setPage_other s g e]

theorem State.page_congr {s t : State} (h : t.pages = s.pages) (p : Nat) : t.page p = s.page p := by unfold State.page; rw [h]

theorem State.marks_set {s u : State} {p : Nat} {g : Page} (h : u.pages = SMap.set pageDefault s.pages p g) (hg : g.marks = (s.page p).marks) (q : Nat) :
    (u.page q).marks = (s.page q).marks := by
  rw [State.page_congr (t := u) (s := s.setPage p g) h]
  exact State.marks_setPage s p q g hg

theorem State.marks_takeFrame {s t : State} {p : Nat} {g : Page} {st : PageSt} (h : s.takeFrame p g st = some t) (hg : g.marks = (s.page p).marks) (q : Nat) :
    (t.page q).marks = (s.page q).marks := by
  unfold State.takeFrame at h
  simp only at h
  split at h
  · split at h
    · rw [← Option.some.inj h]; exact State.marks_setPage _ _ _ _ hg
    · rw [← Option.some.inj h]
      exact (State.marks_setPage _ _ _ _ (by rw [State.page_congr (t := s.bump Reg.G.PLACE_SPILL) (s := s) rfl]; exact hg)).trans (by rw [State.page_congr (t := s.bump Reg.G.PLACE_SPILL) (s := s) rfl])
  · cases h

theorem State.marks_cancel (s : State) (p : Nat) (g : Page) (hg : g.marks = (s.page p).marks) (q : Nat) :
    ((s.cancelWriteback p g).page q).marks = (s.page q).marks := by
  unfold State.cancelWriteback
  split
  · next r _ =>
    refine State.marks_set (s := s) (p := p) (g := { g with st := .resident, dirty := g.dirty ||| r.dirty, since := s.now }) ?_ hg q
    dsimp only
    split <;> rfl
  · exact State.marks_set (s := s) (p := p) (g := { g with st := .resident, since := s.now }) rfl hg q

theorem State.marks_touchPage (s : State) (p d q : Nat) : ((s.touchPage p d).page q).marks = (s.page q).marks := by
  unfold State.touchPage
  dsimp only
  split
  · split
    · next h => exact State.marks_takeFrame h rfl q
    · exact State.marks_setPage _ _ _ _ rfl
  · split
    · rfl
    · exact State.marks_setPage _ _ _ _ rfl
  · exact State.marks_cancel s p { s.page p with dirty := (s.page p).dirty ||| d } rfl q
  · exact State.marks_setPage _ _ _ _ rfl
  · split
    · next h => exact State.marks_takeFrame h rfl q
    · exact State.marks_setPage _ _ _ _ rfl

theorem State.marks_touchWrite (s : State) (x : Nat × Nat) (q : Nat) : ((s.touchWrite x).page q).marks = (s.page q).marks := by
  unfold State.touchWrite
  dsimp only
  split
  · exact State.marks_touchPage _ _ _ _
  · split <;> rfl

theorem State.dirWrites_pages (a n : Nat) : ∀ (ls : List Nat) (s : State), (ls.foldl (fun s l => s.dirWrite l (lineMask a n l)) s).pages = s.pages
  | [], s => rfl
  | l :: t, s => (State.dirWrites_pages a n t _).trans ((State.dirWrite_agree (fun _ h => h) (Agree.refl _ s)).pages_eq (by decide))

theorem State.touchWrites_marks (q : Nat) : ∀ (l : List (Nat × Nat)) (s : State), ((l.foldl State.touchWrite s).page q).marks = (s.page q).marks
  | [], s => rfl
  | x :: t, s => (State.touchWrites_marks q t _).trans (State.marks_touchWrite s x q)

/-- A write by the node leaves every page's count, PIN and rebuild set. -/
theorem State.store_marks (s : State) (a : Nat) (data : List Byte) (dom q : Nat) : ((s.store a data dom).page q).marks = (s.page q).marks := by
  unfold State.store
  split
  · rfl
  · unfold State.storeNb
    split
    · rfl
    · refine Eq.trans ?_ (State.touchWrites_marks q (sectorsOf a data.length) s)
      exact congrArg Page.marks (State.page_congr (State.dirWrites_pages a data.length _ _) q)

theorem State.nodeLine_marks (s : State) (d r q : Nat) : ((s.nodeLine d r).page q).marks = (s.page q).marks := State.store_marks _ _ _ _ q

theorem State.takeHead_marks (s : State) (d r n q : Nat) : ((s.takeHead d r n).page q).marks = (s.page q).marks := by
  unfold State.takeHead
  have k : ∀ (v : State) (f g f2 : Fld) (c : Prop) [Decidable c], (if c then ((v.setFld f 0).bump g) else (((v.setFld f 0).bump g).setFld f2 1) : State).page q = v.page q := by
    intro v f g f2 c _
    split <;> rfl
  have k2 : ∀ (v : State) (x : RingRt), (v.setRing d r x).page q = v.page q := fun _ _ => rfl
  refine (State.nodeLine_marks _ d r q).trans (congrArg Page.marks ?_)
  exact (k _ _ _ _ _).trans (k2 _ _)

theorem State.postRecord_marks (s : State) (d r : Nat) (st : Status) (ws : List Nat) (q : Nat) : ((s.postRecord d r st ws).page q).marks = (s.page q).marks := by
  unfold State.postRecord
  dsimp only
  have k : ∀ (v : State) (f g g2 : Fld) (n : Nat) (c : Prop) [Decidable c], (if c then (((v.setFld f n).bump g).bump g2) else ((v.setFld f n).bump g) : State).page q = v.page q := by
    intro v f g g2 n c _
    split <;> rfl
  rw [k, State.nodeLine_marks]
  have k2 : ∀ (v : State) (x : RingRt), (v.setRing d r x).page q = v.page q := fun _ _ => rfl
  rw [k2, State.store_marks]
  rfl

/-- A map over pages that changes each in one way that stays. -/
theorem State.marks_fold (f : State → Nat → Page) (a : Nat × Bool × Nat → Nat × Bool × Nat) (hf : ∀ s p, (f s p).marks = a (s.page p).marks) (ha : ∀ x, a (a x) = a x)
    (q : Nat) (l : List Nat) : ∀ s : State, ((l.foldl (fun s p => s.setPage p (f s p)) s).page q).marks = if l.contains q then a (s.page q).marks else (s.page q).marks := by
  induction l with
  | nil => intro s; rfl
  | cons p t ih =>
    intro s
    refine (ih (s.setPage p (f s p))).trans ?_
    by_cases e : q = p
    · have same : (s.setPage p (f s p)).page q = f s p := by rw [e]; exact SMap.get_set_same _ _ _
      have c : (p :: t).contains q = true := by simp [e]
      rw [same, hf, c, e, ha]
      simp
    · have c : (p :: t).contains q = t.contains q := by simp [e]
      rw [State.page_setPage_other s _ e, c]

end Sys2Proof.Machine
end

