-- ==== Sys2Proof/WellFormed.lean ====
section
/-! DEFINITION. Operands in range: the numbers that name something of the node. -/

namespace Sys2Proof

/-- The block exists (R525). -/
def Blk.wf : Blk → Bool
  | .global | .link | .security => true
  | .kstack k => decide (k < 4)
  | .port p => decide (p < 8)

/-- Blocks of each engine kind (R2). -/
def engineBlocks : Engine → Nat
  | .matrix | .vector => 16
  | .tile => 64
  | .sorter | .nbIssue => 4

/-- Numbers of a slice that name something of the node; ranges are the scheduler's to judge. -/
def SliceKind.wf : SliceKind → Bool
  | .stepApply t _ => decide (t < 256)
  | .nbPool k _ => decide (k < 4)
  | .nbApply k t _ => decide (k < 4) && decide (t < 256)
  | .awl b => decide (b < 356)
  | .routeWalk .. | .tableBuild .. | .rebuild .. | .sketchPass .. | .codePass .. | .sideSlice .. | .localSelect .. | .rerank ..
  | .fanIn .. | .insertEncode _ | .mainFold .. | .sideFold .. | .routeCopy .. | .gemm .. | .vectorOp .. | .kvProject ..
  | .rotateWrite .. | .fused .. | .combine .. | .merge .. | .sortOwners .. | .pooling .. | .lookupCombine .. | .nbRun .. => true

/-- Fields of a frame in the widths of R382. -/
def Frame.wf (f : Frame) : Bool :=
  decide (f.src < 16384) && decide (f.dst < 16384) && decide (f.queue < 8) && decide (f.msgNo < 2 ^ 32) && decide (f.len ≤ 8192)

/-- Fields of a share request in the widths of R109. -/
def ShareReq.wf (m : ShareReq) : Bool :=
  decide (m.collector < 16384) && decide (m.compEpoch < 2 ^ 32) && decide (m.epoch < 2 ^ 48) && decide (m.coll < 1024) &&
  m.probes.all (fun p => decide (p < 2 ^ 20)) && decide (1 ≤ m.probes.length) && decide (m.probes.length ≤ 64)

/-- The operands are in range. -/
def Instr.wellFormed : Instr → Bool
  | .stitchBoundary _ | .commitAtRelease | .heldRegisterMessage | .syncMessage _ _ | .syncLoss
  | .holdoverLimitExceeded _ | .ppsPulse _ | .overrun _ | .admitWaitExpiry _ | .routeWalk _ | .tableBuild _
  | .escalatedRebuild _ | .sketchPass _ | .codePass _ | .sideSlice _ | .localSelect _ | .rerankReadIssue _
  | .rerank _ | .partialMsg _ | .fanInMerge _ | .shareWaitTimeout _ _ | .insertEncode _ | .batchCommit | .mainFold _
  | .sideFold _ | .layoutSwap _ | .routeCopy _ | .gemmSlice _ | .vectorSlice _ | .kvProjection _ | .rotateAndWrite _
  | .fusedAttention _ | .combine _ | .merge _ | .sortByOwner _ | .pooling _ | .lookupPartial _ | .lookupCombine _
  | .stepApply _ | .nbPooling _ | .nbApply _ | .nbRunSlice _ | .migration | .journalFlush | .runDurable _ _
  | .superblockVerify _ _ _ | .readDisturb _ | .patrolRead _ _ | .mapRebuild _ _ | .reclaimWalkEnd | .linkTraining
  | .linkTrained _ | .retrainTimeout | .partnerLoss | .flitReplay | .joinReq | .joinEpoch | .mapWrite _ _
  | .mapActivation | .rebuilt | .retirement _ _ | .awlSlice _ _ | .eyeMeasurement _ _ _ _ | .opticalPoll _ _ _
  | .droop | .wedged _ _ | .pldmResend | .nodeReset _ | .resetRelease | .trainingDone _ _ | .bistWave _
  | .waveSplit _ | .halfSole1 | .halfSole2 | .full | .modEnAssert | .rampDone | .modEnDeassert | .railOutOfBand
  | .inputUndervoltage _ | .hardwareThermalShutdown _ _ | .attestReady | .getInfo | .slotWrite | .slotTry
  | .retireRead | .retireClear | .keyGen | .keyImport | .keyLoad | .keyErase | .imageKeyProvision | .imageKeyRevoke
  | .secFloorRaise | .attest _ | .attestCertCmd | .eventAcknowledgement _ | .managementPortDown _ => true
  | .commitWrite agent dom b | .commitWithdraw agent dom b => decide (agent < 128) && decide (dom < 64) && b.wf
  | .holdSet agent dom | .holdClear agent dom | .atEnSet agent dom => decide (agent < 128) && decide (dom < 64)
  | .shadowWrite agent dom off data | .regWr agent dom off data =>
    decide (agent < 128) && decide (dom < 64) && decide (off < 2 ^ 32) && decide (data < 2 ^ 32)
  | .lowRegisterRead agent dom off => decide (agent < 128) && decide (dom < 64) && decide (off < 2 ^ 32)
  | .peerDelayMessage port _ | .portUp port | .portDown port | .egressSelect port _ | .gateEntry port _
  | .timeMessage port _ _ | .portTraining port => decide (port < 8)
  | .sliceAdmit kind idx _ => kind.wf && decide (idx < 64)
  | .overrunLimit e idx => decide (idx < engineBlocks e)
  | .search dom ring | .abort dom ring | .insert dom ring | .delete dom ring | .compact dom ring | .version dom ring
  | .routeEdit dom ring | .gemm dom ring | .elementWiseMap dom ring | .rowReduction dom ring | .attend dom ring
  | .attnMerge dom ring | .lookup dom ring | .embUpdate dom ring | .stepClose dom ring | .hotSet dom ring
  | .embVersion dom ring | .nbRun dom ring | .willneed dom ring | .cold dom ring | .pin dom ring | .unpin dom ring
  | .sync dom ring | .discard dom ring | .setHint dom ring | .journalRead dom ring | .ringWatchRead dom ring =>
    decide (dom < 64) && decide (ring < 8)
  | .probeHold coll part | .layoutRelease coll part => decide (coll < 1024) && decide (part < 2 ^ 20)
  | .planeRead _ _ channel _ _ | .thresholdAdjust channel _ _ _ | .programFail _ channel _ => decide (channel < 32)
  | .shareRequest src req => decide (src < 16384) && req.wf
  | .versionCurrent coll | .slotRelease coll => decide (coll < 1024)
  | .attnPartial mergeSlot _ => decide (mergeSlot < 512)
  | .skiveReread page _ _ | .pageLanded page _ | .writebackDurable page => decide (page < 2 ^ 36)
  | .lookupShare src _ | .parityDelta src _ | .journalTransfer src _ => decide (src < 16384)
  | .gradientRow src table _ _ _ | .sealMsg src table _ => decide (src < 16384) && decide (table < 256)
  | .stepCloseAt table | .sealSend table | .hotRefresh table | .embSwap table | .dropReport table _ _ => decide (table < 256)
  | .nop k u | .endI k u | .set k u | .ldw k u | .lde k u | .st k u | .add k u | .mul k u | .fma k u | .act k u
  | .loop k u | .br k u | .bankRefresh k u | .forcedPreemption k u => decide (k < 4) && decide (u < 1024)
  | .ld k u err | .lacc k u err => decide (k < 4) && decide (u < 1024) && decide (err < 3)
  | .laceBeat k u _ vals _ => decide (k < 4) && decide (u < 1024) && decide (vals.length = 16)
  | .wbFlush sector => decide (sector < 2 ^ 40)
  | .garbageCollection shank | .wearLevelling shank => decide (shank < 2)
  | .setReady n _ _ => decide (n < 8)
  | .rdShared agent _ line dom _ | .rdOwn agent _ line dom _ | .rdOnce agent _ line dom | .evict agent _ line dom =>
    decide (agent < 128) && decide (line < 2 ^ 46) && decide (dom < 64)
  | .wrInv agent _ line dom data | .wrBack agent _ line dom data _ =>
    decide (agent < 128) && decide (line < 2 ^ 46) && decide (dom < 64) && decide (data.length = 64)
  | .wrPtl agent _ line dom mask data =>
    decide (agent < 128) && decide (line < 2 ^ 46) && decide (dom < 64) && decide (mask < 2 ^ 64) && decide (data.length = 64)
  | .wrHint agent _ line dom target data =>
    decide (agent < 128) && decide (line < 2 ^ 46) && decide (dom < 64) && decide (target < 128) && decide (data.length = 64)
  | .rspI agent line _ | .rspS agent line _ | .rspDecline agent line _ | .snoopLate agent line =>
    decide (agent < 128) && decide (line < 2 ^ 46)
  | .rspFwd agent line _ data _ | .rspDirty agent line _ data _ =>
    decide (agent < 128) && decide (line < 2 ^ 46) && decide (data.length = 64)
  | .agentKill agent dom target | .agentRevive agent dom target =>
    decide (agent < 128) && decide (dom < 64) && decide (target < 128)
  | .laneFault lane => decide (lane < 32)
  | .fabricLaneFault port lane => decide (port < 8) && decide (lane < 2)
  | .dataFrame port f => decide (port < 8) && f.wf
  | .acknowledgement dst queue _ _ | .retx dst queue _ _ => decide (dst < 16384) && decide (queue < 8)
  | .guardBand port queue _ => decide (port < 8) && decide (queue < 8)
  | .assign addr comp join => decide (addr < 16384) && decide (comp < 2 ^ 32) && decide (join < 2 ^ 48)
  | .refuseJoin code => decide (code < 256)
  | .declareFailed node epoch => decide (node < 16384) && decide (epoch < 2 ^ 48)
  | .mapActivate epoch => decide (epoch < 2 ^ 48)
  | .rebuild group member => decide (group < 2 ^ 16) && decide (member < 8)
  | .remapCopyDone stack => decide (stack < 12)
  | .d2dLaneFault shank lane => decide (shank < 2) && decide (lane < 64)
  | .scrub line stack pc outcome _ => decide (line < 2 ^ 46) && decide (stack < 12) && decide (pc < 64) && decide (outcome < 4)
  | .retestWave block _ => decide (block < 356)
  | .reconstructionCopy src addr _ => decide (src < 16384) && decide (addr < 2 ^ 52)
  | .hotRowFetch table slot _ _ => decide (table < 256) && decide (slot < 2)
  | .mctpMessage _ mtype _ => decide (mtype < 128)

end Sys2Proof
end

