-- ==== Sys2Proof/Laws/PerInstr.lean ====
section
/-! SUPPORT. A law of every command: the domain that a well-formed command names is one of the 64 (R493). -/

namespace Sys2Proof.Laws.Domain

open Sys2Proof

/-- The domain that a command names, as the tag of its sender or of its ring. -/
def dom? : Instr → Option Nat
  | .stitchBoundary _ => none
  | .commitAtRelease => none
  | .commitWrite _ dom _ => some dom
  | .commitWithdraw _ dom _ => some dom
  | .holdSet _ dom => some dom
  | .holdClear _ dom => some dom
  | .atEnSet _ dom => some dom
  | .shadowWrite _ dom _ _ => some dom
  | .regWr _ dom _ _ => some dom
  | .lowRegisterRead _ dom _ => some dom
  | .heldRegisterMessage => none
  | .syncMessage _ _ => none
  | .peerDelayMessage _ _ => none
  | .syncLoss => none
  | .holdoverLimitExceeded _ => none
  | .ppsPulse _ => none
  | .sliceAdmit _ _ _ => none
  | .overrun _ => none
  | .overrunLimit _ _ => none
  | .admitWaitExpiry _ => none
  | .search dom _ => some dom
  | .abort dom _ => some dom
  | .routeWalk _ => none
  | .tableBuild _ => none
  | .escalatedRebuild _ => none
  | .probeHold _ _ => none
  | .sketchPass _ => none
  | .codePass _ => none
  | .sideSlice _ => none
  | .localSelect _ => none
  | .rerankReadIssue _ => none
  | .planeRead _ _ _ _ _ => none
  | .thresholdAdjust _ _ _ _ => none
  | .rerank _ => none
  | .shareRequest _ _ => none
  | .partialMsg _ => none
  | .fanInMerge _ => none
  | .shareWaitTimeout _ _ => none
  | .insert dom _ => some dom
  | .delete dom _ => some dom
  | .insertEncode _ => none
  | .batchCommit => none
  | .compact dom _ => some dom
  | .mainFold _ => none
  | .sideFold _ => none
  | .layoutSwap _ => none
  | .layoutRelease _ _ => none
  | .version dom _ => some dom
  | .versionCurrent _ => none
  | .slotRelease _ => none
  | .routeEdit dom _ => some dom
  | .routeCopy _ => none
  | .gemm dom _ => some dom
  | .elementWiseMap dom _ => some dom
  | .rowReduction dom _ => some dom
  | .gemmSlice _ => none
  | .vectorSlice _ => none
  | .attend dom _ => some dom
  | .kvProjection _ => none
  | .rotateAndWrite _ => none
  | .fusedAttention _ => none
  | .combine _ => none
  | .attnMerge dom _ => some dom
  | .attnPartial _ _ => none
  | .merge _ => none
  | .skiveReread _ _ _ => none
  | .lookup dom _ => some dom
  | .sortByOwner _ => none
  | .lookupShare _ _ => none
  | .pooling _ => none
  | .lookupPartial _ => none
  | .lookupCombine _ => none
  | .embUpdate dom _ => some dom
  | .gradientRow _ _ _ _ _ => none
  | .stepClose dom _ => some dom
  | .stepCloseAt _ => none
  | .sealSend _ => none
  | .sealMsg _ _ _ => none
  | .stepApply _ => none
  | .hotSet dom _ => some dom
  | .hotRefresh _ => none
  | .embVersion dom _ => some dom
  | .embSwap _ => none
  | .nbPooling _ => none
  | .nbApply _ => none
  | .nbRun dom _ => some dom
  | .nbRunSlice _ => none
  | .nop _ _ => none
  | .endI _ _ => none
  | .set _ _ => none
  | .ldw _ _ => none
  | .lde _ _ => none
  | .ld _ _ _ => none
  | .st _ _ => none
  | .add _ _ => none
  | .mul _ _ => none
  | .fma _ _ => none
  | .act _ _ => none
  | .lacc _ _ _ => none
  | .loop _ _ => none
  | .br _ _ => none
  | .laceBeat _ _ _ _ _ => none
  | .bankRefresh _ _ => none
  | .forcedPreemption _ _ => none
  | .migration => none
  | .pageLanded _ _ => none
  | .writebackDurable _ => none
  | .wbFlush _ => none
  | .willneed dom _ => some dom
  | .cold dom _ => some dom
  | .pin dom _ => some dom
  | .unpin dom _ => some dom
  | .sync dom _ => some dom
  | .discard dom _ => some dom
  | .setHint dom _ => some dom
  | .journalRead dom _ => some dom
  | .journalFlush => none
  | .runDurable _ _ => none
  | .parityDelta _ _ => none
  | .superblockVerify _ _ _ => none
  | .garbageCollection _ => none
  | .wearLevelling _ => none
  | .readDisturb _ => none
  | .patrolRead _ _ => none
  | .programFail _ _ _ => none
  | .mapRebuild _ _ => none
  | .setReady _ _ _ => none
  | .rdShared _ _ _ dom _ => some dom
  | .rdOwn _ _ _ dom _ => some dom
  | .rdOnce _ _ _ dom => some dom
  | .wrInv _ _ _ dom _ => some dom
  | .wrPtl _ _ _ dom _ _ => some dom
  | .wrBack _ _ _ dom _ _ => some dom
  | .evict _ _ _ dom => some dom
  | .wrHint _ _ _ dom _ _ => some dom
  | .rspI _ _ _ => none
  | .rspS _ _ _ => none
  | .rspFwd _ _ _ _ _ => none
  | .rspDirty _ _ _ _ _ => none
  | .rspDecline _ _ _ => none
  | .snoopLate _ _ => none
  | .agentKill _ dom _ => some dom
  | .agentRevive _ dom _ => some dom
  | .reclaimWalkEnd => none
  | .ringWatchRead dom _ => some dom
  | .linkTraining => none
  | .linkTrained _ => none
  | .retrainTimeout => none
  | .partnerLoss => none
  | .flitReplay => none
  | .laneFault _ => none
  | .portUp _ => none
  | .portDown _ => none
  | .fabricLaneFault _ _ => none
  | .dataFrame _ _ => none
  | .acknowledgement _ _ _ _ => none
  | .retx _ _ _ _ => none
  | .egressSelect _ _ => none
  | .gateEntry _ _ => none
  | .guardBand _ _ _ => none
  | .timeMessage _ _ _ => none
  | .joinReq => none
  | .assign _ _ _ => none
  | .refuseJoin _ => none
  | .joinEpoch => none
  | .declareFailed _ _ => none
  | .mapWrite _ _ => none
  | .mapActivate _ => none
  | .mapActivation => none
  | .rebuild _ _ => none
  | .rebuilt => none
  | .retirement _ _ => none
  | .remapCopyDone _ => none
  | .d2dLaneFault _ _ => none
  | .scrub _ _ _ _ _ => none
  | .awlSlice _ _ => none
  | .eyeMeasurement _ _ _ _ => none
  | .opticalPoll _ _ _ => none
  | .droop => none
  | .wedged _ _ => none
  | .pldmResend => none
  | .nodeReset _ => none
  | .resetRelease => none
  | .trainingDone _ _ => none
  | .bistWave _ => none
  | .waveSplit _ => none
  | .retestWave _ _ => none
  | .halfSole1 => none
  | .halfSole2 => none
  | .full => none
  | .modEnAssert => none
  | .rampDone => none
  | .modEnDeassert => none
  | .railOutOfBand => none
  | .inputUndervoltage _ => none
  | .hardwareThermalShutdown _ _ => none
  | .attestReady => none
  | .getInfo => none
  | .slotWrite => none
  | .slotTry => none
  | .retireRead => none
  | .retireClear => none
  | .keyGen => none
  | .keyImport => none
  | .keyLoad => none
  | .keyErase => none
  | .imageKeyProvision => none
  | .imageKeyRevoke => none
  | .secFloorRaise => none
  | .attest _ => none
  | .attestCertCmd => none
  | .portTraining _ => none
  | .reconstructionCopy _ _ _ => none
  | .journalTransfer _ _ => none
  | .dropReport _ _ _ => none
  | .hotRowFetch _ _ _ _ => none
  | .eventAcknowledgement _ => none
  | .mctpMessage _ _ _ => none
  | .managementPortDown _ => none

/-- A well-formed command names a domain below 64, if it names one. -/
def Statement (i : Instr) : Prop := i.wellFormed = true → ∀ d, dom? i = some d → d < 64

theorem statement_all (i : Instr) : Statement i := by
  intro h d e
  cases i
  all_goals cases e
  all_goals
    simp only [Instr.wellFormed, Bool.and_eq_true, decide_eq_true_eq] at h
    omega

theorem stitchBoundary (inp) : Statement (.stitchBoundary inp) := statement_all _
theorem commitAtRelease : Statement (.commitAtRelease) := statement_all _
theorem commitWrite (agent dom b) : Statement (.commitWrite agent dom b) := statement_all _
theorem commitWithdraw (agent dom b) : Statement (.commitWithdraw agent dom b) := statement_all _
theorem holdSet (agent dom) : Statement (.holdSet agent dom) := statement_all _
theorem holdClear (agent dom) : Statement (.holdClear agent dom) := statement_all _
theorem atEnSet (agent dom) : Statement (.atEnSet agent dom) := statement_all _
theorem shadowWrite (agent dom off data) : Statement (.shadowWrite agent dom off data) := statement_all _
theorem regWr (agent dom off data) : Statement (.regWr agent dom off data) := statement_all _
theorem lowRegisterRead (agent dom off) : Statement (.lowRegisterRead agent dom off) := statement_all _
theorem heldRegisterMessage : Statement (.heldRegisterMessage) := statement_all _
theorem syncMessage (offsetNs seconds) : Statement (.syncMessage offsetNs seconds) := statement_all _
theorem peerDelayMessage (port delayNs) : Statement (.peerDelayMessage port delayNs) := statement_all _
theorem syncLoss : Statement (.syncLoss) := statement_all _
theorem holdoverLimitExceeded (errorNs) : Statement (.holdoverLimitExceeded errorNs) := statement_all _
theorem ppsPulse (second) : Statement (.ppsPulse second) := statement_all _
theorem sliceAdmit (kind idx start) : Statement (.sliceAdmit kind idx start) := statement_all _
theorem overrun (sid) : Statement (.overrun sid) := statement_all _
theorem overrunLimit (e idx) : Statement (.overrunLimit e idx) := statement_all _
theorem admitWaitExpiry (job) : Statement (.admitWaitExpiry job) := statement_all _
theorem search (dom ring) : Statement (.search dom ring) := statement_all _
theorem abort (dom ring) : Statement (.abort dom ring) := statement_all _
theorem routeWalk (sid) : Statement (.routeWalk sid) := statement_all _
theorem tableBuild (sid) : Statement (.tableBuild sid) := statement_all _
theorem escalatedRebuild (sid) : Statement (.escalatedRebuild sid) := statement_all _
theorem probeHold (coll part) : Statement (.probeHold coll part) := statement_all _
theorem sketchPass (sid) : Statement (.sketchPass sid) := statement_all _
theorem codePass (sid) : Statement (.codePass sid) := statement_all _
theorem sideSlice (sid) : Statement (.sideSlice sid) := statement_all _
theorem localSelect (sid) : Statement (.localSelect sid) := statement_all _
theorem rerankReadIssue (job) : Statement (.rerankReadIssue job) := statement_all _
theorem planeRead (job cand channel step retries) : Statement (.planeRead job cand channel step retries) := statement_all _
theorem thresholdAdjust (channel lun bin up) : Statement (.thresholdAdjust channel lun bin up) := statement_all _
theorem rerank (sid) : Statement (.rerank sid) := statement_all _
theorem shareRequest (src req) : Statement (.shareRequest src req) := statement_all _
theorem partialMsg (msg) : Statement (.partialMsg msg) := statement_all _
theorem fanInMerge (sid) : Statement (.fanInMerge sid) := statement_all _
theorem shareWaitTimeout (lookup n) : Statement (.shareWaitTimeout lookup n) := statement_all _
theorem insert (dom ring) : Statement (.insert dom ring) := statement_all _
theorem delete (dom ring) : Statement (.delete dom ring) := statement_all _
theorem insertEncode (sid) : Statement (.insertEncode sid) := statement_all _
theorem batchCommit : Statement (.batchCommit) := statement_all _
theorem compact (dom ring) : Statement (.compact dom ring) := statement_all _
theorem mainFold (sid) : Statement (.mainFold sid) := statement_all _
theorem sideFold (sid) : Statement (.sideFold sid) := statement_all _
theorem layoutSwap (job) : Statement (.layoutSwap job) := statement_all _
theorem layoutRelease (coll part) : Statement (.layoutRelease coll part) := statement_all _
theorem version (dom ring) : Statement (.version dom ring) := statement_all _
theorem versionCurrent (coll) : Statement (.versionCurrent coll) := statement_all _
theorem slotRelease (coll) : Statement (.slotRelease coll) := statement_all _
theorem routeEdit (dom ring) : Statement (.routeEdit dom ring) := statement_all _
theorem routeCopy (sid) : Statement (.routeCopy sid) := statement_all _
theorem gemm (dom ring) : Statement (.gemm dom ring) := statement_all _
theorem elementWiseMap (dom ring) : Statement (.elementWiseMap dom ring) := statement_all _
theorem rowReduction (dom ring) : Statement (.rowReduction dom ring) := statement_all _
theorem gemmSlice (sid) : Statement (.gemmSlice sid) := statement_all _
theorem vectorSlice (sid) : Statement (.vectorSlice sid) := statement_all _
theorem attend (dom ring) : Statement (.attend dom ring) := statement_all _
theorem kvProjection (sid) : Statement (.kvProjection sid) := statement_all _
theorem rotateAndWrite (sid) : Statement (.rotateAndWrite sid) := statement_all _
theorem fusedAttention (sid) : Statement (.fusedAttention sid) := statement_all _
theorem combine (sid) : Statement (.combine sid) := statement_all _
theorem attnMerge (dom ring) : Statement (.attnMerge dom ring) := statement_all _
theorem attnPartial (mergeSlot msg) : Statement (.attnPartial mergeSlot msg) := statement_all _
theorem merge (sid) : Statement (.merge sid) := statement_all _
theorem skiveReread (page block ok) : Statement (.skiveReread page block ok) := statement_all _
theorem lookup (dom ring) : Statement (.lookup dom ring) := statement_all _
theorem sortByOwner (sid) : Statement (.sortByOwner sid) := statement_all _
theorem lookupShare (src req) : Statement (.lookupShare src req) := statement_all _
theorem pooling (sid) : Statement (.pooling sid) := statement_all _
theorem lookupPartial (msg) : Statement (.lookupPartial msg) := statement_all _
theorem lookupCombine (sid) : Statement (.lookupCombine sid) := statement_all _
theorem embUpdate (dom ring) : Statement (.embUpdate dom ring) := statement_all _
theorem gradientRow (src table step row g) : Statement (.gradientRow src table step row g) := statement_all _
theorem stepClose (dom ring) : Statement (.stepClose dom ring) := statement_all _
theorem stepCloseAt (table) : Statement (.stepCloseAt table) := statement_all _
theorem sealSend (table) : Statement (.sealSend table) := statement_all _
theorem sealMsg (src table step) : Statement (.sealMsg src table step) := statement_all _
theorem stepApply (sid) : Statement (.stepApply sid) := statement_all _
theorem hotSet (dom ring) : Statement (.hotSet dom ring) := statement_all _
theorem hotRefresh (table) : Statement (.hotRefresh table) := statement_all _
theorem embVersion (dom ring) : Statement (.embVersion dom ring) := statement_all _
theorem embSwap (table) : Statement (.embSwap table) := statement_all _
theorem nbPooling (sid) : Statement (.nbPooling sid) := statement_all _
theorem nbApply (sid) : Statement (.nbApply sid) := statement_all _
theorem nbRun (dom ring) : Statement (.nbRun dom ring) := statement_all _
theorem nbRunSlice (sid) : Statement (.nbRunSlice sid) := statement_all _
theorem nop (k u) : Statement (.nop k u) := statement_all _
theorem endI (k u) : Statement (.endI k u) := statement_all _
theorem set (k u) : Statement (.set k u) := statement_all _
theorem ldw (k u) : Statement (.ldw k u) := statement_all _
theorem lde (k u) : Statement (.lde k u) := statement_all _
theorem ld (k u err) : Statement (.ld k u err) := statement_all _
theorem st (k u) : Statement (.st k u) := statement_all _
theorem add (k u) : Statement (.add k u) := statement_all _
theorem mul (k u) : Statement (.mul k u) := statement_all _
theorem fma (k u) : Statement (.fma k u) := statement_all _
theorem act (k u) : Statement (.act k u) := statement_all _
theorem lacc (k u err) : Statement (.lacc k u err) := statement_all _
theorem loop (k u) : Statement (.loop k u) := statement_all _
theorem br (k u) : Statement (.br k u) := statement_all _
theorem laceBeat (k u train vals poison) : Statement (.laceBeat k u train vals poison) := statement_all _
theorem bankRefresh (k u) : Statement (.bankRefresh k u) := statement_all _
theorem forcedPreemption (k u) : Statement (.forcedPreemption k u) := statement_all _
theorem migration : Statement (.migration) := statement_all _
theorem pageLanded (page badSectors) : Statement (.pageLanded page badSectors) := statement_all _
theorem writebackDurable (page) : Statement (.writebackDurable page) := statement_all _
theorem wbFlush (sector) : Statement (.wbFlush sector) := statement_all _
theorem willneed (dom ring) : Statement (.willneed dom ring) := statement_all _
theorem cold (dom ring) : Statement (.cold dom ring) := statement_all _
theorem pin (dom ring) : Statement (.pin dom ring) := statement_all _
theorem unpin (dom ring) : Statement (.unpin dom ring) := statement_all _
theorem sync (dom ring) : Statement (.sync dom ring) := statement_all _
theorem discard (dom ring) : Statement (.discard dom ring) := statement_all _
theorem setHint (dom ring) : Statement (.setHint dom ring) := statement_all _
theorem journalRead (dom ring) : Statement (.journalRead dom ring) := statement_all _
theorem journalFlush : Statement (.journalFlush) := statement_all _
theorem runDurable (run sb) : Statement (.runDurable run sb) := statement_all _
theorem parityDelta (src msg) : Statement (.parityDelta src msg) := statement_all _
theorem superblockVerify (sb weak rebuilt) : Statement (.superblockVerify sb weak rebuilt) := statement_all _
theorem garbageCollection (shank) : Statement (.garbageCollection shank) := statement_all _
theorem wearLevelling (shank) : Statement (.wearLevelling shank) := statement_all _
theorem readDisturb (sb) : Statement (.readDisturb sb) := statement_all _
theorem patrolRead (sb soft) : Statement (.patrolRead sb soft) := statement_all _
theorem programFail (sb channel erase) : Statement (.programFail sb channel erase) := statement_all _
theorem mapRebuild (sbTotal userGb) : Statement (.mapRebuild sbTotal userGb) := statement_all _
theorem setReady (set torn bad) : Statement (.setReady set torn bad) := statement_all _
theorem rdShared (agent txn line dom dirErr) : Statement (.rdShared agent txn line dom dirErr) := statement_all _
theorem rdOwn (agent txn line dom dirErr) : Statement (.rdOwn agent txn line dom dirErr) := statement_all _
theorem rdOnce (agent txn line dom) : Statement (.rdOnce agent txn line dom) := statement_all _
theorem wrInv (agent txn line dom data) : Statement (.wrInv agent txn line dom data) := statement_all _
theorem wrPtl (agent txn line dom mask data) : Statement (.wrPtl agent txn line dom mask data) := statement_all _
theorem wrBack (agent txn line dom data poison) : Statement (.wrBack agent txn line dom data poison) := statement_all _
theorem evict (agent txn line dom) : Statement (.evict agent txn line dom) := statement_all _
theorem wrHint (agent txn line dom target data) : Statement (.wrHint agent txn line dom target data) := statement_all _
theorem rspI (agent line attempt) : Statement (.rspI agent line attempt) := statement_all _
theorem rspS (agent line attempt) : Statement (.rspS agent line attempt) := statement_all _
theorem rspFwd (agent line attempt data poison) : Statement (.rspFwd agent line attempt data poison) := statement_all _
theorem rspDirty (agent line attempt data poison) : Statement (.rspDirty agent line attempt data poison) := statement_all _
theorem rspDecline (agent line attempt) : Statement (.rspDecline agent line attempt) := statement_all _
theorem snoopLate (agent line) : Statement (.snoopLate agent line) := statement_all _
theorem agentKill (agent dom target) : Statement (.agentKill agent dom target) := statement_all _
theorem agentRevive (agent dom target) : Statement (.agentRevive agent dom target) := statement_all _
theorem reclaimWalkEnd : Statement (.reclaimWalkEnd) := statement_all _
theorem ringWatchRead (dom ring) : Statement (.ringWatchRead dom ring) := statement_all _
theorem linkTraining : Statement (.linkTraining) := statement_all _
theorem linkTrained (wide) : Statement (.linkTrained wide) := statement_all _
theorem retrainTimeout : Statement (.retrainTimeout) := statement_all _
theorem partnerLoss : Statement (.partnerLoss) := statement_all _
theorem flitReplay : Statement (.flitReplay) := statement_all _
theorem laneFault (lane) : Statement (.laneFault lane) := statement_all _
theorem portUp (port) : Statement (.portUp port) := statement_all _
theorem portDown (port) : Statement (.portDown port) := statement_all _
theorem fabricLaneFault (port lane) : Statement (.fabricLaneFault port lane) := statement_all _
theorem dataFrame (port f) : Statement (.dataFrame port f) := statement_all _
theorem acknowledgement (dst queue msgNo idx) : Statement (.acknowledgement dst queue msgNo idx) := statement_all _
theorem retx (dst queue msgNo idx) : Statement (.retx dst queue msgNo idx) := statement_all _
theorem egressSelect (port t) : Statement (.egressSelect port t) := statement_all _
theorem gateEntry (port t) : Statement (.gateEntry port t) := statement_all _
theorem guardBand (port queue t) : Statement (.guardBand port queue t) := statement_all _
theorem timeMessage (port t bytes) : Statement (.timeMessage port t bytes) := statement_all _
theorem joinReq : Statement (.joinReq) := statement_all _
theorem assign (addr comp join) : Statement (.assign addr comp join) := statement_all _
theorem refuseJoin (code) : Statement (.refuseJoin code) := statement_all _
theorem joinEpoch : Statement (.joinEpoch) := statement_all _
theorem declareFailed (node epoch) : Statement (.declareFailed node epoch) := statement_all _
theorem mapWrite (offset data) : Statement (.mapWrite offset data) := statement_all _
theorem mapActivate (epoch) : Statement (.mapActivate epoch) := statement_all _
theorem mapActivation : Statement (.mapActivation) := statement_all _
theorem rebuild (group member) : Statement (.rebuild group member) := statement_all _
theorem rebuilt : Statement (.rebuilt) := statement_all _
theorem retirement (kind idx) : Statement (.retirement kind idx) := statement_all _
theorem remapCopyDone (stack) : Statement (.remapCopyDone stack) := statement_all _
theorem d2dLaneFault (shank lane) : Statement (.d2dLaneFault shank lane) := statement_all _
theorem scrub (line stack pc outcome bytes) : Statement (.scrub line stack pc outcome bytes) := statement_all _
theorem awlSlice (sid pass) : Statement (.awlSlice sid pass) := statement_all _
theorem eyeMeasurement (wymer lane mv mui) : Statement (.eyeMeasurement wymer lane mv mui) := statement_all _
theorem opticalPoll (module power low) : Statement (.opticalPoll module power low) := statement_all _
theorem droop : Statement (.droop) := statement_all _
theorem wedged (kind idx) : Statement (.wedged kind idx) := statement_all _
theorem pldmResend : Statement (.pldmResend) := statement_all _
theorem nodeReset (pulseNs) : Statement (.nodeReset pulseNs) := statement_all _
theorem resetRelease : Statement (.resetRelease) := statement_all _
theorem trainingDone (d2dOk channels) : Statement (.trainingDone d2dOk channels) := statement_all _
theorem bistWave (w) : Statement (.bistWave w) := statement_all _
theorem waveSplit (powerW) : Statement (.waveSplit powerW) := statement_all _
theorem retestWave (block pass) : Statement (.retestWave block pass) := statement_all _
theorem halfSole1 : Statement (.halfSole1) := statement_all _
theorem halfSole2 : Statement (.halfSole2) := statement_all _
theorem full : Statement (.full) := statement_all _
theorem modEnAssert : Statement (.modEnAssert) := statement_all _
theorem rampDone : Statement (.rampDone) := statement_all _
theorem modEnDeassert : Statement (.modEnDeassert) := statement_all _
theorem railOutOfBand : Statement (.railOutOfBand) := statement_all _
theorem inputUndervoltage (ns) : Statement (.inputUndervoltage ns) := statement_all _
theorem hardwareThermalShutdown (dieC stackC) : Statement (.hardwareThermalShutdown dieC stackC) := statement_all _
theorem attestReady : Statement (.attestReady) := statement_all _
theorem getInfo : Statement (.getInfo) := statement_all _
theorem slotWrite : Statement (.slotWrite) := statement_all _
theorem slotTry : Statement (.slotTry) := statement_all _
theorem retireRead : Statement (.retireRead) := statement_all _
theorem retireClear : Statement (.retireClear) := statement_all _
theorem keyGen : Statement (.keyGen) := statement_all _
theorem keyImport : Statement (.keyImport) := statement_all _
theorem keyLoad : Statement (.keyLoad) := statement_all _
theorem keyErase : Statement (.keyErase) := statement_all _
theorem imageKeyProvision : Statement (.imageKeyProvision) := statement_all _
theorem imageKeyRevoke : Statement (.imageKeyRevoke) := statement_all _
theorem secFloorRaise : Statement (.secFloorRaise) := statement_all _
theorem attest (sinceS) : Statement (.attest sinceS) := statement_all _
theorem attestCertCmd : Statement (.attestCertCmd) := statement_all _
theorem portTraining (port) : Statement (.portTraining port) := statement_all _
theorem reconstructionCopy (src addr units) : Statement (.reconstructionCopy src addr units) := statement_all _
theorem journalTransfer (src vectors) : Statement (.journalTransfer src vectors) := statement_all _
theorem dropReport (table step row) : Statement (.dropReport table step row) := statement_all _
theorem hotRowFetch (table slot row data) : Statement (.hotRowFetch table slot row data) := statement_all _
theorem eventAcknowledgement (seq) : Statement (.eventAcknowledgement seq) := statement_all _
theorem mctpMessage (viaSmbus mtype body) : Statement (.mctpMessage viaSmbus mtype body) := statement_all _
theorem managementPortDown (down) : Statement (.managementPortDown down) := statement_all _

end Sys2Proof.Laws.Domain
end

