-- ==== Sys2Proof/Tests/Slice0.lean ====
section
/-! SUPPORT. Tests: ill-formed commands that are refused, and for each statement states and operands that meet its conditions. -/

namespace Sys2Proof

/-! Ill-formed commands that the check refuses. -/

theorem test_refuses_commit_agent : (.commitWrite 128 0 .global : Instr).wellFormed = false := by decide
theorem test_refuses_commit_dom : (.commitWithdraw 0 64 .global : Instr).wellFormed = false := by decide
theorem test_refuses_commit_block : (.commitWrite 0 0 (.port 8) : Instr).wellFormed = false := by decide
theorem test_refuses_commit_kstack : (.commitWrite 0 0 (.kstack 4) : Instr).wellFormed = false := by decide
theorem test_refuses_hold_agent : (.holdSet 128 0 : Instr).wellFormed = false := by decide
theorem test_refuses_hold_dom : (.atEnSet 0 64 : Instr).wellFormed = false := by decide
theorem test_refuses_reg_offset : (.regWr 0 0 (2 ^ 32) 0 : Instr).wellFormed = false := by decide
theorem test_refuses_reg_data : (.shadowWrite 0 0 0 (2 ^ 32) : Instr).wellFormed = false := by decide
theorem test_refuses_low_offset : (.lowRegisterRead 0 0 (2 ^ 32) : Instr).wellFormed = false := by decide
theorem test_refuses_port : (.portUp 8 : Instr).wellFormed = false := by decide
theorem test_refuses_gate_port : (.gateEntry 8 0 : Instr).wellFormed = false := by decide
theorem test_refuses_slice_index : (.sliceAdmit (.routeWalk 0 1) 64 0 : Instr).wellFormed = false := by decide
theorem test_refuses_slice_kind : (.sliceAdmit (.awl 356) 0 0 : Instr).wellFormed = false := by decide
theorem test_refuses_overrun_block : (.overrunLimit .sorter 4 : Instr).wellFormed = false := by decide
theorem test_refuses_ring_dom : (.search 64 0 : Instr).wellFormed = false := by decide
theorem test_refuses_ring_number : (.lookup 0 8 : Instr).wellFormed = false := by decide
theorem test_refuses_hold_coll : (.probeHold 1024 0 : Instr).wellFormed = false := by decide
theorem test_refuses_hold_part : (.layoutRelease 0 (2 ^ 20) : Instr).wellFormed = false := by decide
theorem test_refuses_channel : (.thresholdAdjust 32 0 0 true : Instr).wellFormed = false := by decide
theorem test_refuses_coll : (.versionCurrent 1024 : Instr).wellFormed = false := by decide
theorem test_refuses_page : (.writebackDurable (2 ^ 36) : Instr).wellFormed = false := by decide
theorem test_refuses_table : (.hotRefresh 256 : Instr).wellFormed = false := by decide
theorem test_refuses_grad_src : (.gradientRow 16384 0 0 0 [] : Instr).wellFormed = false := by decide
theorem test_refuses_seal_table : (.sealMsg 0 256 0 : Instr).wellFormed = false := by decide
theorem test_refuses_unit_k : (.nop 4 0 : Instr).wellFormed = false := by decide
theorem test_refuses_unit_u : (.br 0 1024 : Instr).wellFormed = false := by decide
theorem test_refuses_load_err : (.ld 0 0 3 : Instr).wellFormed = false := by decide
theorem test_refuses_lace_width : (.laceBeat 0 0 0 [] false : Instr).wellFormed = false := by decide
theorem test_refuses_sector : (.wbFlush (2 ^ 40) : Instr).wellFormed = false := by decide
theorem test_refuses_shank : (.garbageCollection 2 : Instr).wellFormed = false := by decide
theorem test_refuses_set : (.setReady 8 0 [] : Instr).wellFormed = false := by decide
theorem test_refuses_line : (.evict 0 0 (2 ^ 46) 0 : Instr).wellFormed = false := by decide
theorem test_refuses_line_data : (.wrInv 0 0 0 0 [] : Instr).wellFormed = false := by decide
theorem test_refuses_mask : (.wrPtl 0 0 0 0 (2 ^ 64) (List.replicate 64 0#8) : Instr).wellFormed = false := by decide
theorem test_refuses_hint_target : (.wrHint 0 0 0 0 128 (List.replicate 64 0#8) : Instr).wellFormed = false := by decide
theorem test_refuses_snoop_agent : (.snoopLate 128 0 : Instr).wellFormed = false := by decide
theorem test_refuses_kill_target : (.agentKill 0 0 128 : Instr).wellFormed = false := by decide
theorem test_refuses_lane : (.laneFault 32 : Instr).wellFormed = false := by decide
theorem test_refuses_port_lane : (.fabricLaneFault 0 2 : Instr).wellFormed = false := by decide
theorem test_refuses_ack_dst : (.acknowledgement 16384 0 0 0 : Instr).wellFormed = false := by decide
theorem test_refuses_guard_queue : (.guardBand 0 8 0 : Instr).wellFormed = false := by decide
theorem test_refuses_assign_addr : (.assign 16384 0 0 : Instr).wellFormed = false := by decide
theorem test_refuses_refuse_code : (.refuseJoin 256 : Instr).wellFormed = false := by decide
theorem test_refuses_failed_node : (.declareFailed 16384 0 : Instr).wellFormed = false := by decide
theorem test_refuses_map_epoch : (.mapActivate (2 ^ 48) : Instr).wellFormed = false := by decide
theorem test_refuses_group_member : (.rebuild 0 8 : Instr).wellFormed = false := by decide
theorem test_refuses_stack : (.remapCopyDone 12 : Instr).wellFormed = false := by decide
theorem test_refuses_d2d_lane : (.d2dLaneFault 0 64 : Instr).wellFormed = false := by decide
theorem test_refuses_retest_block : (.retestWave 356 true : Instr).wellFormed = false := by decide
theorem test_refuses_hot_slot : (.hotRowFetch 0 2 0 [] : Instr).wellFormed = false := by decide
theorem test_accepts_ring : (.search 63 7 : Instr).wellFormed = true := by decide
theorem test_accepts_unit : (.br 3 1023 : Instr).wellFormed = true := by decide

end Sys2Proof
end

section
/-! The queue of commands: a step takes its front (log entry 32), and no command writes it. -/

namespace Sys2Proof.Machine

open Sys2Proof

/-- Settles O1: with a command at its front, the queue takes the second branch of `step`. -/
theorem stepRunsTheFront : Obligations.StepRunsTheFront := by
  intro c rest s hfront
  rw [step, hfront]

/-- Every command writes only the areas that `writesOf` names, keeps the maps canonical and takes no free index back: the
law of each row, put together along the dispatch. -/
theorem exec_agree {c : Instr} {s t : State} (he : exec c s = .next t) : Agree (writesOf c) s t := by
  cases c with
  | stitchBoundary _ => exact execStitchBoundary_agree he (List.Subset.refl _) (.refl _ s)
  | commitAtRelease => exact execCommitAtRelease_agree he (List.Subset.refl _) (.refl _ s)
  | commitWrite _ _ _ => exact execCommitWrite_agree he (List.Subset.refl _) (.refl _ s)
  | commitWithdraw _ _ _ => exact execCommitWithdraw_agree he (List.Subset.refl _) (.refl _ s)
  | holdSet _ _ => exact execHoldSet_agree he (List.Subset.refl _) (.refl _ s)
  | holdClear _ _ => exact execHoldClear_agree he (List.Subset.refl _) (.refl _ s)
  | atEnSet _ _ => exact execAtEnSet_agree he (List.Subset.refl _) (.refl _ s)
  | shadowWrite _ _ _ _ => exact execShadowWrite_agree he (List.Subset.refl _) (.refl _ s)
  | regWr _ _ _ _ => exact execRegWr_agree he (List.Subset.refl _) (.refl _ s)
  | lowRegisterRead _ _ _ => exact execLowRegisterRead_agree he (List.Subset.refl _) (.refl _ s)
  | heldRegisterMessage => exact execHeldRegisterMessage_agree he (List.Subset.refl _) (.refl _ s)
  | syncMessage _ _ => exact execSyncMessage_agree he (List.Subset.refl _) (.refl _ s)
  | peerDelayMessage _ _ => exact execPeerDelayMessage_agree he (List.Subset.refl _) (.refl _ s)
  | syncLoss => exact execSyncLoss_agree he (List.Subset.refl _) (.refl _ s)
  | holdoverLimitExceeded _ => exact execHoldoverLimitExceeded_agree he (List.Subset.refl _) (.refl _ s)
  | ppsPulse _ => exact execPpsPulse_agree he (List.Subset.refl _) (.refl _ s)
  | sliceAdmit _ _ _ => exact execSliceAdmit_agree he (List.Subset.refl _) (.refl _ s)
  | overrun _ => exact execOverrun_agree he (List.Subset.refl _) (.refl _ s)
  | overrunLimit _ _ => exact execOverrunLimit_agree he (List.Subset.refl _) (.refl _ s)
  | admitWaitExpiry _ => exact execAdmitWaitExpiry_agree he (List.Subset.refl _) (.refl _ s)
  | search _ _ => exact execSearch_agree he (List.Subset.refl _) (.refl _ s)
  | abort _ _ => exact execAbort_agree he (List.Subset.refl _) (.refl _ s)
  | routeWalk _ => exact execRouteWalk_agree he (List.Subset.refl _) (.refl _ s)
  | tableBuild _ => exact execTableBuild_agree he (List.Subset.refl _) (.refl _ s)
  | escalatedRebuild _ => exact execEscalatedRebuild_agree he (List.Subset.refl _) (.refl _ s)
  | probeHold _ _ => exact execProbeHold_agree he (List.Subset.refl _) (.refl _ s)
  | sketchPass _ => exact execSketchPass_agree he (List.Subset.refl _) (.refl _ s)
  | codePass _ => exact execCodePass_agree he (List.Subset.refl _) (.refl _ s)
  | sideSlice _ => exact execSideSlice_agree he (List.Subset.refl _) (.refl _ s)
  | localSelect _ => exact execLocalSelect_agree he (List.Subset.refl _) (.refl _ s)
  | rerankReadIssue _ => exact execRerankReadIssue_agree he (List.Subset.refl _) (.refl _ s)
  | planeRead _ _ _ _ _ => exact execPlaneRead_agree he (List.Subset.refl _) (.refl _ s)
  | thresholdAdjust _ _ _ _ => exact execThresholdAdjust_agree he (List.Subset.refl _) (.refl _ s)
  | rerank _ => exact execRerank_agree he (List.Subset.refl _) (.refl _ s)
  | shareRequest _ _ => exact execShareRequest_agree he (List.Subset.refl _) (.refl _ s)
  | partialMsg _ => exact execPartialMsg_agree he (List.Subset.refl _) (.refl _ s)
  | fanInMerge _ => exact execFanInMerge_agree he (List.Subset.refl _) (.refl _ s)
  | shareWaitTimeout _ _ => exact execShareWaitTimeout_agree he (List.Subset.refl _) (.refl _ s)
  | insert _ _ => exact execInsert_agree he (List.Subset.refl _) (.refl _ s)
  | delete _ _ => exact execDelete_agree he (List.Subset.refl _) (.refl _ s)
  | insertEncode _ => exact execInsertEncode_agree he (List.Subset.refl _) (.refl _ s)
  | batchCommit => exact execBatchCommit_agree he (List.Subset.refl _) (.refl _ s)
  | compact _ _ => exact execCompact_agree he (List.Subset.refl _) (.refl _ s)
  | mainFold _ => exact execMainFold_agree he (List.Subset.refl _) (.refl _ s)
  | sideFold _ => exact execSideFold_agree he (List.Subset.refl _) (.refl _ s)
  | layoutSwap _ => exact execLayoutSwap_agree he (List.Subset.refl _) (.refl _ s)
  | layoutRelease _ _ => exact execLayoutRelease_agree he (List.Subset.refl _) (.refl _ s)
  | version _ _ => exact execVersion_agree he (List.Subset.refl _) (.refl _ s)
  | versionCurrent _ => exact execVersionCurrent_agree he (List.Subset.refl _) (.refl _ s)
  | slotRelease _ => exact execSlotRelease_agree he (List.Subset.refl _) (.refl _ s)
  | routeEdit _ _ => exact execRouteEdit_agree he (List.Subset.refl _) (.refl _ s)
  | routeCopy _ => exact execRouteCopy_agree he (List.Subset.refl _) (.refl _ s)
  | gemm _ _ => exact execGemm_agree he (List.Subset.refl _) (.refl _ s)
  | elementWiseMap _ _ => exact execElementWiseMap_agree he (List.Subset.refl _) (.refl _ s)
  | rowReduction _ _ => exact execRowReduction_agree he (List.Subset.refl _) (.refl _ s)
  | gemmSlice _ => exact execGemmSlice_agree he (List.Subset.refl _) (.refl _ s)
  | vectorSlice _ => exact execVectorSlice_agree he (List.Subset.refl _) (.refl _ s)
  | attend _ _ => exact execAttend_agree he (List.Subset.refl _) (.refl _ s)
  | kvProjection _ => exact execKvProjection_agree he (List.Subset.refl _) (.refl _ s)
  | rotateAndWrite _ => exact execRotateAndWrite_agree he (List.Subset.refl _) (.refl _ s)
  | fusedAttention _ => exact execFusedAttention_agree he (List.Subset.refl _) (.refl _ s)
  | combine _ => exact execCombine_agree he (List.Subset.refl _) (.refl _ s)
  | attnMerge _ _ => exact execAttnMerge_agree he (List.Subset.refl _) (.refl _ s)
  | attnPartial _ _ => exact execAttnPartial_agree he (List.Subset.refl _) (.refl _ s)
  | merge _ => exact execMerge_agree he (List.Subset.refl _) (.refl _ s)
  | skiveReread _ _ _ => exact execSkiveReread_agree he (List.Subset.refl _) (.refl _ s)
  | lookup _ _ => exact execLookup_agree he (List.Subset.refl _) (.refl _ s)
  | sortByOwner _ => exact execSortByOwner_agree he (List.Subset.refl _) (.refl _ s)
  | lookupShare _ _ => exact execLookupShare_agree he (List.Subset.refl _) (.refl _ s)
  | pooling _ => exact execPooling_agree he (List.Subset.refl _) (.refl _ s)
  | lookupPartial _ => exact execLookupPartial_agree he (List.Subset.refl _) (.refl _ s)
  | lookupCombine _ => exact execLookupCombine_agree he (List.Subset.refl _) (.refl _ s)
  | embUpdate _ _ => exact execEmbUpdate_agree he (List.Subset.refl _) (.refl _ s)
  | gradientRow _ _ _ _ _ => exact execGradientRow_agree he (List.Subset.refl _) (.refl _ s)
  | stepClose _ _ => exact execStepClose_agree he (List.Subset.refl _) (.refl _ s)
  | stepCloseAt _ => exact execStepCloseAt_agree he (List.Subset.refl _) (.refl _ s)
  | sealSend _ => exact execSealSend_agree he (List.Subset.refl _) (.refl _ s)
  | sealMsg _ _ _ => exact execSealMsg_agree he (List.Subset.refl _) (.refl _ s)
  | stepApply _ => exact execStepApply_agree he (List.Subset.refl _) (.refl _ s)
  | hotSet _ _ => exact execHotSet_agree he (List.Subset.refl _) (.refl _ s)
  | hotRefresh _ => exact execHotRefresh_agree he (List.Subset.refl _) (.refl _ s)
  | embVersion _ _ => exact execEmbVersion_agree he (List.Subset.refl _) (.refl _ s)
  | embSwap _ => exact execEmbSwap_agree he (List.Subset.refl _) (.refl _ s)
  | nbPooling _ => exact execNbPooling_agree he (List.Subset.refl _) (.refl _ s)
  | nbApply _ => exact execNbApply_agree he (List.Subset.refl _) (.refl _ s)
  | nbRun _ _ => exact execNbRun_agree he (List.Subset.refl _) (.refl _ s)
  | nbRunSlice _ => exact execNbRunSlice_agree he (List.Subset.refl _) (.refl _ s)
  | nop _ _ => exact execNop_agree he (List.Subset.refl _) (.refl _ s)
  | endI _ _ => exact execEndI_agree he (List.Subset.refl _) (.refl _ s)
  | set _ _ => exact execSet_agree he (List.Subset.refl _) (.refl _ s)
  | ldw _ _ => exact execLdw_agree he (List.Subset.refl _) (.refl _ s)
  | lde _ _ => exact execLde_agree he (List.Subset.refl _) (.refl _ s)
  | ld _ _ _ => exact execLd_agree he (List.Subset.refl _) (.refl _ s)
  | st _ _ => exact execSt_agree he (List.Subset.refl _) (.refl _ s)
  | add _ _ => exact execAdd_agree he (List.Subset.refl _) (.refl _ s)
  | mul _ _ => exact execMul_agree he (List.Subset.refl _) (.refl _ s)
  | fma _ _ => exact execFma_agree he (List.Subset.refl _) (.refl _ s)
  | act _ _ => exact execAct_agree he (List.Subset.refl _) (.refl _ s)
  | lacc _ _ _ => exact execLacc_agree he (List.Subset.refl _) (.refl _ s)
  | loop _ _ => exact execLoop_agree he (List.Subset.refl _) (.refl _ s)
  | br _ _ => exact execBr_agree he (List.Subset.refl _) (.refl _ s)
  | laceBeat _ _ _ _ _ => exact execLaceBeat_agree he (List.Subset.refl _) (.refl _ s)
  | bankRefresh _ _ => exact execBankRefresh_agree he (List.Subset.refl _) (.refl _ s)
  | forcedPreemption _ _ => exact execForcedPreemption_agree he (List.Subset.refl _) (.refl _ s)
  | migration => exact execMigration_agree he (List.Subset.refl _) (.refl _ s)
  | pageLanded _ _ => exact execPageLanded_agree he (List.Subset.refl _) (.refl _ s)
  | writebackDurable _ => exact execWritebackDurable_agree he (List.Subset.refl _) (.refl _ s)
  | wbFlush _ => exact execWbFlush_agree he (List.Subset.refl _) (.refl _ s)
  | willneed _ _ => exact execWillneed_agree he (List.Subset.refl _) (.refl _ s)
  | cold _ _ => exact execCold_agree he (List.Subset.refl _) (.refl _ s)
  | pin _ _ => exact execPin_agree he (List.Subset.refl _) (.refl _ s)
  | unpin _ _ => exact execUnpin_agree he (List.Subset.refl _) (.refl _ s)
  | sync _ _ => exact execSync_agree he (List.Subset.refl _) (.refl _ s)
  | discard _ _ => exact execDiscard_agree he (List.Subset.refl _) (.refl _ s)
  | setHint _ _ => exact execSetHint_agree he (List.Subset.refl _) (.refl _ s)
  | journalRead _ _ => exact execJournalRead_agree he (List.Subset.refl _) (.refl _ s)
  | journalFlush => exact execJournalFlush_agree he (List.Subset.refl _) (.refl _ s)
  | runDurable _ _ => exact execRunDurable_agree he (List.Subset.refl _) (.refl _ s)
  | parityDelta _ _ => exact execParityDelta_agree he (List.Subset.refl _) (.refl _ s)
  | superblockVerify _ _ _ => exact execSuperblockVerify_agree he (List.Subset.refl _) (.refl _ s)
  | garbageCollection _ => exact execGarbageCollection_agree he (List.Subset.refl _) (.refl _ s)
  | wearLevelling _ => exact execWearLevelling_agree he (List.Subset.refl _) (.refl _ s)
  | readDisturb _ => exact execReadDisturb_agree he (List.Subset.refl _) (.refl _ s)
  | patrolRead _ _ => exact execPatrolRead_agree he (List.Subset.refl _) (.refl _ s)
  | programFail _ _ _ => exact execProgramFail_agree he (List.Subset.refl _) (.refl _ s)
  | mapRebuild _ _ => exact execMapRebuild_agree he (List.Subset.refl _) (.refl _ s)
  | setReady _ _ _ => exact execSetReady_agree he (List.Subset.refl _) (.refl _ s)
  | rdShared _ _ _ _ _ => exact execRdShared_agree he (List.Subset.refl _) (.refl _ s)
  | rdOwn _ _ _ _ _ => exact execRdOwn_agree he (List.Subset.refl _) (.refl _ s)
  | rdOnce _ _ _ _ => exact execRdOnce_agree he (List.Subset.refl _) (.refl _ s)
  | wrInv _ _ _ _ _ => exact execWrInv_agree he (List.Subset.refl _) (.refl _ s)
  | wrPtl _ _ _ _ _ _ => exact execWrPtl_agree he (List.Subset.refl _) (.refl _ s)
  | wrBack _ _ _ _ _ _ => exact execWrBack_agree he (List.Subset.refl _) (.refl _ s)
  | evict _ _ _ _ => exact execEvict_agree he (List.Subset.refl _) (.refl _ s)
  | wrHint _ _ _ _ _ _ => exact execWrHint_agree he (List.Subset.refl _) (.refl _ s)
  | rspI _ _ _ => exact execRspI_agree he (List.Subset.refl _) (.refl _ s)
  | rspS _ _ _ => exact execRspS_agree he (List.Subset.refl _) (.refl _ s)
  | rspFwd _ _ _ _ _ => exact execRspFwd_agree he (List.Subset.refl _) (.refl _ s)
  | rspDirty _ _ _ _ _ => exact execRspDirty_agree he (List.Subset.refl _) (.refl _ s)
  | rspDecline _ _ _ => exact execRspDecline_agree he (List.Subset.refl _) (.refl _ s)
  | snoopLate _ _ => exact execSnoopLate_agree he (List.Subset.refl _) (.refl _ s)
  | agentKill _ _ _ => exact execAgentKill_agree he (List.Subset.refl _) (.refl _ s)
  | agentRevive _ _ _ => exact execAgentRevive_agree he (List.Subset.refl _) (.refl _ s)
  | reclaimWalkEnd => exact execReclaimWalkEnd_agree he (List.Subset.refl _) (.refl _ s)
  | ringWatchRead _ _ => exact execRingWatchRead_agree he (List.Subset.refl _) (.refl _ s)
  | linkTraining => exact execLinkTraining_agree he (List.Subset.refl _) (.refl _ s)
  | linkTrained _ => exact execLinkTrained_agree he (List.Subset.refl _) (.refl _ s)
  | retrainTimeout => exact execRetrainTimeout_agree he (List.Subset.refl _) (.refl _ s)
  | partnerLoss => exact execPartnerLoss_agree he (List.Subset.refl _) (.refl _ s)
  | flitReplay => exact execFlitReplay_agree he (List.Subset.refl _) (.refl _ s)
  | laneFault _ => exact execLaneFault_agree he (List.Subset.refl _) (.refl _ s)
  | portUp _ => exact execPortUp_agree he (List.Subset.refl _) (.refl _ s)
  | portDown _ => exact execPortDown_agree he (List.Subset.refl _) (.refl _ s)
  | fabricLaneFault _ _ => exact execFabricLaneFault_agree he (List.Subset.refl _) (.refl _ s)
  | dataFrame _ _ => exact execDataFrame_agree he (List.Subset.refl _) (.refl _ s)
  | acknowledgement _ _ _ _ => exact execAcknowledgement_agree he (List.Subset.refl _) (.refl _ s)
  | retx _ _ _ _ => exact execRetx_agree he (List.Subset.refl _) (.refl _ s)
  | egressSelect _ _ => exact execEgressSelect_agree he (List.Subset.refl _) (.refl _ s)
  | gateEntry _ _ => exact execGateEntry_agree he (List.Subset.refl _) (.refl _ s)
  | guardBand _ _ _ => exact execGuardBand_agree he (List.Subset.refl _) (.refl _ s)
  | timeMessage _ _ _ => exact execTimeMessage_agree he (List.Subset.refl _) (.refl _ s)
  | joinReq => exact execJoinReq_agree he (List.Subset.refl _) (.refl _ s)
  | assign _ _ _ => exact execAssign_agree he (List.Subset.refl _) (.refl _ s)
  | refuseJoin _ => exact execRefuseJoin_agree he (List.Subset.refl _) (.refl _ s)
  | joinEpoch => exact execJoinEpoch_agree he (List.Subset.refl _) (.refl _ s)
  | declareFailed _ epoch => exact execDeclareFailed_agree (_epoch := epoch) he (List.Subset.refl _) (.refl _ s)
  | mapWrite _ _ => exact execMapWrite_agree he (List.Subset.refl _) (.refl _ s)
  | mapActivate _ => exact execMapActivate_agree he (List.Subset.refl _) (.refl _ s)
  | mapActivation => exact execMapActivation_agree he (List.Subset.refl _) (.refl _ s)
  | rebuild _ _ => exact execRebuild_agree he (List.Subset.refl _) (.refl _ s)
  | rebuilt => exact execRebuilt_agree he (List.Subset.refl _) (.refl _ s)
  | retirement _ _ => exact execRetirement_agree he (List.Subset.refl _) (.refl _ s)
  | remapCopyDone _ => exact execRemapCopyDone_agree he (List.Subset.refl _) (.refl _ s)
  | d2dLaneFault _ _ => exact execD2dLaneFault_agree he (List.Subset.refl _) (.refl _ s)
  | scrub _ _ _ _ _ => exact execScrub_agree he (List.Subset.refl _) (.refl _ s)
  | awlSlice _ _ => exact execAwlSlice_agree he (List.Subset.refl _) (.refl _ s)
  | eyeMeasurement _ _ _ _ => exact execEyeMeasurement_agree he (List.Subset.refl _) (.refl _ s)
  | opticalPoll _ _ _ => exact execOpticalPoll_agree he (List.Subset.refl _) (.refl _ s)
  | droop => exact execDroop_agree he (List.Subset.refl _) (.refl _ s)
  | wedged _ _ => exact execWedged_agree he (List.Subset.refl _) (.refl _ s)
  | pldmResend => exact execPldmResend_agree he (List.Subset.refl _) (.refl _ s)
  | nodeReset _ => exact execNodeReset_agree he (List.Subset.refl _) (.refl _ s)
  | resetRelease => exact execResetRelease_agree he (List.Subset.refl _) (.refl _ s)
  | trainingDone _ _ => exact execTrainingDone_agree he (List.Subset.refl _) (.refl _ s)
  | bistWave _ => exact execBistWave_agree he (List.Subset.refl _) (.refl _ s)
  | waveSplit _ => exact execWaveSplit_agree he (List.Subset.refl _) (.refl _ s)
  | retestWave _ _ => exact execRetestWave_agree he (List.Subset.refl _) (.refl _ s)
  | halfSole1 => exact execHalfSole1_agree he (List.Subset.refl _) (.refl _ s)
  | halfSole2 => exact execHalfSole2_agree he (List.Subset.refl _) (.refl _ s)
  | full => exact execFull_agree he (List.Subset.refl _) (.refl _ s)
  | modEnAssert => exact execModEnAssert_agree he (List.Subset.refl _) (.refl _ s)
  | rampDone => exact execRampDone_agree he (List.Subset.refl _) (.refl _ s)
  | modEnDeassert => exact execModEnDeassert_agree he (List.Subset.refl _) (.refl _ s)
  | railOutOfBand => exact execRailOutOfBand_agree he (List.Subset.refl _) (.refl _ s)
  | inputUndervoltage _ => exact execInputUndervoltage_agree he (List.Subset.refl _) (.refl _ s)
  | hardwareThermalShutdown _ _ => exact execHardwareThermalShutdown_agree he (List.Subset.refl _) (.refl _ s)
  | attestReady => exact execAttestReady_agree he (List.Subset.refl _) (.refl _ s)
  | getInfo => exact execGetInfo_agree he (List.Subset.refl _) (.refl _ s)
  | slotWrite => exact execSlotWrite_agree he (List.Subset.refl _) (.refl _ s)
  | slotTry => exact execSlotTry_agree he (List.Subset.refl _) (.refl _ s)
  | retireRead => exact execRetireRead_agree he (List.Subset.refl _) (.refl _ s)
  | retireClear => exact execRetireClear_agree he (List.Subset.refl _) (.refl _ s)
  | keyGen => exact execKeyGen_agree he (List.Subset.refl _) (.refl _ s)
  | keyImport => exact execKeyImport_agree he (List.Subset.refl _) (.refl _ s)
  | keyLoad => exact execKeyLoad_agree he (List.Subset.refl _) (.refl _ s)
  | keyErase => exact execKeyErase_agree he (List.Subset.refl _) (.refl _ s)
  | imageKeyProvision => exact execImageKeyProvision_agree he (List.Subset.refl _) (.refl _ s)
  | imageKeyRevoke => exact execImageKeyRevoke_agree he (List.Subset.refl _) (.refl _ s)
  | secFloorRaise => exact execSecFloorRaise_agree he (List.Subset.refl _) (.refl _ s)
  | attest _ => exact execAttest_agree he (List.Subset.refl _) (.refl _ s)
  | attestCertCmd => exact execAttestCertCmd_agree he (List.Subset.refl _) (.refl _ s)
  | portTraining _ => exact execPortTraining_agree he (List.Subset.refl _) (.refl _ s)
  | reconstructionCopy _ _ _ => exact execReconstructionCopy_agree he (List.Subset.refl _) (.refl _ s)
  | journalTransfer _ _ => exact execJournalTransfer_agree he (List.Subset.refl _) (.refl _ s)
  | dropReport _ _ row => exact execDropReport_agree (_row := row) he (List.Subset.refl _) (.refl _ s)
  | hotRowFetch _ _ _ _ => exact execHotRowFetch_agree he (List.Subset.refl _) (.refl _ s)
  | eventAcknowledgement _ => exact execEventAcknowledgement_agree he (List.Subset.refl _) (.refl _ s)
  | mctpMessage _ _ _ => exact execMctpMessage_agree he (List.Subset.refl _) (.refl _ s)
  | managementPortDown _ => exact execManagementPortDown_agree he (List.Subset.refl _) (.refl _ s)

/-- The queue is not among the areas that a command may write. -/
theorem pending_notMem_writesOf (c : Instr) : Area.pending ∉ writesOf c := by
  cases c <;> simp [writesOf]

/-- Settles O6: the queue is an area that `writesOf` names for no command. -/
theorem commandsLeaveTheQueue : Obligations.CommandsLeaveTheQueue := by
  intro c s t he
  exact (exec_agree he).pending_eq (pending_notMem_writesOf c)

end Sys2Proof.Machine
end

section
/-! Control of the stitch: an idle cycle (log entry 32), the bits of COMMIT_CTRL and of the blocks' COMMIT registers (R40-R43),
the admission, overrun and expiry of slices (R31-R37). -/

namespace Sys2Proof.Machine

open Sys2Proof

/-! An idle cycle. -/

/-- Settles O2: an empty queue takes the first branch of `step`, and the rest is `State.tick` itself. -/
theorem idleStepIsACycle : Obligations.IdleStepIsACycle := by
  intro s hempty
  constructor
  · rw [step, hempty]
  · rfl

/-! COMMIT, HOLD and AT_EN (R40-R43). -/

/-- A served write that sets or clears one bit of a COMMIT register leaves the fields of that write's word. -/
theorem ctrlWrite_fld {s : State} {agent dom bit : Nat} {b : Blk} {on : Bool} {f : Fld} {v : Nat} (hb : blkOk b = true)
    (hserved : s.serves ⟨agent, dom, blkCommitReg b, true, s.ctrlData b bit on⟩)
    (hfld : (s.regWrite (blkCommitReg b) (s.ctrlData b bit on)).fld f = v) :
    ∃ t, node s (fun s => s.ctrlWrite agent dom b bit on) = .next t ∧ t.fld f = v :=
  ⟨_, ctrl_next hb hserved, (State.fld_regAnswer ..).trans hfld⟩

/-- A write to COMMIT_CTRL puts bit 1 of its word into HOLD. -/
theorem State.regWrite_hold (s : State) (w : Nat) : (s.regWrite 0x130 w).fld Reg.G.HOLD = fieldOf w 1 1 :=
  (State.regWrite_commitCtrl s w).2.1

/-- A write to COMMIT_CTRL puts bit 2 of its word into AT_EN. -/
theorem State.regWrite_atEn (s : State) (w : Nat) : (s.regWrite 0x130 w).fld Reg.G.AT_EN = fieldOf w 2 1 :=
  (State.regWrite_commitCtrl s w).2.2

/-- Settles O18: the served message is a write of the COMMIT register, whose written bit reads back. -/
theorem controlBitsAreWritten : Obligations.ControlBitsAreWritten := by
  refine ⟨?commitWrite, ?commitWithdraw, ?holdSet, ?holdClear, ?atEnSet⟩
  case commitWrite =>
    intro s agent dom b hb hserved
    exact ctrlWrite_fld hb hserved ((State.regWrite_blockCommit s hb _).trans (fieldOf_ctrl_on s b 0))
  case commitWithdraw =>
    intro s agent dom b hb hserved
    exact ctrlWrite_fld hb hserved ((State.regWrite_blockCommit s hb _).trans (fieldOf_ctrl_off s b 0))
  case holdSet =>
    intro s agent dom hserved
    exact ctrlWrite_fld (b := .global) rfl hserved ((State.regWrite_hold s _).trans (fieldOf_ctrl_on s .global 1))
  case holdClear =>
    intro s agent dom hserved
    exact ctrlWrite_fld (b := .global) rfl hserved ((State.regWrite_hold s _).trans (fieldOf_ctrl_off s .global 1))
  case atEnSet =>
    intro s agent dom hserved
    exact ctrlWrite_fld (b := .global) rfl hserved ((State.regWrite_atEn s _).trans (fieldOf_ctrl_on s .global 2))

/-! The admission of a slice (R31). -/

@[simp] theorem State.setJobs_slices (s : State) (l : List Job) : (s.setJobs l).sched.slices = s.sched.slices := rfl

@[simp] theorem State.chargeSorter_slices (s : State) (i d c : Nat) : (s.chargeSorter i d c).sched.slices = s.sched.slices := rfl

/-- Counting accesses to pages leaves the scheduler. -/
theorem State.countAccesses_sched (s : State) (pages : List Nat) : (pages.foldl State.countAccess s).sched = s.sched :=
  (Agree.fold (fun _ _ h => State.countAccess_agree (List.Subset.refl _) h) (Agree.refl [.pages] s)).sched_eq (by decide)

/-- What starts beside the slice list leaves the epoch. -/
theorem State.noteStart_now (s : State) (k : SliceKind) : (s.noteStart k).now = s.now :=
  congrArg (fun t : TimeSt => t.epoch.toNat)
    ((State.noteStart_agree (List.Subset.refl _) (Agree.refl _ s)).time_eq (by decide))

/-- Bringing data into place leaves the epoch. -/
theorem State.dataReady_now (s : State) (rs : List (Nat × Nat)) (jobs : List Nat) : (s.dataReady rs jobs).1.now = s.now :=
  congrArg (fun t : TimeSt => t.epoch.toNat)
    ((State.dataReady_agree (List.Subset.refl _) (Agree.refl _ s)).time_eq (by decide))

/-- A slice that starts is in the list, on its block, from its cycle, at its cost. -/
theorem State.startSlice_mem (s : State) (k : SliceKind) (i t c d : Nat) (pages : List Nat) :
    { id := (s.noteStart k).sched.nextSlice, kind := k, engine := kindEngine k, idx := i, start := t, cost := c, epoch := s.now,
      pages := pages } ∈ (s.startSlice k i t c d pages).sched.slices := by
  unfold State.startSlice
  split <;> simp [State.countAccesses_sched, State.noteStart_now]

/-- Slices of the awl list alone have the number 27. -/
theorem kindCode_eq_awl {kind : SliceKind} (h : kindCode kind = 27) : ∃ b, kind = .awl b := by
  cases kind with
  | awl b => exact ⟨b, rfl⟩
  | _ => exact absurd h (by simp [kindCode])

/-- A slice that no check refuses and whose data is in place starts (R31). -/
theorem State.sliceAdmit_starts {s u : State} {kind : SliceKind} {idx start cost c : Nat} (hopen : s.slicesOpen = true)
    (hc : c = if kindCode kind = 27 then cost else scaled cost (s.costScale (kindEngine kind) idx))
    (hcost : s.sliceCost kind = some cost)
    (hfit : sliceJobs s kind = [] ∨
      s.anyUnfit (s.sliceDom kind) ((sliceBlocks kind 0).map (fun b => (b.1, (s.sliceCost (s.smallest kind)).getD cost))) = false)
    (hroom : s.sliceFits kind idx start c (s.sliceDom kind) = true) (hscan : s.needsScan (s.sliceReads kind) = false)
    (hdata : s.dataReady (s.sliceReads kind) (sliceJobs s kind) = (u, true)) :
    s.sliceAdmit kind idx start = u.startSlice kind idx start c (s.sliceDom kind) (u.slicePages (s.sliceReads kind)) := by
  by_cases hawl : kindCode kind = 27
  · obtain ⟨b, rfl⟩ := kindCode_eq_awl hawl
    rw [if_pos hawl] at hc
    subst hc
    simp +contextual [State.sliceAdmit, hopen, hcost, hfit.resolve_left, hroom, hscan, hdata]
  · -- the second arm of the match that gives the cost
    have hother : ∀ b, kind = .awl b → False := fun b hb => hawl (hb ▸ rfl)
    rw [if_neg hawl] at hc
    subst hc
    simp +contextual [State.sliceAdmit, hopen, hcost, hfit.resolve_left, hroom, hscan, hdata]

/-! Overrun (R35, R37). -/

/-- A running slice that overruns is stopped and noted, and the stitch is over. -/
theorem State.overrun_spec {s : State} {sid : Nat} {x : Slice} (hrun : s.sched.slices.find? (fun x => x.id = sid) = some x) :
    (∀ y ∈ (s.overrun sid).sched.slices, y.id ≠ sid) ∧
      (64 * sourceKind x.engine + x.idx, s.now) ∈ (s.overrun sid).sched.overruns ∧ s.time.stitchLen ≤ (s.overrun sid).time.phase := by
  have hid : x.id = sid := by simpa using List.find?_some hrun
  have htime : (s.overrunSlice x).time = s.time :=
    (State.overrunSlice_agree (List.Subset.refl _) (Agree.refl _ s)).time_eq (by decide)
  obtain ⟨hgone, hnoted⟩ := State.overrunSlice_spec s x
  unfold State.overrun
  simp only [hrun, htime]
  exact ⟨hid ▸ hgone, hnoted, Nat.le_max_right _ _⟩

/-- Each block of an engine is a block of the awl list. -/
theorem sourceBlock_isSome {e : Engine} {i : Nat} (hi : i < engineCount e) : ∃ b, sourceBlock (sourceKind e) i = some b := by
  cases e <;> exact ⟨_, if_pos (by simp only [engineCount] at hi; omega)⟩

/-- A block in state AVAILABLE is not wedged. -/
theorem State.not_wedged_of_available {s : State} {e : Engine} {i : Nat} (h : s.blockState e i = 0) :
    s.ras.wedged.contains (sourceKind e, i) = false := by
  by_contra hw
  unfold State.blockState at h
  rw [if_pos (by simpa using hw)] at h
  exact absurd h (by decide)

/-- An AVAILABLE engine block that becomes suspect is SUSPECT (R447). -/
theorem State.blockState_suspect {s : State} {e : Engine} {i b : Nat} (he : e ≠ .nbIssue) (hb : awlEngine b = some (e, i))
    (h : s.blockState e i = 0) : (s.suspect b).blockState e i = 1 := by
  have hset : (s.suspect b).blockState e i = (s.setBlockState e i 1).blockState e i := by
    unfold State.suspect
    simp only [State.awlState, State.setAwlState, hb, h, if_true]
    rfl
  rw [hset]
  exact State.blockState_set s he (State.not_wedged_of_available h) (by decide)

/-- An AVAILABLE engine block whose overruns reach OVERRUN_LIMIT becomes SUSPECT (R37). -/
theorem State.checkOverruns_suspects {s : State} {e : Engine} {i : Nat} (he : e ≠ .nbIssue) (hi : i < engineCount e)
    (h : s.blockState e i = 0)
    (hlimit : s.fld Reg.G.OVERRUN_LIMIT ≤
      (s.sched.overruns.filter (fun x => decide (x.1 = 64 * sourceKind e + i) && decide (s.now < x.2 + 65536))).length) :
    (s.checkOverruns e i).blockState e i = 1 := by
  obtain ⟨b, hb⟩ := sourceBlock_isSome hi
  have hsuspect : s.checkOverruns e i = s.suspect b := by
    unfold State.checkOverruns
    simp only [hb, he, hlimit, hi, ne_eq, not_false_eq_true, decide_true, Bool.and_self, if_true]
  rw [hsuspect]
  exact State.blockState_suspect he (awlEngine_source he hi hb) h

/-! A wait that runs out (R33). -/

/-- Counting the end of a job leaves the rings. -/
theorem State.countEnd_ring (s : State) (dom tag : Nat) (st : Status) (d r : Nat) : (s.countEnd dom tag st).ring d r = s.ring d r :=
  State.ring_congr ((State.countEnd_agree (List.Subset.refl _) (Agree.refl _ s)).rings_eq (by decide)) d r

/-- A refused query that is no share posts one record and leaves (R114). -/
theorem State.finishQuery_refused {s : State} {j : Job} {q : Query} (hown : q.shareIn = none) :
    (s.finishQuery j q .refused).job? j.id = none ∧
      ((s.finishQuery j q .refused).ring j.dom j.ring).compTail = ((s.ring j.dom j.ring).compTail + 1) % 2 ^ 32 := by
  unfold State.finishQuery
  simp only [hown, Status.listValid, Bool.false_eq_true, if_false]
  refine ⟨State.job?_dropJob _ _, ?_⟩
  rw [State.ring_congr (State.dropJob_rings _ _), State.postRecord_ring, State.countEnd_ring]

/-- A query that never started and has waited ADMIT_WAIT_MAX stitches is refused (R33). -/
theorem State.expire_query {s : State} {id : Nat} {j : Job} {q : Query} (hq : s.query? id = some (j, q)) (hstart : j.started = false)
    (hwait : s.fld Reg.G.ADMIT_WAIT_MAX ≤ j.wait) : s.expire id = s.finishQuery j q .refused := by
  obtain ⟨hjob, -, hwork, hdoom⟩ := State.query?_some hq
  simp [State.expire, hjob, hstart, hdoom, hwait, State.endJob, hwork]

/-- Settles O21: each of the four commands meets the condition of its one operation. -/
theorem sliceControlCompletes : Obligations.SliceControlCompletes := by
  refine ⟨?sliceAdmit, ?overrun, ?overrunLimit, ?admitWaitExpiry⟩
  case sliceAdmit =>
    intro s u kind idx start cost c hrun hopen hc hcost hfit hroom hscan hdata
    refine ⟨_, node_next (f := (State.sliceAdmit · kind idx start)) hrun, ?_⟩
    have hnow : u.now = s.now := by simpa [hdata] using State.dataReady_now s (s.sliceReads kind) (sliceJobs s kind)
    rw [State.sliceAdmit_starts hopen hc hcost hfit hroom hscan hdata]
    exact ⟨_, State.startSlice_mem .., rfl, rfl, rfl, rfl, rfl, hnow⟩
  case overrun =>
    intro s sid x hrun hslice
    exact ⟨_, node_next (f := (State.overrun · sid)) hrun, State.overrun_spec hslice⟩
  case overrunLimit =>
    intro s e idx hrun he hidx havailable hlimit
    exact ⟨_, node_next (f := (State.checkOverruns · e idx)) hrun, State.checkOverruns_suspects he hidx havailable hlimit⟩
  case admitWaitExpiry =>
    intro s job j q hrun hq hstart hwait hown
    obtain ⟨-, hid, -, -⟩ := State.query?_some hq
    refine ⟨_, node_next (f := (State.expire · job)) hrun, ?_⟩
    rw [State.expire_query hq hstart hwait, ← hid]
    exact State.finishQuery_refused hown

end Sys2Proof.Machine
end

section
/-! The query path: the areas that search, update and engine commands keep to (R79, R139, R196), the limits of a SEARCH (R81),
and what slices, passes and shares leave of their query (R86-R113, R180, R183, R399). -/

namespace Sys2Proof.Machine

open Sys2Proof

/-! Areas. -/

/-- An area that an operation does not name is the same after it. -/
theorem Agree.same {L : List Area} {s t : State} (h : Agree L s t) {a : Area} (ha : a ∉ L) : a.same s t := by
  cases a with
  | pending => exact h.pending_eq ha
  | freshCount => exact h.freshCount_eq ha
  | power => exact h.power_eq ha
  | time => exact h.time_eq ha
  | regs => exact h.regs_eq ha
  | latches => exact h.latches_eq ha
  | heldMsgs => exact h.heldMsgs_eq ha
  | linkOut => exact h.linkOut_eq ha
  | mem => exact h.mem_eq ha
  | rings => exact h.rings_eq ha
  | sched => exact h.sched_eq ha
  | colls => exact h.colls_eq ha
  | parts => exact h.parts_eq ha
  | pages => exact h.pages_eq ha
  | ras => exact h.ras_eq ha
  | boot => exact h.boot_eq ha
  | fabric => exact h.fabric_eq ha
  | flash => exact h.flash_eq ha
  | link => exact h.link_eq ha
  | attn => exact h.attn_eq ha
  | emb => exact h.emb_eq ha
  | nb => exact h.nb_eq ha

/-- Settles O8: `exec_agree` says of every command that it writes within `writesOf`. -/
theorem serviceCommandsKeepToTheirAreas : Obligations.ServiceCommandsKeepToTheirAreas :=
  fun _ _ _ _ he _ ha => (exec_agree he).same ha

/-! The limits of a SEARCH (R81). -/

/-- Beyond the count of partitions, a number of probes acts as the count itself; a count of 0 leaves no probe either way. -/
theorem min_probes_beyond {count n d : Nat} (h : count < n) :
    min count (if n = 0 then d else n) = min count (if count = 0 then d else count) := by
  rcases Nat.eq_zero_or_pos count with rfl | hpos
  · simp
  · rw [if_neg (by omega), if_neg (by omega), Nat.min_self, Nat.min_eq_left h.le]

/-- Settles O16: NPROBE enters a query as `min_probes_beyond` has it, SKETCH_MAX as its minimum with 256. -/
theorem searchLimitsAct : Obligations.SearchLimitsAct := by
  constructor
  · intro s x c t hbeyond
    unfold State.newQuery
    simp only [min_probes_beyond hbeyond]
  · intro s x c t hbeyond
    have hmin : min 256 x.sketchMax = min 256 256 := by omega
    unfold State.newQuery
    dsimp only
    generalize x.prefilter = prefilter
    split <;> simp [*, apply_ite (Option.map _)]

/-! Slices of one query. -/

/-- A slice whose end puts its query on leaves that query in its job. -/
theorem slice_putQuery {s u v : State} {sid id code : Nat} {x : Slice} {f : State → Slice → State} {j : Job} {q r : Query}
    (hrun : s.running = true) (hs : s.endSlice sid = some (x, u)) (hk : kindCode x.kind = code) (hq : u.query? id = some (j, q))
    (hv : v.sched.jobs = u.sched.jobs) (hf : f u x = v.putQuery j r) :
    ∃ t, node s (fun s => s.sliceEnds sid code f) = .next t ∧ t.work? id = some (.query r) :=
  slice_work hrun hs hk (by rw [hf]; exact State.work?_putQuery hq hv r)

/-- A walk with records left goes on from the records walked (R86). -/
theorem State.endRouteWalk_more {u : State} {x : Slice} {id n : Nat} {j : Job} {q : Query} (hk : x.kind = .routeWalk id n)
    (hq : u.query? id = some (j, q)) (hmore : q.walked + n < (u.walkOf { q with walked := q.walked + n }).scored.length) :
    u.endRouteWalk x = u.putQuery j { q with walked := q.walked + n } := by
  simp [State.endRouteWalk, hk, hq, Nat.not_le.mpr hmore]

/-- Tables built while others are needed are held by the query, poisoned or not (R180). -/
theorem State.endTableBuild_more {u : State} {x : Slice} {id n : Nat} {j : Job} {q : Query} {l : List (Nat × Nat)}
    (hk : x.kind = .tableBuild id n) (hq : u.query? id = some (j, q)) (hl : l = ((u.tablesNeeded j q).drop q.tables.length).take n)
    (hmore : q.tables.length + l.length < (u.tablesNeeded j q).length) :
    (u.endTableBuild x).work? id = some (.query { q with tables := q.tables ++ l.map (fun y => u.makeTable q y.1 y.2) }) := by
  subst hl
  have hput := State.work?_putQuery hq (t := u.fresh) rfl
  unfold State.endTableBuild
  simp only [hk, hq, List.length_append, List.length_map, Nat.not_le.mpr hmore, if_false]
  split
  · rw [State.work?_doomJob, hput]
  · rw [hput]

/-- A rebuild with tables left counts those rebuilt (R183). -/
theorem State.endRebuild_more {u : State} {x : Slice} {id n : Nat} {j : Job} {q : Query} (hk : x.kind = .rebuild id n)
    (hq : u.query? id = some (j, q)) (hmore : q.rebuiltTables + n < q.tables.length) :
    u.endRebuild x = u.putQuery j { q with rebuiltTables := q.rebuiltTables + n } := by
  simp [State.endRebuild, hk, hq, Nat.not_le.mpr hmore]

/-- A sorter slice of a stream keeps the best entries and drops those it took from the arrivals (R104). -/
theorem State.endLocalSelect_stream {u : State} {x : Slice} {id n : Nat} {j : Job} {q : Query} (hk : x.kind = .localSelect id n)
    (hq : u.query? id = some (j, q)) (hmode : q.selMode = .stream) :
    u.endLocalSelect x = (u.countSelect q.sorter n (selectTop .score q.len (q.store ++ q.arrived.take n)) false).putQuery j
      (u.settleLocal { q with store := (selectTop .score q.len (q.store ++ q.arrived.take n)).kept, arrived := q.arrived.drop n }) := by
  simp [State.endLocalSelect, State.runSelect, hk, hq, hmode]

/-- A rerank slice on clean vectors puts the store of `State.reranked` (R106). -/
theorem State.endRerank_clean {u : State} {x : Slice} {id n : Nat} {j : Job} {q : Query} (hk : x.kind = .rerank id n)
    (hq : u.query? id = some (j, q))
    (hclean : ((q.store.drop q.reranked).take n).any (fun c => u.poisoned (u.candAddr q c) (slotSize q.shape)) = false) :
    u.endRerank x = (u.putQuery j { q with
      store := u.reranked q n, reranked := q.reranked + n, rerankDone := decide (q.store.length ≤ q.reranked + n) }).fresh := by
  simp only [State.endRerank, State.runRerank, hk, hq, hclean, Bool.false_eq_true, if_false]
  rfl

theorem State.reranked_length (u : State) (q : Query) (n : Nat) : (u.reranked q n).length = q.store.length := by
  simp [State.reranked]

/-- Reranking gives the candidates it covers their exact distances and leaves the others (R106). -/
theorem State.reranked_getElem? (u : State) (q : Query) (n : Nat) {i : Nat} {c : Cand} (hc : q.store[i]? = some c) :
    (u.reranked q n)[i]? = some (if q.reranked ≤ i ∧ i < q.reranked + n then { c with dist := u.rerankDist q i c } else c) := by
  obtain ⟨hi, rfl⟩ := List.getElem?_eq_some_iff.mp hc
  simp [State.reranked, hi]

/-- A merge with entries left counts those merged (R113). -/
theorem State.endFanIn_more {u : State} {x : Slice} {id n : Nat} {j : Job} {q : Query} (hk : x.kind = .fanIn id n)
    (hq : u.query? id = some (j, q)) (hmore : q.mergeProg + n < q.mergeInput.length) :
    u.endFanIn x = u.putQuery j { q with mergeProg := q.mergeProg + n } := by
  simp [State.endFanIn, State.runFanIn, hk, hq, hmore]

/-- Settles O23: each slice's end puts its query further on, and nothing after it takes that back. -/
theorem searchSlicesComplete : Obligations.SearchSlicesComplete := by
  refine ⟨?routeWalk, ?tableBuild, ?rebuild, ?localSelect, ?rerank, ?fanIn⟩
  case routeWalk =>
    intro s u sid id n x j q hrun hs hk hq hmore
    exact slice_putQuery hrun hs (by rw [hk]; rfl) hq rfl (State.endRouteWalk_more hk hq hmore)
  case tableBuild =>
    intro s u sid id n x j q l hrun hs hk hq hl hmore
    exact slice_work hrun hs (by rw [hk]; rfl) (State.endTableBuild_more hk hq hl hmore)
  case rebuild =>
    intro s u sid id n x j q hrun hs hk hq hmore
    exact slice_putQuery hrun hs (by rw [hk]; rfl) hq rfl (State.endRebuild_more hk hq hmore)
  case localSelect =>
    intro s u sid id n x j q hrun hs hk hq hmode
    exact slice_putQuery hrun hs (by rw [hk]; rfl) hq (State.countSelect_kept ..).1 (State.endLocalSelect_stream hk hq hmode)
  case rerank =>
    intro s u sid id n x j q hrun hs hk hq hclean
    have hwork : (u.endRerank x).work? id = some (.query { q with
        store := u.reranked q n, reranked := q.reranked + n, rerankDone := decide (q.store.length ≤ q.reranked + n) }) := by
      rw [State.endRerank_clean hk hq hclean]
      exact State.work?_putQuery hq rfl _
    obtain ⟨t, hnext, ht⟩ := slice_work hrun hs (code := 7) (by rw [hk]; rfl) hwork
    exact ⟨t, _, hnext, ht, u.reranked_length q n, fun _ _ hc => u.reranked_getElem? q n hc⟩
  case fanIn =>
    intro s u sid id n x j q hrun hs hk hq hmore
    exact slice_putQuery hrun hs (by rw [hk]; rfl) hq rfl (State.endFanIn_more hk hq hmore)

/-! Slices of a pass with one member. -/

/-- A slice of a pass that has others running: the pass counts it out, its query keeps the work it was given. -/
theorem slice_counts_out {s u v : State} {sid id i code : Nat} {x : Slice} {f : State → Slice → State} {p : Pass} {l : Layout} {w : Work}
    (hrun : s.running = true) (hs : s.endSlice sid = some (x, u)) (hk : kindCode x.kind = code) (hp : u.pass? id = some p)
    (hl : u.passLayout p = some l) (hothers : 2 ≤ p.running) (hpasses : v.sched.passes = u.sched.passes) (hparts : v.parts = u.parts)
    (hw : v.work? i = some w) (hf : f u x = v.passSliceEnd id) :
    ∃ t, node s (fun s => s.sliceEnds sid code f) = .next t ∧ t.pass? id = some { p with running := p.running - 1 } ∧ t.work? i = some w := by
  obtain ⟨hout, hkept⟩ := State.passSliceEnd_after hp hl hothers hpasses hparts
  obtain ⟨t, hnext, hwork, hpass⟩ := slice_pass hrun hs hk (hf ▸ (hkept i).trans hw) (hf ▸ hout)
  exact ⟨t, hnext, hpass, hwork⟩

/-- A slice of a pass that gives one lane's scan to its query (R95, R97, R99). -/
theorem slice_takes_scan {s u v : State} {sid id i code need : Nat} {x : Slice} {f : State → Slice → State} {p : Pass} {l : Layout}
    {j : Job} {q : Query} {y : Scan} (hrun : s.running = true) (hs : s.endSlice sid = some (x, u)) (hk : kindCode x.kind = code)
    (hp : u.pass? id = some p) (hl : u.passLayout p = some l) (hothers : 2 ≤ p.running) (hq : u.query? i = some (j, q))
    (hjobs : v.sched.jobs = u.sched.jobs) (hpasses : v.sched.passes = u.sched.passes) (hparts : v.parts = u.parts)
    (hf : f u x = (v.takeScan j q need y).passSliceEnd id) :
    ∃ t, node s (fun s => s.sliceEnds sid code f) = .next t ∧ t.pass? id = some { p with running := p.running - 1 } ∧
      t.work? i = some (.query { q with
        arrived := q.arrived ++ (sliceList (64 * need) q.cut y.cands).1
        clips := q.clips ++ (sliceList (64 * need) q.cut y.cands).2.toList, codesScored := q.codesScored + y.scored }) := by
  obtain ⟨hpasses', hparts'⟩ := State.takeScan_passes v j q need y
  exact slice_counts_out hrun hs hk hp hl hothers (hpasses'.trans hpasses) (hparts'.trans hparts) (State.takeScan_work hq hjobs need y) hf

section
variable {v : State} {p : Pass} {i ord need : Nat} {j : Job} {q : Query} {pr : Probe} {tb : Table} {l : Layout}

/-- A code slice of a pass with one member is that member's scan of the main layout. -/
theorem State.runCode_one (hm : p.members = [(i, ord, need)]) (hq : v.query? i = some (j, q))
    (hprobe : q.probes.find? (fun x => x.order = ord) = some pr)
    (htable : q.tables.find? (fun t => decide (t.porder = ord) && decide (t.slot = l.cbSlot)) = some tb) (lo n : Nat) :
    v.runCode p l lo n = v.takeScan j q need (v.scanMain j q pr tb l lo n) := by
  unfold State.runCode
  rw [State.passMembers_one hm hq v rfl]
  simp only [List.foldl_cons, List.foldl_nil, hq, hprobe, htable]

/-- A side slice of a pass with one member is that member's scan of the side list. -/
theorem State.runSide_one {slot : Nat} (hm : p.members = [(i, ord, need)]) (hq : v.query? i = some (j, q))
    (hprobe : q.probes.find? (fun x => x.order = ord) = some pr)
    (htable : q.tables.find? (fun t => decide (t.porder = ord) && decide (t.slot = slot)) = some tb) (lo n : Nat) :
    v.runSide p l slot lo n = v.takeScan j q need (v.scanSide j q pr tb l lo n) := by
  unfold State.runSide
  rw [State.passMembers_one hm hq v rfl]
  simp only [List.foldl_cons, List.foldl_nil, hq, hprobe, htable]

/-- A sketch slice of a pass with one member adds to that member's probe the ordinals in view within SKETCH_MAX, and leaves
passes and partitions (R98). -/
theorem State.runSketch_one (hm : p.members = [(i, ord, need)]) (hq : v.query? i = some (j, q)) (lo n : Nat) :
    (v.runSketch p l lo n).work? i = some (.query (q.setProbe ord (fun y => { y with
      kept := y.kept ++ ((List.range n).map (fun i => lo + i)).filter
        (fun o => v.mainVisible l o j.epoch && decide (v.hamming (l.sketchAddr o) q.sketch ≤ q.sketchMax.getD 0)) }))) ∧
      (v.runSketch p l lo n).sched.passes = v.sched.passes ∧ (v.runSketch p l lo n).parts = v.parts := by
  refine ⟨?work, ?passes, (State.runSketch_agree (fun _ h => h) (Agree.refl _ v)).parts_eq (by decide)⟩
  all_goals
    unfold State.runSketch
    rw [State.passMembers_one hm hq v rfl]
    simp only [List.foldl_cons, List.foldl_nil, hq, List.filter_filter, Bool.and_comm]
    split
  case work.isTrue => rw [State.work?_doomJob, State.work?_putQuery hq rfl]
  case work.isFalse => exact State.work?_putQuery hq rfl _
  case passes.isTrue => exact State.doomJob_passes ..
  case passes.isFalse => rfl

end

/-- Settles O24: lines a tile counts change neither what a scan reads nor the pass; the one member takes the scan. -/
theorem scanSlicesComplete : Obligations.ScanSlicesComplete := by
  refine ⟨?sketchPass, ?codePass, ?sideSlice⟩
  case sketchPass =>
    intro s u sid id i lo n ord need x p l j q keep hrun hs hk hp hl hothers hm hq hkeep
    obtain ⟨hwork, hpasses, hparts⟩ := State.runSketch_one (v := u.tileRead x.idx (cdiv n 2)) (l := l) hm hq lo n
    subst hkeep
    exact slice_counts_out hrun hs (by rw [hk]; rfl) hp hl hothers hpasses hparts hwork (by simp only [State.endSketchPass, hk, hp, hl])
  case codePass =>
    intro s u sid id i lo n ord need x p l j q pr tb hrun hs hk hp hl hothers hm hq hprobe htable
    have hend : u.endCodePass x = (((u.tileRead x.idx (if p.gathered then u.keptLines p lo n else n)).takeScan j q need
        (u.scanMain j q pr tb l lo n)).passSliceEnd id) := by
      simp only [State.endCodePass, hk, hp, hl]
      rw [State.runCode_one (v := u.tileRead _ _) hm hq hprobe htable]
      rfl
    exact slice_takes_scan (v := u.tileRead _ _) hrun hs (by rw [hk]; rfl) hp hl hothers hq rfl rfl rfl hend
  case sideSlice =>
    intro s u sid id i slot lo n ord need x p l j q pr tb hrun hs hk hp hl hothers hm hq hprobe htable
    have hend : u.endSideSlice x = (((u.tileRead x.idx n).takeScan j q need (u.scanSide j q pr tb l lo n)).passSliceEnd id) := by
      simp only [State.endSideSlice, hk, hp, hl]
      rw [State.runSide_one (v := u.tileRead _ _) hm hq hprobe htable]
      rfl
    exact slice_takes_scan (v := u.tileRead _ _) hrun hs (by rw [hk]; rfl) hp hl hothers hq rfl rfl rfl hend

/-! Shares. -/

/-- A share that waits when it arrives joins those that wait (R110). -/
theorem State.arriveShare_waits {s : State} {m : ShareReq} (src : Nat) (h : s.shareAnswer s.now m = .wait) :
    s.arriveShare src m = { s with fabric := { s.fabric with shareWait := s.fabric.shareWait ++ [(src, s.now, m)] } } := by
  unfold State.arriveShare State.tryShare
  simp only
  split
  · rfl
  · rename_i hans; exact absurd (hans.symm.trans h) (by simp)
  · rename_i hans; exact absurd (hans.symm.trans h) (by simp)

/-- A partial for an open share of its query is kept with the share, unless it says MOVED (R112). -/
theorem State.receivePartial_kept {s : State} {m : PartialMsg} {j : Job} {q : Query} {o : ShareOut}
    (hquery : s.queries.find? (fun x => decide (x.2.ctx = some m.context) && decide (x.1.epoch = m.epoch)) = some (j, q))
    (hopen : q.shares.find? (fun h => decide (h.num = m.share) && h.got.isNone) = some o) (hmoved : m.status ≠ Status.moved.code) :
    s.receivePartial m = s.putQuery j { q with
      shares := q.shares.map (fun h => if h.num = m.share then { h with got := some m } else h), lastPartialAt := s.now } := by
  unfold State.receivePartial
  simp only [hquery, hopen, hmoved, if_false]

/-- A member sends every message (R388). -/
theorem State.maySend_member {s : State} (h : s.fld Reg.G.MEMBER_STATE = 2) (b : NetMsg) : s.maySend b = true := by
  unfold State.maySend
  rw [h]
  rfl

/-- A MOVED for another node leaves in Q4 without entries; of the registers it changes MOVED_SENT alone (R267). -/
theorem State.returnLookup_moved {s : State} {m : LookupReq} (hmember : s.fld Reg.G.MEMBER_STATE = 2) (hother : m.requester ≠ s.self)
    (hlive : s.fabric.failed.contains m.requester = false) :
    ∃ p : LookupPart, p.status = Status.moved.code ∧ p.context = m.context ∧ p.entries = [] ∧
      (s.returnLookup m .moved false []).fabric.out.map (fun m => (m.dst, m.queue, m.body)) =
        s.fabric.out.map (fun m => (m.dst, m.queue, m.body)) ++ [(m.requester, 4, .lookupPart p)] ∧
      (s.returnLookup m .moved false []).emb = s.emb ∧ (s.returnLookup m .moved false []).regs = (s.bump Reg.G.MOVED_SENT).regs := by
  have hself : (s.bump Reg.G.MOVED_SENT).self = s.self := State.fld_bump_apart s (by decide) (by decide)
  have hmember' : (s.bump Reg.G.MOVED_SENT).fld Reg.G.MEMBER_STATE = 2 :=
    (State.fld_bump_apart s (by decide) (by decide)).trans hmember
  refine ⟨{ requester := m.requester, context := m.context, epoch := m.epoch, owner := s.self, status := Status.moved.code
            slowPath := false, entries := [] }, rfl, rfl, rfl, ?_⟩
  unfold State.returnLookup
  simp only [if_true, hself, hother, if_false, reduceCtorEq]
  exact ⟨State.send_out _ _ _ _ hlive (State.maySend_member hmember' _),
    (State.send_agree (fun _ h => h) (Agree.refl _ _)).emb_eq (by decide), (State.send_regs ..).1⟩

/-- A lookup share of another node whose map lags stops waiting and is answered MOVED, with MAP_LAG set (R399). -/
theorem State.tryLookup_lag {s : State} {w : Nat × Nat × LookupReq} (hlag : s.embAnswer w.2.1 w.2.2 = .lag)
    (hmember : s.fld Reg.G.MEMBER_STATE = 2) (hother : w.2.2.requester ≠ s.self)
    (hlive : s.fabric.failed.contains w.2.2.requester = false) :
    ∃ p : LookupPart, (s.tryLookup w).emb.wait = s.emb.wait.erase w ∧ (s.tryLookup w).fld Reg.G.MAP_LAG = 1 ∧
      (s.tryLookup w).fabric.out.map (fun m => (m.dst, m.queue, m.body)) =
        s.fabric.out.map (fun m => (m.dst, m.queue, m.body)) ++ [(w.2.2.requester, 4, .lookupPart p)] ∧
      p.status = Status.moved.code ∧ p.context = w.2.2.context ∧ p.entries = [] := by
  unfold State.tryLookup
  simp only [hlag]
  generalize hgone : ({ s with emb := { s.emb with wait := s.emb.wait.erase w } } : State) = gone
  have hapart : ∀ f, Fld.apart Reg.G.MAP_LAG f → (gone.setFld Reg.G.MAP_LAG 1).fld f = s.fld f := by
    intro f hf
    rw [State.fld_setFld_apart gone 1 (by decide) hf, ← hgone]
    rfl
  obtain ⟨p, hstatus, hcontext, hentries, hout, hemb, hregs⟩ :=
    State.returnLookup_moved (s := gone.setFld Reg.G.MAP_LAG 1) ((hapart _ (by decide)).trans hmember)
      (by rwa [State.self, hapart _ (by decide)]) (by rw [← hgone]; exact hlive)
  refine ⟨p, ?_, ?_, ?_, hstatus, hcontext, hentries⟩
  · rw [hemb, ← hgone]
    rfl
  · rw [State.fld_congr hregs, State.fld_bump_apart _ (by decide) (by decide), State.fld_setFld_same _ _ _ (by decide)]
    rfl
  · rw [hout, ← hgone]
    rfl

/-- Settles O25: a share waits, is served as `State.tryShare_serve` has it, its partial is kept, or its time is up. -/
theorem shareCommandsComplete : Obligations.ShareCommandsComplete := by
  refine ⟨?waits, ?served, ?answered, ?timeout⟩
  case waits =>
    intro s src m hrun hmember hlive hwait
    refine ⟨_, peer_next (f := (State.arriveShare · src m)) hrun hmember hlive, ?_⟩
    rw [State.arriveShare_waits src hwait]
    exact ⟨rfl, rfl⟩
  case served =>
    intro s src t m hrun hmember hlive hserve hlow hhigh hfail hsorter hfits hjob
    obtain ⟨q, hwork, hcoll, hk, hdepth, hprobes, hsort, hbound, hrouted, hshare⟩ :=
      State.tryShare_serve { s with fabric := { s.fabric with shareWait := s.fabric.shareWait ++ [(src, s.now, m)] } } src s.now m
        hserve (Nat.not_lt.mpr hlow) (Nat.not_lt.mpr hhigh) hfail hsorter hfits hjob
    exact ⟨_, q, peer_next (f := (State.arriveShare · src m)) hrun hmember hlive, hwork, hcoll, hk, hdepth, hprobes, hsort, hbound, hrouted, hshare⟩
  case answered =>
    intro s m j q o hrun hmember hlive hquery hopen hmoved hjob
    refine ⟨_, peer_next (f := (State.receivePartial · m)) hrun hmember hlive, ?_⟩
    rw [State.receivePartial_kept hquery hopen hmoved]
    exact State.work?_put hjob rfl _
  case timeout =>
    intro s n w hrun hmember hw hlag hother hlive
    have hnext : exec (.shareWaitTimeout true n) s = .next (s.tryLookup w) := by
      refine (node_next (f := (State.shareTimeout · true n)) hrun).trans ?_
      simp only [State.shareTimeout, hw, hlag, if_true]
    obtain ⟨p, hanswer⟩ := State.tryLookup_lag hlag hmember hother hlive
    exact ⟨_, p, hnext, hanswer⟩

end Sys2Proof.Machine
end

section
/-! Live updates: an encode and the commit of a delete (R139, R141), folds, layout swaps and releases (R150-R155), version slots
and route copies (R156, R160). -/

namespace Sys2Proof.Machine

open Sys2Proof

/-! Updates. -/

/-- The end of an encode prepares its insert with the slot CURRENT now; poison it read is its status (R139). -/
theorem State.runEncode_work {u : State} {id : Nat} {j : Job} {y : Update} (hu : u.update? id = some (j, y)) :
    ∃ st, (u.runEncode j y).work? id =
        some (.update { y with cbSlot := (u.coll y.coll).cbCur.getD y.cbSlot, prepared := true, status := st }) ∧
      (st = y.status ∨ st = .poisoned) := by
  obtain ⟨hjob, -, -, -⟩ := State.update?_some hu
  unfold State.runEncode
  refine ⟨_, State.work?_put hjob ((State.store_agree (fun _ h => h) (Agree.refl _ u)).jobs_eq (by decide)) _, ?_⟩
  split
  · exact .inr rfl
  · exact .inl rfl

/-- With no full vector waiting, none is handed over (R141). -/
theorem State.handVectors_none {s : State} (h : ∀ k ∈ s.sched.jobs, ∀ y, k.work = .update y → y.vecWait = false) :
    s.handVectors = s := by
  refine foldl_skip_at s fun k hk => ?_
  split
  · next y hy => simp [h k hk y hy]
  · rfl

/-- The oldest batch, of one delete of a live record, commits as that delete after marks that leave partitions and
rings (R141, log entry 42). -/
theorem State.commitBatch_delete {s : State} {t0 : Nat} {ids : List Nat} {rest : List (Nat × List Nat)} {j : Job} {u : Update}
    (hvec : ∀ k ∈ s.sched.jobs, ∀ y, k.work = .update y → y.vecWait = false) (hbatches : s.sched.batches = (t0, ids) :: rest)
    (hone : s.batchJobs ids = [(j, u)]) (hprep : u.prepared = true) (hwait : u.vecWait = false) (hdoom : j.doom = none)
    (hok : u.status = .ok) (hdelete : u.insert = false) (hlive : (s.part u.coll u.part).cur.tomb? u.ordinal = none) :
    ∃ v : State, s.commitBatch = (v.commitDelete j u (s.now + 1)).dropJob j.id ∧ v.parts = s.parts ∧ v.rings = s.rings ∧
      v.sched.batches = rest := by
  have hready : s.batchReady ids = true := by simp [State.batchReady, hone, hprep, hwait]
  have hstatus : chainStatus [(j, u)] u.chain = .ok := by simp [chainStatus, hdoom, hok]
  unfold State.commitBatch
  rw [State.handVectors_none hvec]
  simp only [hbatches, hready, hone, Bool.not_true, Bool.false_eq_true, if_false, List.foldl_cons, List.foldl_nil, hstatus, hdelete,
    Bool.false_or, decide_true, Bool.true_and, if_true]
  generalize hmarked : ite (t0 < _) _ _ = marked
  have hkeeps : marked.parts = s.parts ∧ marked.rings = s.rings ∧ marked.sched.batches = rest := by
    subst hmarked
    split <;> exact ⟨rfl, rfl, rfl⟩
  obtain ⟨hparts, hrings, hrest⟩ := hkeeps
  have hnew : ((marked.part u.coll u.part).cur.tomb? u.ordinal).isNone = true := by
    rw [State.part_congr hparts, hlive]
    rfl
  have hjournal : Agree [.flash] marked (marked.journalUpdate u (s.now + 1)) :=
    State.journalUpdate_agree (fun _ h => h) (Agree.refl _ marked)
  exact ⟨marked.journalUpdate u (s.now + 1), by simp only [hnew, if_true], (hjournal.parts_eq (by decide)).trans hparts,
    (hjournal.rings_eq (by decide)).trans hrings, (congrArg SchedSt.batches (hjournal.sched_eq (by decide))).trans hrest⟩

/-- Settles O26: an encode ends as `State.runEncode_work` has it, the batch commits as `State.commitDelete_new` has its delete. -/
theorem updateCommandsComplete : Obligations.UpdateCommandsComplete := by
  refine ⟨?encode, ?commit⟩
  case encode =>
    intro s u sid id x j y hrun hs hk hu
    obtain ⟨st, hwork, hst⟩ := State.runEncode_work hu
    obtain ⟨t, hnext, ht⟩ := slice_work (f := State.endInsertEncode) (code := 9) hrun hs (by rw [hk]; rfl)
      (by simpa only [State.endInsertEncode, hk, hu] using hwork)
    exact ⟨t, st, hnext, ht, hst⟩
  case commit =>
    intro s t0 ids rest j u hrun hvec hbatches hone hprep hwait hdoom hok hdelete hlive
    obtain ⟨v, hcommit, hparts, hrings, hrest⟩ := State.commitBatch_delete hvec hbatches hone hprep hwait hdoom hok hdelete hlive
    obtain ⟨htomb, htail, hkept⟩ := State.commitDelete_new v j u (s.now + 1) (by rwa [State.part_congr hparts])
    refine ⟨_, node_next hrun, ?_⟩
    rw [hcommit]
    exact ⟨hkept.trans hrest, State.job?_dropJob .., htomb, htail.trans (by rw [State.ring_congr hrings])⟩

/-! Compactions. -/

/-- A compaction found by number has that number. -/
theorem State.compact?_id {s : State} {id : Nat} {j : Job} {x : Compact} (h : s.compact? id = some (j, x)) : j.id = id :=
  State.job?_id (State.compact?_some h).1

/-- The swap of one compaction, where it is due (R152). -/
def State.swapIfDue (s : State) (f : Job → Bool) (y : Job × Compact) : State :=
  match s.compact? y.1.id with
  | some (j, x) => if f j && x.done && decide (x.fold < s.now) then s.swapLayout j x else s
  | none => s

theorem State.layoutSwaps_eq_foldl (s : State) (f : Job → Bool) :
    s.layoutSwaps f = s.compactions.foldl (fun s y => s.swapIfDue f y) s := rfl

theorem State.swapIfDue_other {s : State} {id : Nat} {y : Job × Compact} (h : y.1.id ≠ id) :
    s.swapIfDue (fun j => decide (j.id = id)) y = s := by
  unfold State.swapIfDue
  split
  · next j x hfound =>
    have hne : j.id ≠ id := by rwa [State.compact?_id hfound]
    simp [hne]
  · rfl

/-- With one compaction of a number, done and past its fold epoch, the swaps of that number are its own (R152). -/
theorem State.layoutSwaps_one {s : State} {id : Nat} {l1 l2 : List (Job × Compact)} {j : Job} {x : Compact}
    (hall : s.compactions = l1 ++ (j, x) :: l2) (hx : s.compact? id = some (j, x)) (hbefore : ∀ y ∈ l1, y.1.id ≠ id)
    (hafter : ∀ y ∈ l2, y.1.id ≠ id) (hdone : x.done = true) (hfold : x.fold < s.now) :
    s.layoutSwaps (fun j => decide (j.id = id)) = s.swapLayout j x := by
  rw [State.layoutSwaps_eq_foldl, hall]
  refine foldl_pick s _ (fun y hy => State.swapIfDue_other (hbefore y hy)) ?_ (fun y hy => State.swapIfDue_other (hafter y hy))
  simp [State.swapIfDue, State.compact?_id hx, hx, hdone, hfold]

/-- After a swap the new layout is current, and the old one is kept with its release (R152). -/
theorem State.swapLayout_part (s : State) (j : Job) (x : Compact) : ∃ rel : Rel,
    ((s.swapLayout j x).part x.coll x.part).cur = { x.new with since := s.now, ordHigh := (s.part x.coll x.part).cur.ordHigh } ∧
    ((s.swapLayout j x).part x.coll x.part).old =
      { (s.part x.coll x.part).cur with rel := some rel } :: (s.part x.coll x.part).old ∧
    rel.fold = x.fold ∧ rel.freed = x.dropped ∧ rel.tag = j.tag := by
  rw [State.part_congr (State.swapLayout_parts s j x), State.part_setPart_same]
  exact ⟨_, rfl, rfl, rfl, rfl, rfl⟩

/-- A swap ends its job (R152). -/
theorem State.swapLayout_job? (s : State) (j : Job) (x : Compact) : (s.swapLayout j x).job? j.id = none :=
  State.job?_dropJob ..

/-- The one old layout of a partition, with a release that is due, is gone: its ordinals are free, its record is posted (R153). -/
theorem State.releaseLayouts_one {s : State} {c p : Nat} {l : Layout} {r : Rel} (hp : p < 2 ^ 20) (hold : (s.part c p).old = [l])
    (hrel : l.rel = some r) (hpinned : s.layoutPinned c p l.ver = false)
    (hdue : (s.part c p).swappedAway l + s.fld Reg.G.FANOUT_GRACE ≤ s.now) :
    s.releaseLayouts c p =
      (s.setPart c p { s.part c p with old := [], free := r.freed.foldl insNat (s.part c p).free }).postRecord r.dom r.ring .ok
        (maintWords r.tag .ok 1 s.now r) := by
  unfold State.releaseLayouts
  simp only [Nat.not_le.mpr hp, if_false, hold, List.foldl_cons, List.foldl_nil, hpinned, hdue, hrel, Bool.not_false, decide_true,
    Bool.and_self, if_true, List.filter_cons, List.filter_nil, ne_eq, not_true_eq_false, decide_false, Bool.false_eq_true]
  rfl

/-- A record leaves the partitions. -/
theorem State.postRecord_parts (s : State) (d r : Nat) (st : Status) (ws : List Nat) : (s.postRecord d r st ws).parts = s.parts :=
  (State.postRecord_agree (fun _ h => h) (Agree.refl _ s)).parts_eq (by decide)

/-- A record leaves the collections. -/
theorem State.postRecord_colls (s : State) (d r : Nat) (st : Status) (ws : List Nat) : (s.postRecord d r st ws).colls = s.colls :=
  (State.postRecord_agree (fun _ h => h) (Agree.refl _ s)).colls_eq (by decide)

/-- Settles O27: folds count what they end, a swap puts the parts of `State.swapLayout_parts`, a release is its one layout's. -/
theorem compactionsComplete : Obligations.CompactionsComplete := by
  refine ⟨?mainFold, ?sideFold, ?swap, ?release⟩
  case mainFold =>
    intro s u sid id lo n x j c hrun hs hk hc
    obtain ⟨y, hwork, hcounts⟩ := State.runMainFold_work (v := u.bump (Reg.Tile.COMPACT_SLICES x.idx)) hc rfl lo n
    obtain ⟨t, hnext, ht⟩ := slice_work (f := State.endMainFold) (code := 10) hrun hs (by rw [hk]; rfl)
      (by simpa only [State.endMainFold, hk, hc] using hwork)
    exact ⟨t, y, hnext, ht, hcounts⟩
  case sideFold =>
    intro s u sid id lo n x j c hrun hs hk hc
    obtain ⟨y, hwork, hcounts⟩ := State.runSideFold_work (v := u.bump (Reg.Tile.COMPACT_SLICES x.idx)) hc rfl lo n
    obtain ⟨t, hnext, ht⟩ := slice_work (f := State.endSideFold) (code := 11) hrun hs (by rw [hk]; rfl)
      (by simpa only [State.endSideFold, hk, hc] using hwork)
    exact ⟨t, y, hnext, ht, hcounts⟩
  case swap =>
    intro s id l1 l2 j x hrun hwindow hall hx hbefore hafter hdone hfold
    have hjob := State.swapLayout_job? s j x
    rw [State.compact?_id hx] at hjob
    obtain ⟨rel, hcur, hold, hrelFold, hfreed, htag⟩ := State.swapLayout_part s j x
    refine ⟨_, rel, window_next hrun hwindow, ?_⟩
    rw [State.layoutSwaps_one hall hx hbefore hafter hdone hfold]
    exact ⟨hcur, hold, hrelFold, hfreed, htag, hjob⟩
  case release =>
    intro s c p l r hrun hwindow hp hold hrel hpinned hdue
    refine ⟨_, window_next hrun hwindow, ?_⟩
    rw [State.releaseLayouts_one hp hold hrel hpinned hdue, State.part_congr (State.postRecord_parts ..), State.part_setPart_same]
    exact ⟨rfl, rfl, State.postRecord_compTail ..⟩

/-! Versions. -/

/-- The version swap of one job, where it is due (R156). -/
def State.versionIfDue (s : State) (f : Nat → Bool) (j0 : Job) : State :=
  match s.job? j0.id with
  | some j =>
    if j.doom.isSome || decide (s.now ≤ j.epoch) then s
    else match j.work with
      | .version x => if f x.coll then s.makeCurrent j x.coll x.table x.slot else s
      | .routeEdit x => if f x.coll && x.ready then s.makeCurrent j x.coll 0 x.slot else s
      | _ => s
  | none => s

theorem State.versionSwaps_eq_foldl (s : State) (f : Nat → Bool) :
    s.versionSwaps f = s.sched.jobs.foldl (fun s j => s.versionIfDue f j) s := rfl

/-- A job that neither loads nor edits a version of the collection swaps none of it. -/
theorem State.versionIfDue_other {s : State} {c : Nat} {k0 : Job}
    (h : ∀ k, s.job? k0.id = some k → (∀ d, k.work = .version d → d.coll ≠ c) ∧ (∀ d, k.work = .routeEdit d → d.coll ≠ c)) :
    s.versionIfDue (fun d => decide (d = c)) k0 = s := by
  unfold State.versionIfDue
  cases hfound : s.job? k0.id with
  | none => rfl
  | some k =>
    obtain ⟨hversion, hedit⟩ := h k hfound
    cases hwork : k.work with
    | version d => simp [hwork, hversion d hwork]
    | routeEdit d => simp [hwork, hedit d hwork]
    | _ => simp [hwork]

/-- With one job due for a collection, a VERSION, the swaps of that collection are its own (R156, R157). -/
theorem State.versionSwaps_one {s : State} {l1 l2 : List Job} {j : Job} {x : VersionReq} (hjobs : s.sched.jobs = l1 ++ j :: l2)
    (hj : s.job? j.id = some j) (hdoom : j.doom = none) (hdue : j.epoch < s.now) (hwork : j.work = .version x) (hslot : x.slot ≤ 1)
    (hothers : ∀ k ∈ l1 ++ l2, k.id ≠ j.id ∧ (∀ d, k.work = .version d → d.coll ≠ x.coll) ∧
      (∀ d, k.work = .routeEdit d → d.coll ≠ x.coll)) :
    s.versionSwaps (fun c => decide (c = x.coll)) = s.makeCurrent j x.coll x.table x.slot := by
  have hskip : ∀ v : State, v.sched.jobs ⊆ s.sched.jobs → ∀ k ∈ l1 ++ l2, v.versionIfDue (fun c => decide (c = x.coll)) k = v := by
    intro v hsub k hk
    refine State.versionIfDue_other fun k' hfound => (hothers k' ?_).2
    have hin := hsub (List.mem_of_find?_eq_some hfound)
    have hne : k' ≠ j := fun h => (hothers k hk).1 (by rw [← h, State.job?_id hfound])
    simpa [hjobs, hne] using hin
  have hleft : (s.makeCurrent j x.coll x.table x.slot).sched.jobs ⊆ s.sched.jobs := by
    rw [(State.makeCurrent_spec s j x.coll x.table x.slot hslot).1]
    exact List.filter_subset_self _
  rw [State.versionSwaps_eq_foldl, hjobs]
  refine foldl_pick s _ (fun k hk => hskip s (List.Subset.refl _) k (List.mem_append_left _ hk)) ?_
    (fun k hk => hskip _ hleft k (List.mem_append_right _ hk))
  simp [State.versionIfDue, hj, hdoom, hwork, Nat.not_le.mpr hdue]

/-- A slot that is not RETIRED is not released. -/
theorem State.releaseSlot_kept {s : State} {c table slot : Nat}
    (h : (if table = 0 then (s.coll c).route slot else (s.coll c).cb slot).state ≠ 3) : s.releaseSlot c table slot = s := by
  simp [State.releaseSlot, h]

/-- A RETIRED route slot without pins, past its grace, becomes FREE, and its record is posted (R156). -/
theorem State.releaseSlot_route {s : State} {c slot : Nat} {r : Rel} (hretired : ((s.coll c).route slot).state = 3)
    (hrel : ((s.coll c).route slot).rel = some r) (hpins : s.slotPins c 0 slot = 0)
    (hdue : ((s.coll c).route slot).since + s.fld Reg.G.FANOUT_GRACE ≤ s.now) :
    s.releaseSlot c 0 slot = (s.setSlot c 0 slot (fun x => { x with state := 0, rel := none })).postRecord r.dom r.ring .ok
      (maintWords r.tag .ok 1 s.now {}) := by
  simp only [State.releaseSlot, if_true, hretired, hrel, hpins, hdue, decide_true, Bool.and_self, Bool.true_or]
  rfl

/-- A copy with records left counts those copied (R160). -/
theorem State.endRouteCopy_more {u : State} {x : Slice} {id n : Nat} {j : Job} {r : RouteEditReq} (hk : x.kind = .routeCopy id n)
    (hr : u.routeEdit? id = some (j, r)) (hmore : r.copied + n < u.partCount r.coll) :
    u.endRouteCopy x = u.putJob { j with work := .routeEdit { r with copied := r.copied + n } } := by
  simp [State.endRouteCopy, hk, hr, Nat.not_le.mpr hmore]

/-- Settles O28: a version is put in place as `State.makeCurrent_spec` has it; of the four slots the retired one alone is released. -/
theorem versionCommandsComplete : Obligations.VersionCommandsComplete := by
  refine ⟨?current, ?release, ?copy⟩
  case current =>
    intro s c l1 l2 j x hrun hwindow hjobs hj hdoom hdue hwork hcoll hslot hothers
    subst hcoll
    obtain ⟨hleft, hroute, hcodebook⟩ := State.makeCurrent_spec s j x.coll x.table x.slot hslot
    refine ⟨_, window_next hrun hwindow, ?_⟩
    rw [State.versionSwaps_one hjobs hj hdoom hdue hwork hslot hothers]
    exact ⟨(State.job?_congr hleft _).trans (State.job?_dropJob ..), hroute, hcodebook⟩
  case release =>
    intro s c r hrun hwindow hretired hrel hrouteB hcbA hcbB hpins hdue
    have hfirst := State.releaseSlot_route (slot := 0) hretired hrel hpins hdue
    have hcoll : (s.releaseSlot c 0 0).coll c = { s.coll c with routeA := { (s.coll c).routeA with state := 0, rel := none } } := by
      rw [hfirst, State.coll_congr (State.postRecord_colls ..)]
      exact State.coll_setColl_same ..
    have hall : s.releaseSlots c = s.releaseSlot c 0 0 := by
      unfold State.releaseSlots
      rw [State.releaseSlot_kept (s := s.releaseSlot c 0 0) (slot := 1) (by rw [hcoll]; exact hrouteB),
        State.releaseSlot_kept (table := 1) (slot := 0) (by rw [hcoll]; exact hcbA),
        State.releaseSlot_kept (table := 1) (slot := 1) (by rw [hcoll]; exact hcbB)]
    refine ⟨_, window_next hrun hwindow, ?_⟩
    rw [hall, hcoll]
    exact ⟨rfl, rfl, rfl, rfl, by rw [hfirst]; exact State.postRecord_compTail ..⟩
  case copy =>
    intro s u sid id n x j r hrun hs hk hr hmore
    obtain ⟨hjob, -, -, -⟩ := State.routeEdit?_some hr
    exact slice_work (f := State.endRouteCopy) (code := 12) hrun hs (by rw [hk]; rfl)
      (by rw [State.endRouteCopy_more hk hr hmore]; exact State.work?_put hjob rfl _)

end Sys2Proof.Machine
end

section
/-! Attention, embeddings and near-bank jobs: the areas that their commands keep to (R216, R259, R303); partials that reach a
merge and the merge's slices (R233, R234); the rereads of Skive (R253). -/

namespace Sys2Proof.Machine

open Sys2Proof

/-! Areas. -/

/-- Settles O9: what `exec_agree` says of every command, for the commands of attention, embeddings and near-bank jobs. -/
theorem tableCommandsKeepToTheirAreas : Obligations.TableCommandsKeepToTheirAreas :=
  fun _ _ _ _ he _ ha => (exec_agree he).same ha

/-! Partials of a merge (R234). -/

/-- A shard's first partial joins those of its open merge; a status other than OK dooms the job, which keeps the partial. -/
theorem State.mergePartial_kept {s : State} {slot : Nat} {m : AttnMsg} {j : Job} {a : AttnMerge}
    (hopen : s.merges.find? (fun x => decide (x.2.slot = slot) && decide (x.2.layer = m.layer) && decide (x.2.qpos = m.qpos) &&
      decide (m.shard < x.2.shards)) = some (j, a))
    (hnew : a.parts.any (fun p => p.shard = m.shard) = false) (hjob : s.job? j.id = some j) :
    (s.mergePartial slot m).work? j.id = some (.attnMerge { a with parts := a.parts ++ [m] }) := by
  have hput : (s.putJob { j with work := .attnMerge { a with parts := a.parts ++ [m] } }).work? j.id =
      some (.attnMerge { a with parts := a.parts ++ [m] }) := State.work?_put hjob rfl _
  unfold State.mergePartial
  simp only [hopen, hnew, Bool.false_eq_true, if_false]
  split
  · exact hput
  · exact (State.work?_doomJob ..).trans hput
  · exact (State.work?_doomJob ..).trans hput

/-- A partial that no open merge takes is counted as an orphan. -/
theorem State.mergePartial_orphan {s : State} {slot : Nat} {m : AttnMsg}
    (hnone : s.merges.find? (fun x => decide (x.2.slot = slot) && decide (x.2.layer = m.layer) && decide (x.2.qpos = m.qpos) &&
      decide (m.shard < x.2.shards)) = none) : s.mergePartial slot m = s.bump Reg.G.MERGE_ORPHAN := by
  simp only [State.mergePartial, hnone]

/-! Slices of a merge (R233). -/

/-- The bytes of one output row of a merge: FP32, or BF16 where the descriptor says so; an empty row is zeros. -/
def AttnMerge.rowBytes (m : AttnMerge) (i : Nat) : List Byte :=
  ((m.rowOut i).getD (List.replicate m.d 0#32)).flatMap (fun v => if m.outBf16 then leBytes 2 v.toBf16.toNat else leBytes 4 v.toNat)

/-- The output rows of a merge slice, stored one after the other. -/
def State.storeRows (s : State) (dom : Nat) (m : AttnMerge) (lo n : Nat) : State :=
  (List.range n).foldl (fun s i => s.store (m.out + (lo + i) * m.d * (if m.outBf16 then 2 else 4)) (m.rowBytes (lo + i)) dom) s

/-- Storing rows leaves the jobs. -/
theorem State.storeRows_jobs (s : State) (dom : Nat) (m : AttnMerge) (lo n : Nat) :
    (s.storeRows dom m lo n).sched.jobs = s.sched.jobs :=
  congrArg SchedSt.jobs ((Agree.fold (fun _ _ h => State.store_agree (List.Subset.refl _) h) (Agree.refl _ s)).sched_eq (by decide))

/-- A fold that carries a state and counts is the fold of the state beside the count. -/
theorem foldl_count {α : Type} (f : State → α → State) (p : α → Bool) : ∀ (l : List α) (s : State) (k : Nat),
    l.foldl (fun x a => (f x.1 a, x.2 + b2n (p a))) (s, k) = (l.foldl f s, k + l.countP p)
  | [], _, _ => rfl
  | a :: l, s, k => by
    rw [List.foldl_cons, foldl_count f p l, List.foldl_cons, List.countP_cons]
    cases p a <;> simp [b2n, Nat.add_comm, Nat.add_left_comm]

/-- A slice that leaves rows stores those it merged, and counts the empty ones among them. -/
theorem State.runMerge_more {s : State} {j : Job} {m : AttnMerge} {lo n : Nat} (hmore : lo + n < m.rowCount) :
    s.runMerge j m lo n = (s.storeRows j.dom m lo n).fresh.putJob { j with work := .attnMerge { m with
      merged := lo + n, empty := m.empty + (List.range n).countP (fun i => (m.rowOut (lo + i)).isNone) } } := by
  have hfold := foldl_count (fun s i => s.store (m.out + (lo + i) * m.d * (if m.outBf16 then 2 else 4)) (m.rowBytes (lo + i)) j.dom)
    (fun i => (m.rowOut (lo + i)).isNone) (List.range n) s 0
  have hrows : (AttnMerge.rowCount { m with
      merged := lo + n, empty := m.empty + (List.range n).countP (fun i => (m.rowOut (lo + i)).isNone) }) = m.rowCount := rfl
  unfold AttnMerge.rowBytes at hfold
  unfold State.runMerge
  simp only [hfold, Nat.zero_add, hrows, hmore, if_true]
  rfl

/-! Rereads of a coded page (R253). -/

/-- A reread of a block is noted in the flash layer. -/
def State.noteReread (s : State) (p b : Nat) : State := s.setFlash { s.flash with rereads := (p, b) :: s.flash.rereads }

/-- A block's first reread in a fetch is noted. Where it passes, it is counted; where it fails, it is counted, the block's
64 lines are poison, and the log has it. -/
theorem State.reread_first {s : State} {p b : Nat} (hcoded : (s.page p).coded = true) (hb : b < 16)
    (hfetch : (s.page p).st = .fetching ∨ s.flash.stageReq.contains p = true) (hfirst : s.flash.rereads.contains (p, b) = false)
    (ok : Bool) :
    s.reread p b ok = if ok then (s.noteReread p b).bump Reg.Skive.RETRY_OK
      else ((List.range 64).foldl (fun s i => s.markPoison (1024 * p + 64 * b + i) 0)
        ((s.noteReread p b).bump Reg.Skive.BLOCKS_POISONED)).log 0x05 2 0 11 0 (p * 0x10000) 64 := by
  unfold State.reread
  have hguard := And.intro hfetch hfirst
  exact if_pos (by simpa [hcoded, hb] using hguard)

/-- The log leaves memory and the flash layer. -/
theorem State.log_mem_flash (s : State) (cls sev dom kind idx addr detail : Nat) :
    (s.log cls sev dom kind idx addr detail).mem = s.mem ∧ (s.log cls sev dom kind idx addr detail).flash = s.flash :=
  have h : Agree [.regs, .ras] s (s.log cls sev dom kind idx addr detail) := State.log_agree (List.Subset.refl _) (Agree.refl _ s)
  ⟨h.mem_eq (by decide), h.flash_eq (by decide)⟩

/-- Poisoning lines leaves the flash layer. -/
theorem State.markPoisons_flash (s : State) (base dom n : Nat) :
    ((List.range n).foldl (fun s i => s.markPoison (base + i) dom) s).flash = s.flash :=
  (Agree.fold (L := [.regs, .mem]) (fun _ _ h => State.markPoison_agree (List.Subset.refl _) h) (Agree.refl _ s)).flash_eq (by decide)

/-- Settles O31: partials are kept or counted as orphans, a merge slice goes on as `State.runMerge_more` has it, and a reread is
noted in the flash layer before it counts, or poisons its block's lines. -/
theorem attentionMergesComplete : Obligations.AttentionMergesComplete := by
  refine ⟨?kept, ?orphan, ?merge, ?passes, ?fails⟩
  case kept =>
    intro s slot m j a hrun hmember hlive hopen hnew hjob
    exact ⟨_, peer_next (f := (State.mergePartial · slot m)) hrun hmember hlive, State.mergePartial_kept hopen hnew hjob⟩
  case orphan =>
    intro s slot m hrun hmember hlive hnone
    refine (peer_next (f := (State.mergePartial · slot m)) hrun hmember hlive).trans ?_
    rw [State.mergePartial_orphan hnone]
  case merge =>
    intro s u sid id lo n x j m hrun hs hk hm hmore
    obtain ⟨hjob, -, -, -⟩ := State.merge?_some hm
    have hend : u.endMergeSlice x = u.runMerge j m lo n := by simp only [State.endMergeSlice, hk, hm]
    obtain ⟨t, hnext, ht⟩ := slice_work (f := State.endMergeSlice) (code := 19) hrun hs (by rw [hk]; rfl)
      (by rw [hend, State.runMerge_more hmore]; exact State.work?_put hjob (u.storeRows_jobs j.dom m lo n) _)
    exact ⟨t, _, hnext, ht⟩
  case passes =>
    intro s p b hrun hcoded hb hfetch hfirst
    refine ⟨_, node_next (f := (State.reread · p b true)) hrun, ?_⟩
    rw [State.reread_first hcoded hb hfetch hfirst, if_pos rfl]
    exact ⟨rfl, State.fld_bump_same _ _ (by decide), rfl⟩
  case fails =>
    intro s p b hrun hcoded hb hfetch hfirst
    refine ⟨_, node_next (f := (State.reread · p b false)) hrun, ?_⟩
    rw [State.reread_first hcoded hb hfetch hfirst, if_neg Bool.false_ne_true]
    obtain ⟨hmem, hflash⟩ := State.log_mem_flash _ 0x05 2 0 11 0 (p * 0x10000) 64
    rw [hmem, hflash]
    exact ⟨congrArg FlashSt.rereads (State.markPoisons_flash ..), fun k => State.markPoisons (1024 * p + 64 * b) 0 64 _ k⟩

end Sys2Proof.Machine
end

section
/-! Embedding tables: the shares, slices and partials of a lookup (R264-R267), and the gradient rows, drops, closes and seals of
a step (R270-R273). -/

namespace Sys2Proof.Machine

open Sys2Proof

/-! Sorting (R264). -/

/-- A sort slice on clean input with indices left notes how far it came. -/
theorem State.runSort_more {s : State} {j : Job} {l : Lookup} {lo n : Nat} (hmore : 64 * (lo + n) < l.nidx)
    (hidx : s.poisoned (l.idx + 256 * lo) (4 * min (64 * n) (l.nidx - 64 * lo)) = false)
    (hweight : l.pool ≠ 2 ∨ s.poisoned (l.w + 256 * lo) (4 * min (64 * n) (l.nidx - 64 * lo)) = false) :
    s.runSort j l lo n = s.putLookup j { l with sorted := lo + n } := by
  have hclean : (decide (l.pool = 2) && s.poisoned (l.w + 256 * lo) (4 * min (64 * n) (l.nidx - 64 * lo))) = false := by
    simpa [or_iff_not_imp_left] using hweight
  have hlast : decide (l.nidx ≤ 64 * (lo + n)) = false := decide_eq_false (Nat.not_le.mpr hmore)
  simp only [State.runSort, hidx, hclean, hlast, Bool.false_and, Bool.or_false, Bool.false_eq_true, if_false]

/-! Shares at their owner (R265). -/

/-- A share among those that wait on its arrival. -/
def State.holdLookup (s : State) (src : Nat) (m : LookupReq) : State :=
  { s with emb := { s.emb with wait := s.emb.wait ++ [(src, s.now, m)] } }

/-- The shares that wait do not enter an owner's answer. -/
theorem State.embAnswer_holdLookup (s : State) (src a : Nat) (m r : LookupReq) : (s.holdLookup src m).embAnswer a r = s.embAnswer a r :=
  rfl

/-- A share that is to wait when it arrives stays with those that wait. -/
theorem State.arriveLookup_waits {s : State} {m : LookupReq} (src : Nat) (hwait : s.embAnswer s.now m = .wait) :
    s.arriveLookup src m = s.holdLookup src m := by
  have hanswer : (s.holdLookup src m).embAnswer s.now m = .wait := (s.embAnswer_holdLookup src s.now m m).trans hwait
  change (s.holdLookup src m).tryLookup (src, s.now, m) = _
  simp only [State.tryLookup, hanswer]

/-- A share of another node that is served when it arrives becomes a job of the rows it names. -/
theorem State.arriveLookup_served {s : State} {m : LookupReq} (src : Nat) (hserve : s.embAnswer s.now m = .serve)
    (hother : m.requester ≠ s.self) (hjob : s.job? s.sched.nextJob = none) :
    (s.arriveLookup src m).work? s.sched.nextJob = some (.embShare {
      requester := m.requester, context := m.context, table := m.table, slot := m.slot, desc := s.readEmb m.table, weighted := m.weighted,
      rows := m.entries.map (fun e => { row := e.1, bag := e.2.1, weight := e.2.2,
                                        addr := s.rowAddr ((s.tab m.table).slot m.slot) (s.readEmb m.table) e.1 }) }) := by
  have hanswer : (s.holdLookup src m).embAnswer s.now m = .serve := (s.embAnswer_holdLookup src s.now m m).trans hserve
  show ((s.holdLookup src m).tryLookup (src, s.now, m)).work? _ = _
  simp only [State.tryLookup, hanswer]
  exact State.embServe_work _ m hother hjob

/-! Pooling (R265, R301). -/

/-- A clean pooling slice takes the sums it pooled; the share goes on while near-bank units still pool for it. -/
theorem State.runPooling_open {s : State} {id n : Nat} {j : Job} {y : EmbShare} (hjob : s.job? id = some j) (hout : y.out ≠ 0)
    (hclean : ((s.poolItems y).take n).any (s.itemPoison y) = false) :
    ∃ z, (s.runPooling j y n).work? id = some (.embShare z) ∧ z.sums = y.sums.drop n ∧ z.out = y.out ∧ z.table = y.table ∧ z.desc = y.desc := by
  have hopen : ∀ z : EmbShare, z.out = y.out → z.finished = false := fun z hz => by simp [EmbShare.finished, hz, hout]
  unfold State.runPooling
  simp only [hclean, hopen, Bool.false_eq_true, if_false]
  exact ⟨_, State.work?_put hjob rfl _, rfl, rfl, rfl, rfl⟩

/-! Partials of a lookup (R267). -/

/-- An owner's partial with OK is kept with its open share. -/
theorem State.receiveLookup_kept {s : State} {m : LookupPart} {j : Job} {l : Lookup} {o : LShare}
    (hlookup : s.lookups.find? (fun x => decide (x.2.ctx = m.context) && decide (x.1.epoch = m.epoch)) = some (j, l))
    (hopen : l.shares.find? (fun h => decide (h.owner = m.owner) && h.got.isNone) = some o) (hok : m.status = Status.ok.code) :
    s.receiveLookup m = s.putLookup j { l with shares := l.shares.erase o ++ [{ o with got := some m }], slow := l.slow || m.slowPath } := by
  have hmoved : ¬ Status.ok.code = Status.moved.code := by decide
  have hstatus : Status.ofCode Status.ok.code = some .ok := by decide
  simp only [State.receiveLookup, hlookup, hopen, hok, hmoved, hstatus, if_false]

/-! Combining (R266). -/

/-- The value of one output row: the entries of its bag added up, divided by the bag's length for a mean; an empty bag is zeros. -/
def State.bagVals (s : State) (l : Lookup) (b : Nat) : List F32 :=
  (List.range l.desc.dim).map (fun c =>
    let v := f32Sum s.freshCount (b * 1024 + c) ((l.entriesOf b).map (fun e => e.2.2.getD c 0#32))
    if l.entriesOf b = [] then 0#32
    else if l.pool = 1 then F32.div v (F32.ofNat (s.nat (l.off + 4 * b + 4) 4 - s.nat (l.off + 4 * b) 4)) else v)

/-- One output row's bytes: FP32, or BF16 where the descriptor says so. -/
def State.bagBytes (s : State) (l : Lookup) (b : Nat) : List Byte :=
  (s.bagVals l b).flatMap (fun v => if l.outBf16 then leBytes 2 v.toBf16.toNat else leBytes 4 v.toNat)

/-- The output rows of a combine slice, stored one after the other. -/
def State.storeBags (s : State) (dom : Nat) (l : Lookup) (lo n : Nat) : State :=
  (List.range n).foldl (fun u i => u.store (l.out + (lo + i) * l.outBytes) (s.bagBytes l (lo + i)) dom) s

/-- Storing output rows leaves the jobs. -/
theorem State.storeBags_jobs (s : State) (dom : Nat) (l : Lookup) (lo n : Nat) : (s.storeBags dom l lo n).sched.jobs = s.sched.jobs :=
  congrArg SchedSt.jobs ((Agree.fold (fun _ _ h => State.store_agree (List.Subset.refl _) h) (Agree.refl _ s)).sched_eq (by decide))

/-- A fold that carries a state and two counts is the fold of the state beside the two sums. -/
theorem foldl_two_sums {α : Type} (f : State → α → State) (p q : α → Nat) : ∀ (l : List α) (s : State) (m n : Nat),
    l.foldl (fun x a => (f x.1 a, x.2.1 + p a, x.2.2 + q a)) (s, m, n) = (l.foldl f s, m + (l.map p).sum, n + (l.map q).sum)
  | [], _, _, _ => rfl
  | a :: l, s, m, n => by
    rw [List.foldl_cons, foldl_two_sums f p q l]
    simp only [List.foldl_cons, List.map_cons, List.sum_cons, Nat.add_assoc]

/-- A combine slice that leaves bags stores those it combined, and counts the empty ones and the rows added. -/
theorem State.runLookupCombine_more {s : State} {j : Job} {l : Lookup} {lo n : Nat} (hmore : lo + n < l.bags) :
    s.runLookupCombine j l lo n = (s.storeBags j.dom l lo n).fresh.putLookup j { l with
      combined := lo + n
      empty := l.empty + ((List.range n).map (fun i => b2n (decide (l.entriesOf (lo + i) = [])))).sum
      rows := l.rows + ((List.range n).map (fun i => ((l.entriesOf (lo + i)).map (fun e => e.2.1)).sum)).sum } := by
  have hfold := foldl_two_sums (fun u i => u.store (l.out + (lo + i) * l.outBytes) (s.bagBytes l (lo + i)) j.dom)
    (fun i => b2n (decide (l.entriesOf (lo + i) = []))) (fun i => ((l.entriesOf (lo + i)).map (fun e => e.2.1)).sum) (List.range n) s 0 0
  unfold State.bagBytes State.bagVals at hfold
  unfold State.runLookupCombine
  simp only [hfold, Nat.zero_add, hmore, if_true]
  rfl

/-- Settles O32: shares wait or are served, slices go on as `State.runSort_more`, `State.runPooling_open` and
`State.runLookupCombine_more` have it, and a partial is kept with its share. -/
theorem lookupCommandsComplete : Obligations.LookupCommandsComplete := by
  refine ⟨?sort, ?waits, ?served, ?pooling, ?partialKept, ?combine⟩
  case sort =>
    intro s u sid id lo n x j l hrun hs hk hl hmore hidx hweight
    obtain ⟨hjob, -, -, -⟩ := State.lookup?_some hl
    have hend : u.endSort x = u.putLookup j { l with sorted := lo + n } := by
      simp only [State.endSort, hk, hl, State.runSort_more hmore hidx hweight]
    exact slice_work hrun hs (by rw [hk]; rfl) (by rw [hend]; exact State.work?_put hjob rfl _)
  case waits =>
    intro s src m hrun hmember hlive hwait
    refine ⟨_, peer_next (f := (State.arriveLookup · src m)) hrun hmember hlive, ?_⟩
    rw [State.arriveLookup_waits src hwait]
    exact ⟨rfl, rfl⟩
  case served =>
    intro s src m hrun hmember hlive hserve hother hjob
    exact ⟨_, peer_next (f := (State.arriveLookup · src m)) hrun hmember hlive, State.arriveLookup_served src hserve hother hjob⟩
  case pooling =>
    intro s u sid id n x j y hrun hs hk hy hout hclean
    obtain ⟨hjob, -, -, -⟩ := State.embShare?_some hy
    obtain ⟨z, hwork, hkept⟩ := State.runPooling_open hjob hout hclean
    have hend : u.endPooling x = u.runPooling j y n := by simp only [State.endPooling, hk, hy]
    obtain ⟨t, hnext, ht⟩ := slice_work (f := State.endPooling) (code := 21) hrun hs (by rw [hk]; rfl) (by rw [hend]; exact hwork)
    exact ⟨t, z, hnext, ht, hkept⟩
  case partialKept =>
    intro s m j l o hrun hmember hlive hlookup hopen hok hjob
    refine ⟨_, peer_next (f := (State.receiveLookup · m)) hrun hmember hlive, ?_⟩
    rw [State.receiveLookup_kept hlookup hopen hok]
    exact State.work?_put hjob rfl _
  case combine =>
    intro s u sid id lo n x j l hrun hs hk hl hmore
    obtain ⟨hjob, -, -, -⟩ := State.lookup?_some hl
    have hend : u.endCombineBags x = u.runLookupCombine j l lo n := by simp only [State.endCombineBags, hk, hl]
    obtain ⟨t, hnext, ht⟩ := slice_work (f := State.endCombineBags) (code := 22) hrun hs (by rw [hk]; rfl)
      (by rw [hend, State.runLookupCombine_more hmore]; exact State.work?_put hjob (u.storeBags_jobs j.dom l lo n) _)
    exact ⟨t, _, _, hnext, ht⟩

/-! Gradient rows (R270). -/

/-- A gradient of a row with an entry is added to that entry. -/
theorem State.addGradient_sum {s : State} {t step row : Nat} {e : GradEntry} (g : List F32)
    (hentry : (s.tab t).entries.find? (fun e => decide (e.step = step) && decide (e.row = row)) = some e) :
    s.addGradient t step row g = (s.setTab t { s.tab t with
      entries := (s.tab t).entries.map (fun x => if x = e then { e with sum := List.zipWith F32.add e.sum g } else x) }, true) := by
  simp only [State.addGradient, hentry]

/-- A gradient of a row without an entry becomes one while the step has room and at most one other step has entries. -/
theorem State.addGradient_new {s : State} {t step row : Nat} (g : List F32)
    (hnone : (s.tab t).entries.find? (fun e => decide (e.step = step) && decide (e.row = row)) = none)
    (hroom : ((s.tab t).entries.filter (fun e => e.step = step)).length < (s.readEmb t).updCap)
    (hsteps : (((s.tab t).entries.filter (fun e => e.step ≠ step)).map (fun e => e.step)).foldl insNat [] = [] ∨
      ∃ a, (((s.tab t).entries.filter (fun e => e.step ≠ step)).map (fun e => e.step)).foldl insNat [] = [a]) :
    s.addGradient t step row g = (s.setTab t { s.tab t with
      entries := (s.tab t).entries ++ [{ step := step, row := row, sum := g }] }, true) := by
  have hfew : ((((s.tab t).entries.filter (fun e => e.step ≠ step)).map (fun e => e.step)).foldl insNat []).length < 2 := by
    rcases hsteps with hempty | ⟨a, hone⟩
    · rw [hempty]; decide
    · rw [hone]; exact Nat.one_lt_two
  simp only [State.addGradient, hnone, Nat.not_le.mpr hroom, Nat.not_le.mpr hfew, decide_false, Bool.or_self, Bool.false_eq_true, if_false]

/-- A gradient row of a row that this node owns is what its addition to the buffer leaves, where the buffer takes it. -/
theorem State.gradientRow_owned {s u : State} {t step row : Nat} {g : List F32} (src : Nat) (hst : (s.tab t).st ≠ 0)
    (howns : s.owns (s.tab t).curSlot.map (s.readEmb t).shift row = true) (hadd : s.addGradient t step row g = (u, true)) :
    s.gradientRow src t step row g = u := by
  simp [State.gradientRow, hst, howns, hadd]

/-! Drops (R271). -/

/-- A job is an EMB_UPDATE of this table and step. -/
def Job.updatesStep (t step : Nat) (j : Job) : Bool :=
  match j.work with
  | .embUpdate u => decide (u.table = t) && decide (u.step = step)
  | _ => false

/-- A drop is counted on the first update of its table and step (log entry 66). -/
theorem State.dropReport_counted {s : State} {t step : Nat} {j : Job} {y : EmbUpdate}
    (hfirst : s.sched.jobs.find? (Job.updatesStep t step) = some j) (hwork : j.work = .embUpdate y) :
    s.dropReport t step = s.putJob { j with work := .embUpdate { y with dropped := y.dropped + 1 } } := by
  unfold State.dropReport
  split
  · next k hk =>
    obtain rfl : k = j := Option.some.inj (hk.symm.trans hfirst)
    simp only [hwork]
  · next hk => exact absurd (hk.symm.trans hfirst) (by simp)

/-! Closes (R272). -/

/-- What a job adds to the closes of the tables named: a STEP_CLOSE that is due, and has closed no step, closes one. -/
def State.closeIfDue (s : State) (f : Nat → Bool) (j : Job) : State :=
  match j.work with
  | .stepClose c =>
    if f c.table && decide (j.epoch < s.now) && decide (c.at_ ≤ s.now) && !(s.tab c.table).closed.any (fun x => x.job = j.id)
    then s.closeStep j c else s
  | _ => s

/-- The closes of the tables named go through the jobs one after the other. -/
theorem State.closeSteps_eq_foldl (s : State) (f : Nat → Bool) : s.closeSteps f = s.sched.jobs.foldl (fun u j => u.closeIfDue f j) s := rfl

/-- A job that closes no step of a table named adds nothing. -/
theorem State.closeIfDue_other {f : Nat → Bool} {j : Job} (h : ∀ c, j.work = .stepClose c → f c.table = false) (s : State) :
    s.closeIfDue f j = s := by
  unfold State.closeIfDue
  split
  · next c hc => simp [h c hc]
  · rfl

/-- A STEP_CLOSE that is due, and has closed no step, closes one. -/
theorem State.closeIfDue_due {s : State} {f : Nat → Bool} {j : Job} {c : StepClose} (hwork : j.work = .stepClose c)
    (hnamed : f c.table = true) (hepoch : j.epoch < s.now) (hat : c.at_ ≤ s.now)
    (hnew : (s.tab c.table).closed.any (fun x => x.job = j.id) = false) : s.closeIfDue f j = s.closeStep j c := by
  simp only [State.closeIfDue, hwork, hnamed, hepoch, hat, hnew, decide_true, Bool.not_false, Bool.and_self, if_true]

/-- Where one job alone is a STEP_CLOSE of its table, the table's closes are what that job adds. -/
theorem State.closeSteps_one {s : State} {t : Nat} {l1 l2 : List Job} {j : Job} (hjobs : s.sched.jobs = l1 ++ j :: l2)
    (hbefore : ∀ k ∈ l1, ∀ d, k.work = .stepClose d → d.table ≠ t) (hafter : ∀ k ∈ l2, ∀ d, k.work = .stepClose d → d.table ≠ t) :
    s.closeSteps (fun u => decide (u = t)) = s.closeIfDue (fun u => decide (u = t)) j := by
  rw [State.closeSteps_eq_foldl, hjobs]
  exact foldl_one s (fun k hk => State.closeIfDue_other fun d hd => decide_eq_false (hbefore k hk d hd))
    (fun k hk => State.closeIfDue_other fun d hd => decide_eq_false (hafter k hk d hd))

/-- A close with room for its step closes the open one at this epoch, with the seals that came early, and opens the next (R272,
log entry 63). -/
theorem State.closeStep_room {s : State} (j : Job) {c : StepClose} (hroom : (s.tab c.table).closed.length < 2) :
    (s.closeStep j c).tab c.table = { s.tab c.table with
      stepOpen := ((s.tab c.table).stepOpen + 1) % 2 ^ 32
      closed := (s.tab c.table).closed ++ [{ step := (s.tab c.table).stepOpen, c := s.now, lr := c.lr, job := j.id
                                             seals := ((s.tab c.table).early.filter (fun y => y.2 = (s.tab c.table).stepOpen)).map (fun y => y.1) }]
      early := (s.tab c.table).early.filter (fun y => y.2 ≠ (s.tab c.table).stepOpen) } := by
  unfold State.closeStep
  rw [if_neg (Nat.not_le.mpr hroom)]
  exact State.tab_setTab ..

/-! Seals (R273). -/

/-- The oldest step without its seal is noted as sealed. -/
def State.noteSealed (s : State) (t : Nat) (x : ClosedStep) : State :=
  s.setTab t { s.tab t with closed := (s.tab t).closed.map (fun y => if y.step = x.step then { y with sealSent := true } else y) }

/-- The owners that are sent a seal: the table's other owners that are not declared failed. -/
def State.sealOwners (s : State) (t : Nat) : List Nat :=
  (s.otherOwners (s.tab t).curSlot.map (s.readEmb t)).filter (fun o => !s.fabric.failed.contains o)

/-- Once no lookup from before its close is open, a step is noted as sealed and its seal goes out to each owner. -/
theorem State.sealStep_sends {s : State} {t : Nat} {x : ClosedStep} (hfirst : (s.tab t).closed.find? (fun x => !x.sealSent) = some x)
    (hdone : s.lookups.any (fun y => decide (y.2.table = t) && decide (y.1.epoch < x.c)) = false) :
    s.sealStep t = (s.sealOwners t).foldl (fun u o => u.send o 3 (.seal t x.step)) (s.noteSealed t x) := by
  simp only [State.sealStep, hfirst, hdone, Bool.false_eq_true, if_false]
  rfl

/-- Messages to several nodes leave the tables. -/
theorem State.sends_emb (s : State) (queue : Nat) (body : NetMsg) (l : List Nat) :
    (l.foldl (fun u o => u.send o queue body) s).emb = s.emb :=
  (Agree.fold (fun _ _ h => State.send_agree (List.Subset.refl _) h) (Agree.refl _ s)).emb_eq (by decide)

/-- The seal of a closed step is noted with it. -/
theorem State.recvSeal_closed {s : State} {t step : Nat} (src : Nat) (hst : (s.tab t).st ≠ 0)
    (hclosed : (s.tab t).closed.any (fun x => x.step = step) = true) :
    s.recvSeal src t step = s.setTab t { s.tab t with
      closed := (s.tab t).closed.map (fun x => if x.step = step then { x with seals := insNat x.seals src } else x) } := by
  simp only [State.recvSeal, hst, hclosed, if_false, if_true]

/-- The first seal of an owner for a step not yet closed is kept until the step closes. -/
theorem State.recvSeal_early {s : State} {src t step : Nat} (hst : (s.tab t).st ≠ 0)
    (hopen : (s.tab t).closed.any (fun x => x.step = step) = false) (hahead : (s.tab t).stepOpen ≤ step)
    (hnew : (s.tab t).early.contains (src, step) = false) :
    s.recvSeal src t step = s.setTab t { s.tab t with early := (s.tab t).early ++ [(src, step)] } := by
  simp only [State.recvSeal, hst, hopen, hahead, hnew, if_false, Bool.false_eq_true, decide_true, Bool.not_false, Bool.and_self, if_true]

/-- Settles O33: gradients enter the buffer of their step, a drop the first update that the report finds (log entry 66), the step
closes at this epoch (log entry 63), and seals leave, are noted or kept. -/
theorem gradientCommandsComplete : Obligations.GradientCommandsComplete := by
  refine ⟨?newEntry, ?sum, ?drop, ?close, ?sealSent, ?sealNoted, ?sealKept⟩
  case newEntry =>
    intro s src t step row g hrun hmember hlive hst howns hnone hroom hsteps
    refine ⟨_, peer_next (f := (State.gradientRow · src t step row g)) hrun hmember hlive, ?_⟩
    rw [State.gradientRow_owned src hst howns (State.addGradient_new g hnone hroom hsteps), State.tab_setTab]
  case sum =>
    intro s src t step row g e hrun hmember hlive hst howns hentry
    refine ⟨_, peer_next (f := (State.gradientRow · src t step row g)) hrun hmember hlive, ?_⟩
    rw [State.gradientRow_owned src hst howns (State.addGradient_sum g hentry), State.tab_setTab]
  case drop =>
    intro s t step row j y hrun hjob hwork hfirst
    refine ⟨_, node_next (f := (State.dropReport · t step)) hrun, ?_⟩
    rw [State.dropReport_counted hfirst hwork]
    exact State.work?_put hjob rfl _
  case close =>
    intro s t l1 l2 j c hrun hwindow hjobs hwork htable hbefore hafter hepoch hat hnew hroom
    refine ⟨_, window_next (f := (State.closeSteps · (fun u => decide (u = t)))) hrun hwindow, ?_⟩
    subst htable
    rw [State.closeSteps_one hjobs hbefore hafter, State.closeIfDue_due hwork (decide_eq_true rfl) hepoch hat hnew,
      State.closeStep_room j hroom]
    exact ⟨rfl, _, rfl⟩
  case sealSent =>
    intro s t x hrun hmember hfirst hdone
    refine ⟨_, node_next (f := (State.sealStep · t)) hrun, ?_⟩
    rw [State.sealStep_sends hfirst hdone]
    have htab : (s.noteSealed t x).tab t = _ := State.tab_setTab ..
    have hlive : ∀ o ∈ s.sealOwners t, (s.noteSealed t x).fabric.failed.contains o = false := by
      intro o ho
      have hnot : (!s.fabric.failed.contains o) = true := (List.mem_filter.mp ho).2
      exact (Bool.not_eq_true' _).mp hnot
    refine ⟨?_, State.sends_out 3 _ _ (s.noteSealed t x) hlive (State.maySend_member hmember _)⟩
    rw [State.tab_congr (State.sends_emb ..), htab]
  case sealNoted =>
    intro s src t step hrun hmember hlive hst hclosed
    refine ⟨_, peer_next (f := (State.recvSeal · src t step)) hrun hmember hlive, ?_⟩
    rw [State.recvSeal_closed src hst hclosed, State.tab_setTab]
  case sealKept =>
    intro s src t step hrun hmember hlive hst hopen hahead hnew
    refine ⟨_, peer_next (f := (State.recvSeal · src t step)) hrun hmember hlive, ?_⟩
    rw [State.recvSeal_early hst hopen hahead hnew, State.tab_setTab]

end Sys2Proof.Machine
end

section
/-! Near-bank units: the areas that their instructions and events keep to (R294, R295), and what each leaves of its unit, of the
lace and of the counters: control (R293-R295, R305), arithmetic and stores (R289-R291, R294, R314), beats and refreshes (R298, R310,
R311). -/

namespace Sys2Proof.Machine

open Sys2Proof

/-! Areas. -/

/-- Settles O10: what `exec_agree` says of every command, for the instructions and events of near-bank units. -/
theorem unitInstructionsKeepToTheirAreas : Obligations.UnitInstructionsKeepToTheirAreas :=
  fun _ _ _ _ he _ ha => (exec_agree he).same ha

/-! An instruction that is done. -/

/-- The unit after the instruction at its pointer gave it the registers `r`. -/
theorem State.unit?_nbDone_word {s : State} {k u w : Nat} {x : NbUnit} {i : NbIssue} (hw : s.nbWord k u = some (x, i, w)) (r : NbRegs) :
    (s.nbDone k u w x r).unit? k u = some (x.after w r) := by
  obtain ⟨-, hissue, hk, hu, -⟩ := State.nbWord_some hw
  exact State.unit?_nbDone x w r hissue hk hu

/-- A meaning that ends with the registers `r` given to the unit leaves the unit so. -/
theorem instr_next {s : State} {k u w : Nat} {x : NbUnit} {i : NbIssue} {f : State → State} {r : NbRegs} (hrun : s.running = true)
    (hw : s.nbWord k u = some (x, i, w)) (hf : f s = s.nbDone k u w x r) :
    ∃ t, node s f = .next t ∧ t.unit? k u = some (x.after w r) :=
  ⟨_, node_next hrun, by rw [hf]; exact State.unit?_nbDone_word hw r⟩

/-! NOP, SET and BR (R294). -/

theorem State.nbNop_done {s : State} {k u w : Nat} {x : NbUnit} {i : NbIssue} (hw : s.nbWord k u = some (x, i, w)) (hop : nbOp w = 0) :
    s.nbNop k u = s.nbDone k u w x x.regs.next := by
  simp only [State.nbNop, hw, hop, if_true]

theorem State.nbSet_done {s : State} {k u w : Nat} {x : NbUnit} {i : NbIssue} (hw : s.nbWord k u = some (x, i, w)) (hop : nbOp w = 2) :
    s.nbSet k u = s.nbDone k u w x (x.regs.setScalar (nbD w) (fieldOf w 0 20)).next := by
  simp only [State.nbSet, hw, hop, if_true]

/-- BR jumps always or on TAIL, else the unit goes on. -/
theorem State.nbBr_done {s : State} {k u w : Nat} {x : NbUnit} {i : NbIssue} (hw : s.nbWord k u = some (x, i, w)) (hop : nbOp w = 13)
    (hcond : nbFmt w ≤ 1) :
    s.nbBr k u = s.nbDone k u w x (if nbFmt w = 0 ∨ x.regs.tail = true then { x.regs with pc := nbW w } else x.regs.next) := by
  simp [State.nbBr, hw, hop, hcond]

/-! LOOP (R294). -/

/-- A 16-bit counter falls to 0 from 1 alone. -/
theorem counter_falls_to_zero {c : Nat} (hc : c < 2 ^ 16) : (c + 65535) % 65536 = 0 ↔ c = 1 := by
  omega

/-- LOOP of a counter register: it falls by one, and the unit jumps unless it is now 0. -/
theorem State.nbLoop_done {s : State} {k u w : Nat} {x : NbUnit} {i : NbIssue} (hw : s.nbWord k u = some (x, i, w)) (hop : nbOp w = 12)
    (hcounter : 4 ≤ nbD w) (hc : x.regs.scalar (nbD w) < 2 ^ 16) :
    s.nbLoop k u = s.nbDone k u w x (if x.regs.scalar (nbD w) = 1 then (x.regs.setScalar (nbD w) 0).next
      else { x.regs.setScalar (nbD w) ((x.regs.scalar (nbD w) + 65535) % 65536) with pc := nbW w }) := by
  have hloop : s.nbLoop k u = s.nbDone k u w x (if (x.regs.scalar (nbD w) + 65535) % 65536 = 0
      then (x.regs.setScalar (nbD w) ((x.regs.scalar (nbD w) + 65535) % 65536)).next
      else { x.regs.setScalar (nbD w) ((x.regs.scalar (nbD w) + 65535) % 65536) with pc := nbW w }) := by
    simp only [State.nbLoop, hw, hop, if_true, Nat.not_lt.mpr hcounter, if_false]
    rfl
  rw [hloop]
  by_cases hone : x.regs.scalar (nbD w) = 1
  · have hzero := (counter_falls_to_zero hc).mpr hone
    rw [if_pos hzero, if_pos hone, hzero]
  · rw [if_neg (mt (counter_falls_to_zero hc).mp hone), if_neg hone]

/-! END (R294, R295, R305). -/

@[simp] theorem NbGran.regs_pc (g : NbGran) (seed : Nat) : (g.regs seed).pc = 0 := rfl

@[simp] theorem NbGran.regs_srcA (g : NbGran) (seed : Nat) : (g.regs seed).scalar 0 = 4 * g.a := rfl

@[simp] theorem NbGran.regs_dst (g : NbGran) (seed : Nat) : (g.regs seed).scalar 3 = 4 * g.d := rfl

@[simp] theorem NbGran.regs_count (g : NbGran) (seed : Nat) : (g.regs seed).scalar 4 = g.n := rfl

/-- A unit that starts its next granule run. -/
def NbUnit.starts (x : NbUnit) (g : NbGran) (gs : List NbGran) (seed : Nat) : NbUnit :=
  { x with regs := g.regs seed, snap := g.regs seed, src := g.src, dst := [(g.d, g.n)], left := gs }

theorem State.nbEndI_end {s : State} {k u w : Nat} {x : NbUnit} {i : NbIssue} (hw : s.nbWord k u = some (x, i, w)) (hop : nbOp w = 1) :
    s.nbEndI k u = s.nbEnd k u x := by
  simp only [State.nbEndI, hw, hop, if_true]

/-- END of the last granule: past its stitch point the unit stops. -/
theorem State.unit?_nbEnd_last {s : State} {k u : Nat} {x : NbUnit} {i : NbIssue} (hissue : s.issue? k = some i) (hk : k < 4)
    (hu : u < 1024) (hleft : x.left = []) : (s.nbEnd k u x).unit? k u = some { x.stitched with on := false } := by
  have hstitched : x.stitched.left = [] := hleft
  simp only [State.nbEnd, State.unit?_stitchPoint x hissue hk hu, hstitched]
  exact State.unit?_setUnit _ hk hu _

/-- END with granules left: past its stitch point the unit starts the next one. -/
theorem State.unit?_nbEnd_next {s : State} {k u : Nat} {x : NbUnit} {i : NbIssue} {g : NbGran} {gs : List NbGran}
    (hissue : s.issue? k = some i) (hk : k < 4) (hu : u < 1024) (hleft : x.left = g :: gs) :
    (s.nbEnd k u x).unit? k u = some (x.stitched.starts g gs (s.stitchPoint k u x).freshCount) := by
  have hstitched : x.stitched.left = g :: gs := hleft
  simp only [State.nbEnd, State.unit?_stitchPoint x hissue hk hu, hstitched]
  exact State.unit?_setUnit _ hk hu _

/-- Settles O36: NOP, SET, LOOP and BR end with registers given to the unit, END with its stitch point and the next granule, if
any (R305). -/
theorem unitControlInstructions : Obligations.UnitControlInstructions := by
  refine ⟨?nop, ?endLast, ?endNext, ?set, ?loop, ?br⟩
  case nop =>
    intro s k u w x i hrun hw hop
    exact instr_next (f := (State.nbNop · k u)) hrun hw (State.nbNop_done hw hop)
  case endLast =>
    intro s k u w x i hrun hw hop hleft
    obtain ⟨-, hissue, hk, hu, -⟩ := State.nbWord_some hw
    refine ⟨_, node_next (f := (State.nbEndI · k u)) hrun, ?_⟩
    rw [State.nbEndI_end hw hop]
    exact State.unit?_nbEnd_last hissue hk hu hleft
  case endNext =>
    intro s k u w x i g gs hrun hw hop hleft
    obtain ⟨-, hissue, hk, hu, hon⟩ := State.nbWord_some hw
    refine ⟨_, x.stitched.starts g gs (s.stitchPoint k u x).freshCount, node_next (f := (State.nbEndI · k u)) hrun, ?_⟩
    rw [State.nbEndI_end hw hop]
    exact ⟨State.unit?_nbEnd_next hissue hk hu hleft, hon, rfl, rfl, rfl, rfl, rfl, NbGran.regs_srcA .., NbGran.regs_dst ..,
      NbGran.regs_count ..⟩
  case set =>
    intro s k u w x i hrun hw hop
    exact instr_next (f := (State.nbSet · k u)) hrun hw (State.nbSet_done hw hop)
  case loop =>
    intro s k u w x i hrun hw hop hcounter hc
    exact instr_next (f := (State.nbLoop · k u)) hrun hw (State.nbLoop_done hw hop hcounter hc)
  case br =>
    intro s k u w x i hrun hw hop hcond
    exact instr_next (f := (State.nbBr · k u)) hrun hw (State.nbBr_done hw hop hcond)

/-! ST (R289-R291, R294). -/

/-- The line that ST puts into the write buffer: the registers from D on, narrowed to the format `f`; past V7 they go on at V0
(log entry 56). -/
def NbRegs.storeLine (r : NbRegs) (seed f w : Nat) : NbLine :=
  { line := r.scalar (nbA w) / 4
    data := ((List.range (nbStoreRegs f)).flatMap (fun j => (r.vec (nbD w + j)).lanes)).flatMap (fun v => (nbEncode seed f v).1)
    poison := (List.range (nbStoreRegs f)).any (fun j => (r.vec (nbD w + j)).poison) }

/-- Too many clipped elements of a stored line are counted, on the node and on the issue. -/
def State.noteClip (s : State) (k : Nat) (i : NbIssue) (clip : Bool) : State :=
  if clip then (s.bump Reg.G.NB_CLIP_LINES).setIssue k (some { i with clipped := i.clipped + 1 }) else s

/-- A K-stack keeps an issue where clipped elements are counted. -/
theorem State.issue?_noteClip {s : State} {k : Nat} {i : NbIssue} (hissue : s.issue? k = some i) (clip : Bool) :
    ∃ j, (s.noteClip k i clip).fresh.issue? k = some j := by
  cases clip with
  | false => exact ⟨i, hissue⟩
  | true => exact ⟨_, State.issue?_setIssue (s.bump Reg.G.NB_CLIP_LINES) k _⟩

/-- A line put into the write buffer leaves the registers. -/
@[simp] theorem NbUnit.buffered_regs (x : NbUnit) (b : NbLine) : (x.buffered b).regs = x.regs := by
  unfold NbUnit.buffered
  dsimp only
  split <;> rfl

/-- ST inside the windows: once its clipped elements are counted, the write buffer takes the line. -/
theorem State.nbSt_done {s : State} {k u w : Nat} {x : NbUnit} {i : NbIssue} (hw : s.nbWord k u = some (x, i, w)) (hop : nbOp w = 6)
    (hfmt : i.fmt (nbFmt w) < 4) (hdst : x.inDst (x.regs.scalar (nbA w) / 4) = true) :
    ∃ clip y, y = (s.noteClip k i clip).fresh.nbBuffer k u x (x.regs.storeLine s.freshCount (i.fmt (nbFmt w)) w) ∧
      s.nbSt k u = y.1.nbDone k u w y.2 (nbInc w 64 y.2.regs).next := by
  simp only [State.nbSt, hw, hop, hfmt, hdst, decide_true, Bool.and_self, if_true, List.flatMap_map, List.any_map]
  generalize s.overClip _ _ = clip
  exact ⟨clip, _, rfl, by cases clip <;> rfl⟩

/-- The unit after ST inside the windows. -/
theorem State.unit?_nbSt {s : State} {k u w : Nat} {x : NbUnit} {i : NbIssue} (hw : s.nbWord k u = some (x, i, w)) (hop : nbOp w = 6)
    (hfmt : i.fmt (nbFmt w) < 4) (hdst : x.inDst (x.regs.scalar (nbA w) / 4) = true) :
    (s.nbSt k u).unit? k u =
      some ((x.buffered (x.regs.storeLine s.freshCount (i.fmt (nbFmt w)) w)).after w (nbInc w 64 x.regs).next) := by
  obtain ⟨-, hissue, hk, hu, -⟩ := State.nbWord_some hw
  obtain ⟨clip, y, rfl, hst⟩ := State.nbSt_done hw hop hfmt hdst
  obtain ⟨j, hkept⟩ := State.issue?_noteClip hissue clip
  obtain ⟨⟨m, hbuffered⟩, hunit⟩ := State.nbBuffer_spec x (x.regs.storeLine s.freshCount (i.fmt (nbFmt w)) w) hkept hk hu
  rw [hst, State.unit?_nbDone _ w _ hbuffered hk hu, hunit, NbUnit.buffered_regs]

/-! ADD, MUL, FMA and ACT (R290, R294, R314). -/

/-- A meaning on vector registers that gives the vector `v` puts it into register D. -/
theorem vec_next {s : State} {k u w op : Nat} {x : NbUnit} {i : NbIssue} {f : Nat → NbRegs → Option NbVec} {v : NbVec}
    (hrun : s.running = true) (hw : s.nbWord k u = some (x, i, w)) (hop : nbOp w = op) (hf : f w x.regs = some v) :
    ∃ t, node s (fun s => s.nbVec k u op f) = .next t ∧ t.unit? k u = some (x.after w (x.regs.setVec (nbD w) v).next) :=
  ⟨_, node_next hrun, State.unit?_nbVec hw hop hf⟩

/-- ACT defines its functions 0 to 4. -/
theorem nbAct_isSome {fn : Nat} (hfn : fn < 5) (a b c : F32) : (nbAct fn a b c).isSome = true := by
  interval_cases fn <;> rfl

/-- What ACT computes in one lane. -/
def NbRegs.actLane (r : NbRegs) (w l : Nat) : Option F32 :=
  nbAct (nbFmt w) ((r.vec (nbA w)).lanes.getD l 0#32) ((r.vec (nbB w)).lanes.getD l 0#32) ((r.vec (nbC w)).lanes.getD l 0#32)

theorem NbRegs.actLane_isSome {w : Nat} (hfn : nbFmt w < 5) (r : NbRegs) (l : Nat) : (r.actLane w l).isSome = true :=
  nbAct_isSome hfn ..

/-- What ACT puts into register D. -/
def NbRegs.actVec (r : NbRegs) (w : Nat) : NbVec :=
  { lanes := ((List.range 16).map (r.actLane w)).map (fun o => o.getD 0#32)
    poison := (r.vec (nbA w)).poison || (decide (nbFmt w = 1) && ((r.vec (nbB w)).poison || (r.vec (nbC w)).poison)) }

/-- ACT answers a vector where every lane has a value. -/
def NbRegs.actVec? (r : NbRegs) (w : Nat) : Option NbVec :=
  if ((List.range 16).map (r.actLane w)).any Option.isNone then none else some (r.actVec w)

theorem State.nbActI_eq (s : State) (k u : Nat) : s.nbActI k u = s.nbVec k u 10 (fun w r => r.actVec? w) := rfl

/-- ACT of a function that is defined answers a vector. -/
theorem NbRegs.actVec?_defined {w : Nat} (hfn : nbFmt w < 5) (r : NbRegs) : r.actVec? w = some (r.actVec w) := by
  have hlanes : ((List.range 16).map (r.actLane w)).any Option.isNone = false := by
    simp [Option.ne_none_iff_isSome, NbRegs.actLane_isSome hfn]
  simp only [NbRegs.actVec?, hlanes, Bool.false_eq_true, if_false]

/-- Each lane of ACT holds the function's value there. -/
theorem NbRegs.actVec_lane {w l : Nat} (hfn : nbFmt w < 5) (hl : l < 16) (r : NbRegs) : (r.actVec w).lanes[l]? = r.actLane w l := by
  obtain ⟨v, hv⟩ := Option.isSome_iff_exists.mp (NbRegs.actLane_isSome hfn r l)
  simp [NbRegs.actVec, hl, hv]

/-- Settles O38: ST ends with a line in the write buffer (log entry 56), the others with a vector in register D. -/
theorem unitArithmetic : Obligations.UnitArithmetic := by
  refine ⟨?st, ?add, ?mul, ?fma, ?act⟩
  case st =>
    intro s k u w x i hrun hw hop hfmt hdst
    exact ⟨_, _, node_next (f := (State.nbSt · k u)) hrun, State.unit?_nbSt hw hop hfmt hdst, rfl, rfl, rfl⟩
  case add =>
    intro s k u w x i hrun hw hop
    exact vec_next hrun hw hop rfl
  case mul =>
    intro s k u w x i hrun hw hop
    exact vec_next hrun hw hop rfl
  case fma =>
    intro s k u w x i hrun hw hop
    exact vec_next hrun hw hop rfl
  case act =>
    intro s k u w x i hrun hw hop hfn
    obtain ⟨t, hnext, ht⟩ := vec_next (f := fun w r => r.actVec? w) hrun hw hop (NbRegs.actVec?_defined hfn x.regs)
    exact ⟨t, _, hnext, ht, rfl, by simp [NbRegs.actVec], fun l hl => NbRegs.actVec_lane hfn hl x.regs⟩

/-! The lace (R298). -/

/-- What is on its way to a unit does not hang on the units' own state. -/
@[simp] theorem State.beats_setUnit (s : State) (k u v : Nat) (x : NbUnit) : (s.setUnit k u x).beats k v = s.beats k v := rfl

/-- The first beat on its way to a unit is the one that arrives. -/
theorem State.laceBeat_first {s : State} {k u : Nat} {b : NbBeat} {l : List NbBeat} (hk : k < 4) (hu : u < 1024)
    (hbeats : s.beats k u = b :: l) : s.laceBeat k u b = s.laceStep k u := by
  simp [State.laceBeat, hk, hu, hbeats]

/-- A beat of the unit's train goes into an inbox with room. -/
theorem State.laceStep_taken {s : State} {k u : Nat} {b : NbBeat} {l : List NbBeat} {x : NbUnit} (hbeats : s.beats k u = b :: l)
    (hunit : s.unit? k u = some x) (hon : x.on = true) (htrain : x.regs.train = some b.train) (hroom : x.inbox.length < 4) :
    s.laceStep k u = (s.setBeats k u l).setUnit k u { x with inbox := x.inbox ++ [b] } := by
  simp [State.laceStep, hbeats, hunit, hon, htrain, hroom]

/-- A beat of the unit's train waits at a full inbox. -/
theorem State.laceStep_stalled {s : State} {k u : Nat} {b : NbBeat} {l : List NbBeat} {x : NbUnit} (hbeats : s.beats k u = b :: l)
    (hunit : s.unit? k u = some x) (hon : x.on = true) (htrain : x.regs.train = some b.train) (hfull : 4 ≤ x.inbox.length) :
    s.laceStep k u = s := by
  simp [State.laceStep, hbeats, hunit, hon, htrain, Nat.not_lt.mpr hfull]

/-- A beat that the unit has not latched goes on to the next unit. -/
theorem State.laceStep_passes {s : State} {k u v : Nat} {b : NbBeat} {l : List NbBeat} (hbeats : s.beats k u = b :: l)
    (hother : ∀ x, s.unit? k u = some x → x.on = false ∨ x.regs.train ≠ some b.train) (hnext : s.nextUnit k u = some v) :
    s.laceStep k u = (s.setBeats k u l).setBeats k v (s.beats k v ++ [b]) := by
  cases hunit : s.unit? k u with
  | none => simp only [State.laceStep, hbeats, hunit, hnext]
  | some x =>
    have hpass : (x.on && decide (x.regs.train = some b.train)) = false := by
      rcases hother x hunit with hoff | htrain
      · simp [hoff]
      · simp [htrain]
    simp [State.laceStep, hbeats, hunit, hnext, hpass]

/-! Refresh (R310, R311). -/

/-- A refresh that falls due while LACC waits for its beat finds the unit at a stitch point. -/
theorem State.refresh_waiting {s : State} {k u w : Nat} {x : NbUnit} {i : NbIssue} (hw : s.nbWord k u = some (x, i, w))
    (hop : nbOp w = 11) (hwait : x.inbox.any (fun b => x.regs.train = some b.train) = false) :
    s.refresh k u = s.stitchPoint k u { x with refreshDue := true } := by
  obtain ⟨hunit, -, -, -, hon⟩ := State.nbWord_some hw
  simp only [State.refresh, hunit, hon, hw, hop, hwait, decide_true, Bool.not_true, Bool.not_false, Bool.and_self, Bool.false_eq_true,
    if_true, if_false]

/-- A refresh that falls due at any other instruction waits for the unit's next stitch point. -/
theorem State.refresh_busy {s : State} {k u w : Nat} {x : NbUnit} {i : NbIssue} (hw : s.nbWord k u = some (x, i, w))
    (hop : nbOp w ≠ 11) : s.refresh k u = s.setUnit k u { x with refreshDue := true } := by
  obtain ⟨hunit, -, -, -, hon⟩ := State.nbWord_some hw
  simp only [State.refresh, hunit, hon, hw, hop, decide_false, Bool.not_true, Bool.false_and, Bool.false_eq_true, if_false]

/-- A unit back at its last stitch point: its stores and beats since are gone, the beats it consumed are in its inbox again. -/
def NbUnit.preempted (x : NbUnit) : NbUnit :=
  { x with buf := [], sent := [], inbox := x.consumed ++ x.inbox, consumed := [], regs := x.snap, refreshDue := false }

/-- A second refresh that falls due takes a running unit back to its last stitch point. -/
theorem State.preempt_due {s : State} {k u : Nat} {x : NbUnit} (hunit : s.unit? k u = some x) (hon : x.on = true)
    (hdue : x.refreshDue = true) : s.preempt k u = (s.setUnit k u x.preempted).bump (Reg.KS.FORCED_PREEMPTS k) := by
  simp only [State.preempt, hunit]
  exact if_pos (by rw [hon, hdue]; rfl)

/-- A counter leaves the units. -/
@[simp] theorem State.unit?_bump (s : State) (f : Fld) (k u : Nat) : (s.bump f).unit? k u = s.unit? k u := rfl

/-- Settles O39: a beat is taken, waits or passes as `State.laceStep` has it, a refresh finds a stitch point or falls due, and a
forced preemption leaves `NbUnit.preempted`. -/
theorem unitEvents : Obligations.UnitEvents := by
  refine ⟨?taken, ?passes, ?stalled, ?refreshWaiting, ?refreshBusy, ?preemption⟩
  case taken =>
    intro s k u train vals poison x l hrun hbeats hunit hon htrain hroom
    obtain ⟨hk, hu⟩ := State.unit?_bounds hunit
    refine ⟨_, node_next (f := (State.laceBeat · k u ⟨train, vals, poison⟩)) hrun, ?_⟩
    rw [State.laceBeat_first hk hu hbeats, State.laceStep_taken hbeats hunit hon htrain hroom]
    exact ⟨State.unit?_setUnit _ hk hu _, State.beats_setBeats_same ..⟩
  case passes =>
    intro s k u v train vals poison l hrun hk hu hbeats hother hnext
    refine ⟨_, node_next (f := (State.laceBeat · k u ⟨train, vals, poison⟩)) hrun, ?_⟩
    have hahead : u ≠ v := (State.nextUnit_gt hnext).1.ne
    rw [State.laceBeat_first hk hu hbeats, State.laceStep_passes hbeats hother hnext, State.beats_setBeats_other _ _ hahead]
    exact ⟨State.beats_setBeats_same .., State.beats_setBeats_same ..⟩
  case stalled =>
    intro s k u train vals poison x l hbeats hunit hon htrain hfull
    obtain ⟨hk, hu⟩ := State.unit?_bounds hunit
    show node s (State.laceBeat · k u ⟨train, vals, poison⟩) = .next s
    simp only [node, State.laceBeat_first hk hu hbeats, State.laceStep_stalled hbeats hunit hon htrain hfull, ite_self]
  case refreshWaiting =>
    intro s k u w x i hrun hw hop hwait
    obtain ⟨-, hissue, hk, hu, -⟩ := State.nbWord_some hw
    refine ⟨_, node_next (f := (State.refresh · k u)) hrun, ?_⟩
    rw [State.refresh_waiting hw hop hwait]
    exact State.unit?_stitchPoint _ hissue hk hu
  case refreshBusy =>
    intro s k u w x i hrun hw hop
    obtain ⟨-, -, hk, hu, -⟩ := State.nbWord_some hw
    refine ⟨_, node_next (f := (State.refresh · k u)) hrun, ?_⟩
    rw [State.refresh_busy hw hop]
    exact State.unit?_setUnit _ hk hu _
  case preemption =>
    intro s k u x hrun hunit hon hdue
    obtain ⟨hk, hu⟩ := State.unit?_bounds hunit
    refine ⟨_, node_next (f := (State.preempt · k u)) hrun, ?_⟩
    rw [State.preempt_due hunit hon hdue, State.unit?_bump]
    exact ⟨State.unit?_setUnit _ hk hu _, State.fld_bump_same _ _ (by simp [Reg.KS.FORCED_PREEMPTS])⟩

end Sys2Proof.Machine
end

section
/-! Near-bank slices that run to their end: a pooling slice's sums (R301) and an NB_RUN's granules (R305). -/

namespace Sys2Proof.Machine

open Sys2Proof

/-- The slice that leaves a K-stack's issue takes every unit and every beat of that K-stack with it. -/
theorem State.nbClear_gone (s : State) (k : Nat) :
    (s.nbClear k).nb.units.all (fun z => decide (z.1 / 1024 ≠ k)) = true ∧
      (s.nbClear k).nb.lace.all (fun z => decide (z.1 / 1024 ≠ k)) = true := by
  unfold State.nbClear
  dsimp only
  rw [(State.stores_nb _ _).1, (State.stores_nb _ _).2]
  simp [State.setIssue]

/-- The slice that leaves a K-stack's issue leaves the jobs. -/
theorem State.nbClear_jobs (s : State) (k : Nat) : (s.nbClear k).sched.jobs = s.sched.jobs :=
  (State.nbClear_agree (List.Subset.refl _) (Agree.refl _ s)).jobs_eq (by decide)

/-- A job of an NB_RUN is found where the jobs are the same. -/
theorem State.nbJob?_congr {s t : State} (h : t.sched.jobs = s.sched.jobs) (id : Nat) : t.nbJob? id = s.nbJob? id := by
  unfold State.nbJob?
  rw [State.job?_congr h]

/-- Units that run to their stops leave the node running. -/
theorem State.nbRunAll_running (s : State) (k : Nat) : (s.nbRunAll k).running = s.running := by
  have hpower : (s.nbRunAll k).power = s.power :=
    (State.nbRunAll_agree (L := [.freshCount, .regs, .mem, .nb]) (by decide) (Agree.refl _ s)).power_eq (by decide)
  rw [State.running, State.running, hpower]

/-- A slice whose units all stop ends: units, beats and the jobs' work are as the end of its kind leaves them. -/
theorem nbFinish_next {s u : State} {sid code : Nat} {x : Slice} {f : State → Slice → State} (hrun : s.running = true)
    (hslice : s.sched.slices.find? (fun x => x.id = sid) = some x) (hcode : kindCode x.kind = code)
    (hstopped : (s.nbRunAll x.idx).nbStopped x.idx = true) (hend : (s.nbRunAll x.idx).endSlice sid = some (x, u)) :
    ∃ t, node s (fun s => s.nbFinish sid code f) = .next t ∧ t.nb = (f u x).nb ∧ ∀ id, t.work? id = (f u x).work? id := by
  obtain ⟨t, hnext, hagree, hwork⟩ := slice_state (f := f) ((s.nbRunAll_running x.idx).trans hrun) hend hcode
  exact ⟨t, (nbFinish_of hrun hslice hcode hstopped).trans hnext, hagree.nb_eq (by decide), hwork⟩

/-! Pooling (R301). -/

/-- A share with the sum of one more train, which waits in its scratch lines. -/
def EmbShare.summed (y : EmbShare) (k : Nat) (tr : Train) : EmbShare :=
  { y with out := y.out - tr.rows.length
           sums := y.sums ++ [{ bag := tr.bag, k := k, u := tr.tail, line := tr.scratch, count := tr.rows.length }] }

/-- A pooling slice of one train ends with the train summed and its issue free. -/
theorem State.endPool_one {s : State} {k : Nat} {i : NbIssue} {tr : Train} {j : Job} {y : EmbShare} (htrains : i.trains = [tr])
    (hshare : s.embShare? tr.job = some (j, y)) : s.endPool k i = (s.putShare j (y.summed k tr)).nbClear k := by
  simp only [State.endPool, htrains, List.foldl_cons, List.foldl_nil, hshare]
  rfl

/-! NB_RUN (R305). -/

/-- An NB_RUN that has done `m` more granule runs from `lo` on, with what their slice clipped, poisoned and committed. -/
def NbJob.ran (n : NbJob) (i : NbIssue) (lo m : Nat) : NbJob :=
  { n with done := (lo, m) :: n.done, clipped := n.clipped + i.clipped, poisoned := n.poisoned + i.poisoned
           loadedPoison := n.loadedPoison || i.loadedPoison, committed := i.committed.foldl insNat n.committed }

/-- An NB_RUN slice whose units kept to their windows, and that is not the last, leaves its command further on. -/
theorem State.endNbSlice_more {s : State} {k lo m : Nat} {i : NbIssue} {j : Job} {n : NbJob} (hjob : s.nbJob? i.job = some (j, n))
    (hsound : (s.unitsOf k).any (fun v => (s.unit? k v).any (fun x => x.bad)) = false)
    (hmore : m + (n.done.map (fun x => x.2)).sum ≠ n.runs) :
    s.endNbSlice k i lo m = (s.nbClear k).putJob { j with work := .nbRun (n.ran i lo m) } := by
  have hjob' : (s.nbClear k).nbJob? i.job = some (j, n) := (State.nbJob?_congr (s.nbClear_jobs k) _).trans hjob
  have hopen : ((n.ran i lo m).done.map (fun x => x.2)).sum ≠ (n.ran i lo m).runs := hmore
  simp only [State.endNbSlice, hsound, hjob', Bool.false_eq_true, if_false]
  exact if_neg hopen

/-- Settles O35: the units run to their stops, then a pooling slice leaves its sum to its share and frees its issue, and an NB_RUN
slice notes its granules. -/
theorem nearBankJobsComplete : Obligations.NearBankJobsComplete := by
  refine ⟨?pooling, ?run⟩
  case pooling =>
    intro s u sid k n x i tr j y hrun hslice hkind hstopped hend hissue htrains hshare
    obtain ⟨hjob, -, -, -⟩ := State.embShare?_some hshare
    have hcode : kindCode x.kind = 24 := by rw [hkind]; rfl
    have heff : u.endNbPool x = (u.putShare j (y.summed k tr)).nbClear k := by
      simp only [State.endNbPool, hkind, hissue, State.endPool_one htrains hshare]
    obtain ⟨t, hnext, hnb, hwork⟩ := nbFinish_next (f := State.endNbPool) hrun hslice hcode hstopped hend
    refine ⟨t, hnext, ?_, ?_⟩
    · rw [hwork, heff, State.work?_congr (State.nbClear_jobs ..)]
      exact State.work?_put hjob rfl _
    · rw [hnb, heff]
      exact State.nbClear_gone ..
  case run =>
    intro s u sid id lo m x i j n hrun hslice hkind hstopped hend hnb hissue hid hsound hmore
    subst hid
    obtain ⟨hjob, -, -, -⟩ := State.nbJob?_some hnb
    have hcode : kindCode x.kind = 26 := by rw [hkind]; rfl
    have heff : u.endNbRun x = (u.nbClear n.k).putJob { j with work := .nbRun (n.ran i lo m) } := by
      simp only [State.endNbRun, hkind, hnb, hissue, State.endNbSlice_more hnb hsound hmore]
    obtain ⟨t, hnext, -, hwork⟩ := nbFinish_next (f := State.endNbRun) hrun hslice hcode hstopped hend
    refine ⟨t, hnext, ?_⟩
    rw [hwork, heff]
    exact State.work?_put hjob (State.nbClear_jobs ..) _

end Sys2Proof.Machine
end

section
/-! Tiers, flash and coherence: the areas that their commands keep to (R324, R360). -/

namespace Sys2Proof.Machine

open Sys2Proof

/-! Areas. -/

/-- Settles O12: what `exec_agree` says of every command, for the commands of the tiers, the flash layer and coherence. -/
theorem tierCommandsKeepToTheirAreas : Obligations.TierCommandsKeepToTheirAreas :=
  fun _ _ _ _ he _ ha => (exec_agree he).same ha

end Sys2Proof.Machine
end

section
/-! The Wymer link and the fabric: the areas that their events and commands keep to (R354, R382). -/

namespace Sys2Proof.Machine

open Sys2Proof

/-! Areas. -/

/-- Settles O13: what `exec_agree` says of every command, for the events of the Wymer link and the commands of the fabric. -/
theorem linkAndFabricCommandsKeepToTheirAreas : Obligations.LinkAndFabricCommandsKeepToTheirAreas :=
  fun _ _ _ _ he _ ha => (exec_agree he).same ha

end Sys2Proof.Machine
end

section
/-! Egress: a port that enters UP (R420). -/

namespace Sys2Proof.Machine

open Sys2Proof

/-! Ports and their egress state. -/

@[simp] theorem State.portState_setPort (s : State) (p v : Nat) : (s.setPort p v).portState p = v % 4 :=
  State.fld_setFld_same s _ v (show 0 + 2 ≤ 32 by decide)

@[simp] theorem State.fld_setFabric (s : State) (x : FabricSt) (f : Fld) : (s.setFabric x).fld f = s.fld f := rfl

@[simp] theorem State.fld_setEgress (s : State) (p : Nat) (e : EgressPort) (f : Fld) : (s.setEgress p e).fld f = s.fld f := rfl

@[simp] theorem State.egress_setEgress (s : State) (p : Nat) (e : EgressPort) : (s.setEgress p e).egress p = e := SMap.get_set_same ..

/-- A queue's shaper fields lie in other registers than a port's PORT_STATE. -/
theorem shaperFields_addr (p q : Nat) :
    ∀ f ∈ [Reg.Egress.SHAPE_EN p q, Reg.Egress.RESET_FULL p q, Reg.Egress.BURST_B p q], f.addr ≠ (Reg.Port.PORT_STATE p).addr := by
  simp only [List.forall_mem_cons, Reg.Egress.SHAPE_EN, Reg.Egress.RESET_FULL, Reg.Egress.BURST_B, Reg.Port.PORT_STATE]
  refine ⟨?_, ?_, ?_, List.forall_mem_nil _⟩ <;> omega

/-- A port's state changes and its queues' shaper fields stay. -/
theorem State.shaper_setPort (s : State) (p v q : Nat) {f : Fld}
    (hf : f ∈ [Reg.Egress.SHAPE_EN p q, Reg.Egress.RESET_FULL p q, Reg.Egress.BURST_B p q]) : (s.setPort p v).fld f = s.fld f :=
  State.fld_setFld_addr s v (shaperFields_addr p q f hf)

/-! Credits (R420). -/

theorem State.startCredit_eq (s : State) (p q : Nat) :
    s.startCredit p q = if s.flag (Reg.Egress.SHAPE_EN p q) = true ∧ s.flag (Reg.Egress.RESET_FULL p q) = true
      then creditByte * (s.fld (Reg.Egress.BURST_B p q) : Int) else 0 := by
  simp only [State.startCredit, creditByte, Bool.and_eq_true]

/-- The credit that a queue starts with hangs on its shaper fields, not on the port's state. -/
@[simp] theorem State.startCredit_setPort (s : State) (p v : Nat) : (s.setPort p v).startCredit p = s.startCredit p := by
  funext q
  have hfields := fun f => s.shaper_setPort p v q (f := f)
  simp only [List.mem_cons, List.not_mem_nil, or_false, forall_eq_or_imp, forall_eq] at hfields
  obtain ⟨hshape, hfull, hburst⟩ := hfields
  unfold State.startCredit State.flag
  rw [hshape, hfull, hburst]

theorem State.creditRead_unshaped {s : State} {p q : Nat} (h : s.flag (Reg.Egress.SHAPE_EN p q) = false) : s.creditRead p q = 0 := by
  simp only [State.creditRead, h, Bool.false_eq_true, if_false]

/-! PORT_UP. -/

/-- A port in TRAINING that comes UP changes no register but its PORT_STATE. -/
theorem State.fld_portUp {s : State} {p : Nat} (hp : p < 8) (htrain : s.portState p = 1) (f : Fld) :
    (s.portUp p).fld f = (s.setPort p 2).fld f := by
  simp only [State.portUp, hp, htrain, decide_true, Bool.and_self, if_true, State.fld_setFabric, State.fld_setEgress]

/-- A port in TRAINING that comes UP starts with its queues' credits and the rest of its egress state as at reset. -/
theorem State.egress_portUp {s : State} {p : Nat} (hp : p < 8) (htrain : s.portState p = 1) :
    (s.portUp p).egress p = { credit := (List.range 8).map (s.startCredit p) } := by
  simp only [State.portUp, hp, htrain, decide_true, Bool.and_self, if_true, State.startCredit_setPort]
  exact State.egress_setEgress ..

/-- Settles O17: coming UP puts 2 into PORT_STATE and `State.startCredit` into each queue, and leaves the shaper fields. -/
theorem portsStartTheirCredits : Obligations.PortsStartTheirCredits := by
  intro s p hrun hp htrain
  have hegress := State.egress_portUp hp htrain
  refine ⟨s.portUp p, node_next hrun, ?up, by rw [hegress], fun q hq => ⟨?credit, fun hoff => ?read⟩⟩
  case up =>
    calc (s.portUp p).portState p = (s.setPort p 2).portState p := State.fld_portUp hp htrain _
      _ = 2 := State.portState_setPort s p 2
  case credit => simp only [hegress, List.getElem?_map, List.getElem?_range hq, Option.map_some, State.startCredit_eq]
  case read =>
    have hshape : (s.portUp p).fld (Reg.Egress.SHAPE_EN p q) = s.fld (Reg.Egress.SHAPE_EN p q) :=
      (State.fld_portUp hp htrain _).trans (s.shaper_setPort p 2 q List.mem_cons_self)
    exact State.creditRead_unshaped (by simpa only [State.flag, hshape] using hoff)

end Sys2Proof.Machine
end

section
/-! Faults, start-up, power and the mailbox: the areas that their events and commands keep to (R446, R474, R532, R539). -/

namespace Sys2Proof.Machine

open Sys2Proof

/-! Areas. -/

/-- Settles O14: what `exec_agree` says of every command, for the events of faults, start-up and power and the commands of the
mailbox. -/
theorem moduleCommandsKeepToTheirAreas : Obligations.ModuleCommandsKeepToTheirAreas :=
  fun _ _ _ _ he _ ha => (exec_agree he).same ha

end Sys2Proof.Machine
end

section
/-! The machine as a whole: every command answers a next state (log entry 1), every step keeps the stored maps canonical (log
entry 4), the node starts canonical (log entry 10), and no index of a free value is taken back (log entry 2). -/

namespace Sys2Proof.Machine

open Sys2Proof

/-- Settles O3: every arm of the dispatch is `node` of an operation or a `.next`, and both answer a next state whatever the
operation does (a command whose trigger is not met leaves the state as it is, log entry 1). -/
theorem everyCommandCompletes : Obligations.EveryCommandCompletes := by
  intro c s
  cases c <;> exact ⟨_, rfl⟩

/-- The queue is no stored map: taking its front leaves the maps canonical. -/
theorem State.canonical_pending (s : State) (l : List Instr) : ({ s with pending := l } : State).canonical = s.canonical := rfl

/-- Settles O4: an idle step is a tick, and a command completes within the areas it may write; both keep the maps canonical. -/
theorem stepsKeepMapsCanonical : Obligations.StepsKeepMapsCanonical := by
  intro s hcanon
  cases hqueue : s.pending with
  | nil =>
    obtain ⟨hstep, -⟩ := idleStepIsACycle s hqueue
    have hagree : Agree [.time] s s.tick := State.tick_agree (List.Subset.refl _) (.refl _ s)
    exact ⟨s.tick, hstep, hagree.keeps hcanon⟩
  | cons c rest =>
    obtain ⟨t, hexec⟩ := everyCommandCompletes c { s with pending := rest }
    have hstep : step s = .next t := (stepRunsTheFront c rest s hqueue).trans hexec
    exact ⟨t, hstep, (exec_agree hexec).keeps ((s.canonical_pending rest).trans hcanon)⟩

/-- Settles O5: every stored map is empty at reset, and so is the queue; NODE_RST_N is low, so that the node does not run. -/
theorem resetIsCanonical : Obligations.ResetIsCanonical := by
  refine ⟨?canonical, ?queue, ?held⟩
  case canonical => rw [State.canonical_iff]; decide
  case queue => rfl
  case held => rfl

/-- Settles O7: no command takes a free index back, whatever areas it writes. -/
theorem freeValuesAreNeverDrawnTwice : Obligations.FreeValuesAreNeverDrawnTwice :=
  fun _ _ _ hexec => (exec_agree hexec).fresh_le

end Sys2Proof.Machine
end

section
/-! Register space: the areas that register, time and slice commands keep to (R30, R31, R520), and what register messages do:
writes by the access codes of the fields (R523), shadow writes by COMMIT (R41), latched reads (R524), held messages (R522). -/

namespace Sys2Proof.Machine

open Sys2Proof

/-! Areas. -/

/-- Settles O11: what `exec_agree` says of every command, for the commands of registers, time and slices. -/
theorem registerCommandsKeepToTheirAreas : Obligations.RegisterCommandsKeepToTheirAreas :=
  fun _ _ _ _ hexec _ ha => (exec_agree hexec).same ha

/-! Writes (R41, R523). -/

/-- A write to a shadow address goes to the shadow fields of the register. -/
theorem State.regWrite_shadow (s : State) {a : Nat} (w : Nat) (hnone : rowsAt a = []) (hshadow : shadowRows a ≠ []) :
    s.regWrite a w = s.shadowPut a w := by
  simp only [State.regWrite, hnone, hshadow, if_true, if_false]

/-- A served write answers next, in a state whose fields are those that the register write leaves. -/
theorem served_write_next {s : State} {agent dom off data : Nat} (hserved : s.serves ⟨agent, dom, off, true, data⟩) :
    ∃ t, node s (fun s => s.regMessage ⟨agent, dom, off, true, data⟩) = .next t ∧ ∀ f, t.fld f = (s.regWrite off data).fld f :=
  ⟨_, node_next hserved.1, fun f => by rw [State.serveReg_write hserved rfl, State.fld_regAnswer]⟩

/-- While COMMIT is 0 a shadow write puts the written bits into every shadow field; EN of D0 stays 1 (R517). -/
theorem State.shadowPut_open {s : State} {a : Nat} (w : Nat) (hopen : s.fld (blkCommit (blkOf a)) = 0)
    (hapart : rowsApart (shadowRows a) = true) {r : Row} (hr : r ∈ shadowRows a) :
    (s.shadowPut a w).fld ⟨a, r.lo, r.width⟩ = fieldOf (if a = 0x981000 then w ||| 1 else w) r.lo r.width := by
  have hflag : s.flag (blkCommit (blkOf a)) = false := by simp [State.flag, hopen]
  simp only [State.shadowPut, hflag, Bool.false_eq_true, if_false]
  exact State.foldPut_spec a _ _ s hapart r hr

/-- While COMMIT is 1 a shadow write sets the block's SHADOW_REJECT and nothing else. -/
theorem State.shadowPut_refused {s : State} {a : Nat} (w : Nat) (hcommit : s.fld (blkCommit (blkOf a)) = 1) :
    s.shadowPut a w = s.setFld (blkReject (blkOf a)) 1 := by
  have hflag : s.flag (blkCommit (blkOf a)) = true := by simp [State.flag, hcommit]
  simp only [State.shadowPut, hflag, if_true]

/-- SHADOW_REJECT is one bit of its register, in every block. -/
theorem blkReject_bit (b : Blk) : (blkReject b).width = 1 ∧ (blkReject b).lo + (blkReject b).width ≤ 32 := by
  cases b <;> exact ⟨rfl, Nat.le_of_ble_eq_true rfl⟩

/-! Reads (R524). -/

/-- A read of a low register gives its word and stores the high register's for the reader. -/
theorem State.regRead_low (s : State) (reader : Nat) {a hi : Nat} (hlatch : latchOf a = some hi) :
    s.regRead reader a =
      ({ s with latches := SMap.set latchDefault s.latches (latchKey reader hi) (s.wordAt hi) }, s.wordAt a) := by
  simp only [State.regRead, hlatch]

/-- A live agent gets its answer over the link. -/
theorem State.regAnswer_live {s : State} {agent : Nat} (x : LinkMsg) (hlive : s.live agent = true) : s.regAnswer agent x = s.toLink x := by
  simp only [State.regAnswer, hlive, if_true]

/-- A served read of a low register: the high one is latched for the agent, and the word goes to it. -/
theorem served_low_next {s : State} {agent dom off hi : Nat} (hserved : s.serves ⟨agent, dom, off, false, 0⟩)
    (hlatch : latchOf off = some hi) :
    node s (fun s => s.regMessage ⟨agent, dom, off, false, 0⟩) =
      .next (({ s with latches := SMap.set latchDefault s.latches (latchKey agent hi) (s.wordAt hi) } : State).toLink
        (.regData agent (s.wordAt off))) := by
  rw [node_next hserved.1, State.regMessage_serves hserved]
  obtain ⟨-, -, hlive, -, -, -, hallowed⟩ := hserved
  simp only [State.serveReg, hallowed, Bool.not_true, Bool.false_eq_true, if_false, State.regRead_low s agent hlatch]
  exact congrArg _ (State.regAnswer_live _ hlive)

/-! Held messages (R522). -/

/-- The state at the end of the boundary window, with the messages `l` held. -/
def State.windowOver (s : State) (l : List RegMsg) : State :=
  { s with heldMsgs := l, time := { s.time with phase := max s.time.phase (s.fld Reg.G.BOUNDARY_CYCLES) } }

/-- The first message held is served at the end of the window. -/
theorem State.serveHeld_cons {s : State} {m : RegMsg} {rest : List RegMsg} (hheld : s.heldMsgs = m :: rest) :
    s.serveHeld = (s.windowOver rest).serveReg m := by
  simp only [State.serveHeld, hheld, State.windowOver]

/-- Serving a message takes none of the messages held and no time. -/
theorem State.serveReg_keeps (s : State) (m : RegMsg) : (s.serveReg m).heldMsgs = s.heldMsgs ∧ (s.serveReg m).time = s.time :=
  have h := State.serveReg_agree (m := m) (List.Subset.refl _) (.refl _ s)
  ⟨h.heldMsgs_eq (by decide), h.time_eq (by decide)⟩

/-- Settles O19: a write is `State.putRows` or `State.shadowPut`, a low read latches as `State.regRead_low` has it, and the first
message held is served as `State.serveHeld` has it, with the phase at the window's end (log entry 113). -/
theorem registerMessagesAreServed : Obligations.RegisterMessagesAreServed := by
  refine ⟨?regWr, ?shadowOpen, ?shadowRefused, ?lowRead, ?held⟩
  case regWr =>
    intro s agent dom off data hserved hrows hapart hmailbox hlk hplain
    obtain ⟨t, hnext, hfld⟩ := served_write_next hserved
    refine ⟨t, hnext, fun r hr => ?_⟩
    rw [hfld, State.regWrite_rows s off data hrows hmailbox hlk hplain]
    exact State.putRows_spec off data (rowsAt off) s hapart r hr
  case shadowOpen =>
    intro s agent dom off data hserved hnone hshadow hapart hopen
    obtain ⟨t, hnext, hfld⟩ := served_write_next hserved
    refine ⟨t, hnext, fun r hr => ?_⟩
    rw [hfld, State.regWrite_shadow s data hnone hshadow]
    exact State.shadowPut_open data hopen hapart hr
  case shadowRefused =>
    intro s agent dom off data hserved hnone hshadow hcommit
    obtain ⟨t, hnext, hfld⟩ := served_write_next hserved
    obtain ⟨hwidth, hword⟩ := blkReject_bit (blkOf off)
    have hput : ∀ f, t.fld f = (s.setFld (blkReject (blkOf off)) 1).fld f := by
      intro f
      rw [hfld, State.regWrite_shadow s data hnone hshadow, State.shadowPut_refused data hcommit]
    refine ⟨t, hnext, ?_, fun g hg => (hput g).trans (State.fld_setFld_apart s 1 hword hg)⟩
    calc t.fld (blkReject (blkOf off)) = 1 % 2 ^ (blkReject (blkOf off)).width := (hput _).trans (State.fld_setFld_same s _ 1 hword)
      _ = 1 := by rw [hwidth]; rfl
  case lowRead =>
    intro s agent dom off hi hserved hlatch
    exact ⟨_, served_low_next hserved hlatch, rfl, SMap.get_set_same .., rfl, rfl⟩
  case held =>
    intro s m rest hrun hheld
    have hnext : exec .heldRegisterMessage s = .next s.serveHeld := node_next hrun
    rw [State.serveHeld_cons hheld] at hnext
    obtain ⟨hkept, htime⟩ := (s.windowOver rest).serveReg_keeps m
    exact ⟨_, hnext, hkept, htime ▸ Nat.le_max_right .., rfl⟩

end Sys2Proof.Machine
end

section
/-! Stores of the node: what memory reads after one (R315, R324, R331, R366). -/

namespace Sys2Proof.Machine

open Sys2Proof

/-- Bringing the pages and sectors of a write about leaves memory and the directory. -/
theorem State.touchWrites_keep (s : State) (l : List (Nat × Nat)) :
    (l.foldl State.touchWrite s).mem = s.mem ∧ (l.foldl State.touchWrite s).link = s.link :=
  have h : Agree [.regs, .pages, .flash] s (l.foldl State.touchWrite s) :=
    Agree.fold (fun _ _ ht => State.touchWrite_agree (List.Subset.refl _) ht) (.refl _ s)
  ⟨h.mem_eq (by decide), h.link_eq (by decide)⟩

/-- A write to lines of which the directory holds no copy asks nothing of any agent. -/
theorem State.dirWrites_absent (s : State) (mask : Nat → Nat) {ls : List Nat} (habsent : ∀ l ∈ ls, s.dir l = {}) :
    ls.foldl (fun s l => s.dirWrite l (mask l)) s = s := by
  induction ls with
  | nil => rfl
  | cons l t ih =>
    obtain ⟨hl, ht⟩ := List.forall_mem_cons.mp habsent
    have hfirst : s.dirWrite l (mask l) = s := by simp only [State.dirWrite, hl, if_true]
    rw [List.foldl_cons, hfirst, ih ht]

/-- A store that finds room, no near-bank window and no cached copy writes its bytes to memory, and memory changes in nothing else. -/
theorem State.store_mem {s : State} {a : Nat} {data : List Byte} (dom : Nat) (hroom : s.noRoom a data.length = false)
    (hwindow : s.nbWindow a data.length = false) (habsent : ∀ l ∈ linesOf a data.length, s.dir l = {}) :
    (s.store a data dom).mem = s.mem.write a data dom 0 := by
  obtain ⟨hmem, hlink⟩ := s.touchWrites_keep (sectorsOf a data.length)
  have habsent' : ∀ l ∈ linesOf a data.length, ((sectorsOf a data.length).foldl State.touchWrite s).dir l = {} := by
    simpa only [State.dir, hlink] using habsent
  simp only [State.store, State.storeNb, hwindow, hroom, Bool.false_eq_true, if_false, State.dirWrites_absent _ _ habsent', hmem]

/-- A byte of memory after a run of bytes is written. -/
theorem MemSt.byte_write (m : MemSt) (a : Nat) (data : List Byte) (dom nb b : Nat) :
    (m.write a data dom nb).byte b = if a ≤ b ∧ b < a + data.length then data.getD (b - a) 0#8 else m.byte b := by
  split
  next hin =>
    obtain ⟨i, rfl⟩ := Nat.exists_eq_add_of_le hin.1
    have hi : i < data.length := by omega
    rw [MemSt.byte_write_in m a data dom nb i hi, Nat.add_sub_cancel_left, List.getD_eq_getElem _ _ hi]
  next hout => exact MemSt.byte_write_out m a data dom nb b (by omega)

/-- Settles O15: such a store is one write of memory, wherever its pages lie (a page in flash is fetched on demand, and the bytes
stand in coherent content at once, log entry 44). -/
theorem storesReadBack : Obligations.StoresReadBack := by
  intro s a data dom hroom hwindow habsent b
  rw [State.byte, State.store_mem dom hroom hwindow habsent]
  exact s.mem.byte_write a data dom 0 b

end Sys2Proof.Machine
end
